-- ==== Sys2Proof/Word.lean ====
section
/-! DEFINITION. The word types of the CZ-4 (R8, R11) and their plainest names. -/

namespace Sys2Proof

/-- A word is 64 bits wherever no other width is given (R8). -/
abbrev Word := BitVec 64

/-- A byte of memory. -/
abbrev Byte := BitVec 8

/-- A general register g0 to g7 (R11). -/
abbrev Reg := Fin 8

/-- A predicate register p0 to p7 (R11). -/
abbrev PReg := Fin 8

/-- A 57-bit virtual address (R25). -/
abbrev VAddr := BitVec 57

end Sys2Proof
end

