-- ==== Sys2Proof/Machine/SMap.lean ====
section
/-! DEFINITION. Sparse tables by number: lists of pairs with strictly rising keys. -/

namespace Sys2Proof.Machine

/-- A table from numbers to values, keys strictly rising. -/
abbrev SMap (α : Type) := List (Nat × α)

/-- The value under a key. -/
def SMap.get? {α : Type} : SMap α → Nat → Option α
  | [], _ => none
  | (j, v) :: m, k => if j = k then some v else SMap.get? m k

/-- The value under a key, or a default. -/
def SMap.getD {α : Type} (m : SMap α) (k : Nat) (d : α) : α := (SMap.get? m k).getD d

/-- Put a value under a key, keeping the keys rising. -/
def SMap.set {α : Type} : SMap α → Nat → α → SMap α
  | [], k, v => [(k, v)]
  | (j, w) :: m, k, v => if k < j then (k, v) :: (j, w) :: m else if j = k then (k, v) :: m else (j, w) :: SMap.set m k v

/-- Remove a key. -/
def SMap.erase {α : Type} : SMap α → Nat → SMap α
  | [], _ => []
  | (j, w) :: m, k => if j = k then m else (j, w) :: SMap.erase m k

/-- Put a value under a key, or remove the key when the value is the default that an absent key reads as. -/
def SMap.put {α : Type} [DecidableEq α] (m : SMap α) (k : Nat) (v d : α) : SMap α := if v = d then SMap.erase m k else SMap.set m k v

/-- Keys strictly rising from a lower bound. -/
def SMap.risingFrom {α : Type} (lo : Nat) : SMap α → Bool
  | [] => true
  | (j, _) :: m => decide (lo ≤ j) && SMap.risingFrom (j + 1) m

/-- Apply a function to the k-th element of a list. -/
def modifyAt {α : Type} (f : α → α) : Nat → List α → List α
  | _, [] => []
  | 0, x :: l => f x :: l
  | k + 1, x :: l => x :: modifyAt f k l

/-- Remove the k-th element of a list. -/
def removeAt {α : Type} : Nat → List α → List α
  | _, [] => []
  | 0, _ :: l => l
  | k + 1, x :: l => x :: removeAt k l

/-- The k-th element of a list. -/
def nth? {α : Type} : List α → Nat → Option α
  | [], _ => none
  | x :: _, 0 => some x
  | _ :: l, k + 1 => nth? l k

end Sys2Proof.Machine
end

