-- ==== Sys2Proof/Syntax.lean ====
section
/-! DEFINITION. The instructions of the CZ-4: every row of spec/opcode_table.json is one constructor of `Instr`.
The operand types name what a field of a word can hold (R53 to R80); a value a field must not hold is no value of its type
wherever the fields alone decide that, and `WellFormed.lean` says the rest. -/

namespace Sys2Proof

/-- The guard of an instruction word: truth table and three selectors (R53, R57). -/
structure Guard where
  tt : BitVec 8
  ga : PReg
  gb : PReg
  gc : PReg
  deriving DecidableEq, Repr

/-- A source operand: its register and its take bit (R56). -/
structure Src where
  reg : Reg
  take : Bool
  deriving DecidableEq, Repr

/-- The width of SEXT and ZEXT, SZ 0 to 2 (R102). -/
inductive ExtWidth where
  | i8 | i16 | i32
  deriving DecidableEq, Repr

/-- The combine mode CM of a predicate write (R61). -/
inductive Combine where
  | replace | and | or | xor
  deriving DecidableEq, Repr

/-- The condition codes of CMP, CMPI and integer VCMP (R73). -/
inductive IntCond where
  | eq | ne | lt | le | gt | ge | ltu | leu | gtu | geu
  deriving DecidableEq, Repr

/-- The condition codes of FCMP and float VCMP (R74). -/
inductive FloatCond where
  | eq | ne | lt | le | gt | ge | un | ord
  deriving DecidableEq, Repr

/-- The format of a scalar floating-point instruction, SZ 2 or 3 (R141). -/
inductive FScalar where
  | f32 | f64
  deriving DecidableEq, Repr

/-- The three forms of PMOV, FN 0 to 2 (R113). -/
inductive PMovForm where
  | predFromPred | predFromReg | regFromPred
  deriving DecidableEq, Repr

/-- The shared element-size code SZ (R58). -/
inductive ElemSize where
  | i8 | i16 | i32 | i64
  deriving DecidableEq, Repr

/-- FN of VADD and VSUB (R131). -/
inductive SatOp where
  | wrap | sat | usat
  deriving DecidableEq, Repr

/-- FN of VMUL (R131). -/
inductive MulPart where
  | lo | hi | hiu
  deriving DecidableEq, Repr

/-- FN of VPERM (R134). -/
inductive PermOp where
  | rev | swap | ziplo | ziphi | even | odd
  deriving DecidableEq, Repr

/-- The lane format of the vector float instructions, from SZ and FN (R137). -/
inductive VFloat where
  | f16 | bf16 | f32
  deriving DecidableEq, Repr

/-- FK and SZ of VCMP with the condition code they admit (R136). -/
inductive VCmpKind where
  | int (sz : ElemSize) (cc : IntCond)
  | flt (fmt : VFloat) (cc : FloatCond)
  deriving DecidableEq, Repr

/-- FN of VCVT (R140). -/
inductive VCvtOp where
  | f32bf16 | f32f16 | bf16f32 | f16f32 | f32i32 | i32f32 | f32t8 | t8f32 | f32i8 | i8f32
  deriving DecidableEq, Repr

/-- FN of FCVT (R143). -/
inductive FCvtOp where
  | f64f32 | f32f64 | f32f16 | f16f32 | f32bf16 | bf16f32 | f32i64 | f64i64
  | i64f32 | i64f64 | f32i32 | f64i32 | f32t8 | t8f32 | f32t6 | t6f32
  deriving DecidableEq, Repr

/-- The rounding modes (R35). -/
inductive Rounding where
  | rne | rtz | rup | rdn
  deriving DecidableEq, Repr

/-- FN of LD and LD.acq (R75). -/
inductive LoadWidth where
  | u8 | u16 | u32 | u64 | s8 | s16 | s32
  deriving DecidableEq, Repr

/-- FN of ST and ST.rel (R75). -/
inductive StoreWidth where
  | b8 | b16 | b32 | b64
  deriving DecidableEq, Repr

/-- FN of AMO (R76). -/
inductive AmoOp where
  | add | min | max | and | or | xor | swp | cas | minu | maxu
  deriving DecidableEq, Repr

/-- ORD (R72); for FENCE, `none` is sequentially consistent. -/
inductive Order where
  | none | acquire | release | acqRel
  deriving DecidableEq, Repr

/-- SCOPE (R72). -/
inductive Scope where
  | ctx | cl | die | pkg | sys
  deriving DecidableEq, Repr

/-- FN of QRED (R171). -/
inductive RedKind where
  | i64 | f64 | f32
  deriving DecidableEq, Repr

/-- FN of SELF (R177). -/
inductive SelfFact where
  | handle | ident | loc | inbox
  deriving DecidableEq, Repr

/-- A 256-bit engine command without its opcode, every field as the word holds it (R78). -/
structure CmdArgs where
  rel : Bool
  qbar : Bool
  ckind : BitVec 2
  csc : BitVec 3
  bit240 : Bool
  ctgt : BitVec 64
  ha : BitVec 32
  hb : BitVec 32
  hc : BitVec 32
  ops : BitVec 80
  deriving DecidableEq, Repr

/-- A key pair by the SHA-384 digests of its two public keys (R95, R400). -/
structure KeyPair where
  rsa : BitVec 384
  slh : BitVec 384
  deriving DecidableEq, Repr

/-- An object that the root keys or an enrolled pair may have signed: the pair that its signature block names, and whether each of the two
signatures verifies under the public key whose digest stands there (R95, R400; log entry 69). -/
structure Signed where
  pair : KeyPair
  rsaOk : Bool
  slhOk : Bool
  deriving DecidableEq, Repr

/-- A firmware image: a Pufel object (R92, R399) by its size and its bytes that are not zero, with what the two signature schemes say of it
(R95; log entry 69). -/
structure Image where
  size : Nat
  bytes : List (Nat × Byte)
  rsaOk : Bool
  slhOk : Bool
  deriving DecidableEq, Repr

/-- What die firmware finds fit for use no more at bring-up (R394): clusters of its die, by global number, and HBM channels. -/
structure MapOut where
  clusters : List Nat
  channels : List Nat
  deriving DecidableEq, Repr

/-- The bring-up parameters (R398): GTBASE, PTBASE, ERRBASE, SUBBASE. -/
structure BringUp where
  gtBase : Nat
  ptBase : Nat
  errBase : Nat
  subBase : Nat
  /-- The memory reserved outside every ASID for calendar overflow areas, spawn backlogs and the launch-slot table: first byte and length
  of each range. -/
  areas : List (Nat × Nat)
  deriving DecidableEq, Repr

/-- What stage 2 of the boot of a die brings: the bring-up parameters, and what its firmware maps out (R394, R398, R399). -/
structure DieBoot where
  params : BringUp
  out : MapOut
  deriving DecidableEq, Repr

/-- One constructor per row of spec/opcode_table.json. -/
inductive Instr where
  -- Integer, address and predicate instructions (R98 to R114)
  /-- ADD gd, ga, gb (R99). -/
  | add (g : Guard) (d : Reg) (a b : Src)
  /-- SUB gd, ga, gb (R99). -/
  | sub (g : Guard) (d : Reg) (a b : Src)
  /-- ADDI gd, ga, imm (R105). -/
  | addi (g : Guard) (d : Reg) (a : Src) (imm : BitVec 28)
  /-- MUL gd, ga, gb (R100). -/
  | mul (g : Guard) (d : Reg) (a b : Src)
  /-- MULH gd, ga, gb (R100). -/
  | mulh (g : Guard) (d : Reg) (a b : Src)
  /-- MULHU gd, ga, gb (R100). -/
  | mulhu (g : Guard) (d : Reg) (a b : Src)
  /-- DIV gd, ga, gb (R100). -/
  | div (g : Guard) (d : Reg) (a b : Src)
  /-- DIVU gd, ga, gb (R100). -/
  | divu (g : Guard) (d : Reg) (a b : Src)
  /-- REM gd, ga, gb (R100). -/
  | rem (g : Guard) (d : Reg) (a b : Src)
  /-- REMU gd, ga, gb (R100). -/
  | remu (g : Guard) (d : Reg) (a b : Src)
  /-- AND gd, ga, gb (R99). -/
  | and (g : Guard) (d : Reg) (a b : Src)
  /-- OR gd, ga, gb (R99). -/
  | or (g : Guard) (d : Reg) (a b : Src)
  /-- XOR gd, ga, gb (R99). -/
  | xor (g : Guard) (d : Reg) (a b : Src)
  /-- ANDN gd, ga, gb (R99). -/
  | andn (g : Guard) (d : Reg) (a b : Src)
  /-- SHL gd, ga, gb (R101). -/
  | shl (g : Guard) (d : Reg) (a b : Src)
  /-- SHR gd, ga, gb (R101). -/
  | shr (g : Guard) (d : Reg) (a b : Src)
  /-- SAR gd, ga, gb (R101). -/
  | sar (g : Guard) (d : Reg) (a b : Src)
  /-- ROT gd, ga, gb (R101). -/
  | rot (g : Guard) (d : Reg) (a b : Src)
  /-- MIN gd, ga, gb (R99). -/
  | min (g : Guard) (d : Reg) (a b : Src)
  /-- MAX gd, ga, gb (R99). -/
  | max (g : Guard) (d : Reg) (a b : Src)
  /-- MINU gd, ga, gb (R99). -/
  | minu (g : Guard) (d : Reg) (a b : Src)
  /-- MAXU gd, ga, gb (R99). -/
  | maxu (g : Guard) (d : Reg) (a b : Src)
  /-- ABS gd, ga (R99). -/
  | abs (g : Guard) (d : Reg) (a : Src)
  /-- CLZ gd, ga (R102). -/
  | clz (g : Guard) (d : Reg) (a : Src)
  /-- CTZ gd, ga (R102). -/
  | ctz (g : Guard) (d : Reg) (a : Src)
  /-- POPC gd, ga (R102). -/
  | popc (g : Guard) (d : Reg) (a : Src)
  /-- BEXT gd, ga, gb (R103). -/
  | bext (g : Guard) (d : Reg) (a b : Src)
  /-- BINS gd, ga, gb, gc (R103). -/
  | bins (g : Guard) (d : Reg) (a b cc : Src)
  /-- SEXT.iN gd, ga (R102). -/
  | sext (g : Guard) (w : ExtWidth) (d : Reg) (a : Src)
  /-- ZEXT.iN gd, ga (R102). -/
  | zext (g : Guard) (w : ExtWidth) (d : Reg) (a : Src)
  /-- SEL gd, pk, ga, gb (R104). -/
  | sel (g : Guard) (k : PReg) (d : Reg) (a b : Src)
  /-- LDI gd, imm (R106). -/
  | ldi (g : Guard) (d : Reg) (imm : BitVec 32)
  /-- LDIH gd, imm (R106). -/
  | ldih (g : Guard) (d : Reg) (imm : BitVec 32)
  /-- ADDPC gd, target (R107). -/
  | addpc (g : Guard) (d : Reg) (off : BitVec 32)
  /-- FATSET gd, ga, gb (R108). -/
  | fatset (g : Guard) (d : Reg) (a b : Src)
  /-- FATGET gd, ga (R108). -/
  | fatget (g : Guard) (d : Reg) (a : Src)
  /-- ANDI gd, ga, imm (R105). -/
  | andi (g : Guard) (d : Reg) (a : Src) (imm : BitVec 28)
  /-- ORI gd, ga, imm (R105). -/
  | ori (g : Guard) (d : Reg) (a : Src) (imm : BitVec 28)
  /-- XORI gd, ga, imm (R105). -/
  | xori (g : Guard) (d : Reg) (a : Src) (imm : BitVec 28)
  /-- SHLI gd, ga, n (R105). -/
  | shli (g : Guard) (d : Reg) (a : Src) (n : BitVec 6)
  /-- SHRI gd, ga, n (R105). -/
  | shri (g : Guard) (d : Reg) (a : Src) (n : BitVec 6)
  /-- SARI gd, ga, n (R105). -/
  | sari (g : Guard) (d : Reg) (a : Src) (n : BitVec 6)
  /-- CMP.cc pj:pj+1, ga, gb (R110). -/
  | cmp (g : Guard) (pk : BitVec 2) (cm : Combine) (cc : IntCond) (a b : Src)
  /-- CMPI.cc pj:pj+1, ga, imm (R110). -/
  | cmpi (g : Guard) (pk : BitVec 2) (cm : Combine) (cc : IntCond) (a : Src) (imm : BitVec 23)
  /-- TST.z or TST.nz pj:pj+1, ga, gb (R110). -/
  | tst (g : Guard) (pk : BitVec 2) (cm : Combine) (nz : Bool) (a b : Src)
  /-- FCMP.cc.fmt pj:pj+1, ga, gb (R111). -/
  | fcmp (g : Guard) (pk : BitVec 2) (cm : Combine) (fmt : FScalar) (cc : FloatCond) (a b : Src)
  /-- PSET pd, pa, pb, pc, tbl (R112). -/
  | pset (g : Guard) (x y z w : PReg) (tbl : BitVec 8)
  /-- PMOV in its three forms (R113). -/
  | pmov (g : Guard) (f : PMovForm) (x y : Reg)
  /-- PCNT gd, pa (R114). -/
  | pcnt (g : Guard) (x : Reg) (y : PReg)
  -- Control flow under guards (R115 to R129)
  /-- BR target (R117). -/
  | br (g : Guard) (off : BitVec 32)
  /-- BRL gd, target (R117). -/
  | brl (g : Guard) (d : Reg) (off : BitVec 32)
  /-- JR ga (R118). -/
  | jr (g : Guard) (a : Src)
  /-- JRL gd, ga (R118). -/
  | jrl (g : Guard) (d : Reg) (a : Src)
  /-- LOOP gd, target (R119). -/
  | loop (g : Guard) (d : Reg) (off : BitVec 32)
  /-- WAIT.inbox (R121). -/
  | waitInbox (g : Guard)
  /-- WAIT.full ga (R121). -/
  | waitFull (g : Guard) (a : Src)
  /-- WAIT.time ga (R121). -/
  | waitTime (g : Guard) (a : Src)
  /-- YIELD (R123). -/
  | yield (g : Guard)
  /-- NOP (R124). -/
  | nop (g : Guard)
  /-- A word that fails condition `cond` of R71 raises a precise illegal-encoding trap. -/
  | illegalOpcode (word : Word) (cond : BitVec 3)
  -- Short-vector instructions (R130 to R140)
  /-- VADD[.op].iN (R131). -/
  | vadd (g : Guard) (op : SatOp) (sz : ElemSize) (d : Reg) (a b : Src)
  /-- VSUB[.op].iN (R131). -/
  | vsub (g : Guard) (op : SatOp) (sz : ElemSize) (d : Reg) (a b : Src)
  /-- VMUL[.op].iN (R131). -/
  | vmul (g : Guard) (op : MulPart) (sz : ElemSize) (d : Reg) (a b : Src)
  /-- VMIN[.u].iN (R131). -/
  | vmin (g : Guard) (unsigned : Bool) (sz : ElemSize) (d : Reg) (a b : Src)
  /-- VMAX[.u].iN (R131). -/
  | vmax (g : Guard) (unsigned : Bool) (sz : ElemSize) (d : Reg) (a b : Src)
  /-- VAND.iN (R132). -/
  | vand (g : Guard) (sz : ElemSize) (d : Reg) (a b : Src)
  /-- VOR.iN (R132). -/
  | vor (g : Guard) (sz : ElemSize) (d : Reg) (a b : Src)
  /-- VXOR.iN (R132). -/
  | vxor (g : Guard) (sz : ElemSize) (d : Reg) (a b : Src)
  /-- VANDN.iN (R132). -/
  | vandn (g : Guard) (sz : ElemSize) (d : Reg) (a b : Src)
  /-- VSHL.iN (R132). -/
  | vshl (g : Guard) (sz : ElemSize) (d : Reg) (a b : Src)
  /-- VSHR.iN (R132). -/
  | vshr (g : Guard) (sz : ElemSize) (d : Reg) (a b : Src)
  /-- VSAR.iN (R132). -/
  | vsar (g : Guard) (sz : ElemSize) (d : Reg) (a b : Src)
  /-- VSHUF.iN (R133). -/
  | vshuf (g : Guard) (sz : ElemSize) (d : Reg) (a b cc : Src)
  /-- VPERM.op.iN (R134); b is g0 untaken where the pattern does not use it. -/
  | vperm (g : Guard) (op : PermOp) (sz : ElemSize) (d : Reg) (a b : Src)
  /-- VSPLAT.iN (R135). -/
  | vsplat (g : Guard) (sz : ElemSize) (d : Reg) (a : Src)
  /-- VEXT[.s].iN (R135). -/
  | vext (g : Guard) (signed : Bool) (sz : ElemSize) (d : Reg) (a b : Src)
  /-- VINS.iN (R135). -/
  | vins (g : Guard) (sz : ElemSize) (d : Reg) (a b : Src)
  /-- VCMP.cc.kind pj:pj+1, ga:ga+1, gb:gb+1 (R136). -/
  | vcmp (g : Guard) (pk : BitVec 2) (cm : Combine) (k : VCmpKind) (a b : Src)
  /-- VFADD.fmt[.rm] (R137). -/
  | vfadd (g : Guard) (fmt : VFloat) (rm : Rounding) (d : Reg) (a b : Src)
  /-- VFSUB.fmt[.rm] (R137). -/
  | vfsub (g : Guard) (fmt : VFloat) (rm : Rounding) (d : Reg) (a b : Src)
  /-- VFMUL.fmt[.rm] (R137). -/
  | vfmul (g : Guard) (fmt : VFloat) (rm : Rounding) (d : Reg) (a b : Src)
  /-- VFMA.fmt[.rm] (R137). -/
  | vfma (g : Guard) (fmt : VFloat) (rm : Rounding) (d : Reg) (a b cc : Src)
  /-- VFMIN.fmt (R138). -/
  | vfmin (g : Guard) (fmt : VFloat) (d : Reg) (a b : Src)
  /-- VFMAX.fmt (R138). -/
  | vfmax (g : Guard) (fmt : VFloat) (d : Reg) (a b : Src)
  /-- VDOT[.rm] (R139). -/
  | vdot (g : Guard) (rm : Rounding) (d : Reg) (a b cc : Src)
  /-- VCVT.conv[.rm] (R140). -/
  | vcvt (g : Guard) (op : VCvtOp) (rm : Rounding) (d : Reg) (a : Src)
  -- Scalar floating point (R141 to R144)
  /-- FADD.fmt[.rm] gd, ga, gb (R141). -/
  | fadd (g : Guard) (fmt : FScalar) (rm : Rounding) (d : Reg) (a b : Src)
  /-- FSUB.fmt[.rm] gd, ga, gb (R141). -/
  | fsub (g : Guard) (fmt : FScalar) (rm : Rounding) (d : Reg) (a b : Src)
  /-- FMUL.fmt[.rm] gd, ga, gb (R141). -/
  | fmul (g : Guard) (fmt : FScalar) (rm : Rounding) (d : Reg) (a b : Src)
  /-- FFMA.fmt[.rm] gd, ga, gb, gc (R141). -/
  | ffma (g : Guard) (fmt : FScalar) (rm : Rounding) (d : Reg) (a b cc : Src)
  /-- FDIV.fmt[.rm] gd, ga, gb la=n (R141, R142). -/
  | fdiv (g : Guard) (la : BitVec 4) (fmt : FScalar) (rm : Rounding) (d : Reg) (a b : Src)
  /-- FSQRT.fmt[.rm] gd, ga la=n (R141, R142). -/
  | fsqrt (g : Guard) (la : BitVec 4) (fmt : FScalar) (rm : Rounding) (d : Reg) (a : Src)
  /-- FMIN.fmt gd, ga, gb (R138, R141). -/
  | fmin (g : Guard) (fmt : FScalar) (d : Reg) (a b : Src)
  /-- FMAX.fmt gd, ga, gb (R138, R141). -/
  | fmax (g : Guard) (fmt : FScalar) (d : Reg) (a b : Src)
  /-- FCVT.conv[.rm] gd, ga (R143). -/
  | fcvt (g : Guard) (op : FCvtOp) (rm : Rounding) (d : Reg) (a : Src)
  /-- FCLASS.fmt gd, ga (R144). -/
  | fclass (g : Guard) (fmt : FScalar) (d : Reg) (a : Src)
  -- Special functions (R145 to R147)
  /-- RCP in its scalar and its pair form (R145). -/
  | rcp (g : Guard) (la : BitVec 4) (vec : Bool) (d : Reg) (a : Src)
  /-- RSQ in its scalar and its pair form (R145). -/
  | rsq (g : Guard) (la : BitVec 4) (vec : Bool) (d : Reg) (a : Src)
  /-- EXP2 in its scalar and its pair form (R145). -/
  | exp2 (g : Guard) (la : BitVec 4) (vec : Bool) (d : Reg) (a : Src)
  /-- LOG2 in its scalar and its pair form (R145). -/
  | log2 (g : Guard) (la : BitVec 4) (vec : Bool) (d : Reg) (a : Src)
  /-- SIN in its scalar and its pair form (R145). -/
  | sin (g : Guard) (la : BitVec 4) (vec : Bool) (d : Reg) (a : Src)
  /-- COS in its scalar and its pair form (R145). -/
  | cos (g : Guard) (la : BitVec 4) (vec : Bool) (d : Reg) (a : Src)
  /-- TANH in its scalar and its pair form (R145). -/
  | tanh (g : Guard) (la : BitVec 4) (vec : Bool) (d : Reg) (a : Src)
  -- Memory (R149 to R163)
  /-- LD.w gd, [ga+off] la=n (R155). -/
  | ld (g : Guard) (la : BitVec 4) (w : LoadWidth) (d : Reg) (a : Src) (off : BitVec 15)
  /-- ST.w [ga+off], gb (R155). -/
  | st (g : Guard) (w : StoreWidth) (a b : Src) (off : BitVec 15)
  /-- LDV gd:gd+1, [ga+off] la=n (R157). -/
  | ldv (g : Guard) (la : BitVec 4) (d : Reg) (a : Src) (off : BitVec 15)
  /-- STV [ga+off], gb:gb+1 (R157). -/
  | stv (g : Guard) (a b : Src) (off : BitVec 15)
  /-- LDT gd, [ga+gb+off] la=n (R158). -/
  | ldt (g : Guard) (la : BitVec 4) (d : Reg) (a b : Src) (off : BitVec 15)
  /-- STT [ga+gb+off], gd (R158). -/
  | stt (g : Guard) (d : Reg) (a b : Src) (off : BitVec 15)
  /-- LD.acq.w.scope gd, [ga+off] (R155). -/
  | ldAcq (g : Guard) (w : LoadWidth) (sc : Scope) (d : Reg) (a : Src) (off : BitVec 15)
  /-- ST.rel.w.scope [ga+off], gb (R155). -/
  | stRel (g : Guard) (w : StoreWidth) (sc : Scope) (a b : Src) (off : BitVec 15)
  /-- AMO.op.w[.ord][.scope] gd, [ga], gb la=n (R159). -/
  | amo (g : Guard) (la : BitVec 4) (op : AmoOp) (wide : Bool) (ord : Order) (sc : Scope) (d : Reg) (a b : Src)
  /-- FENCE.ord.scope; order code 0 is sequentially consistent (R160). -/
  | fence (g : Guard) (ord : Order) (sc : Scope)
  /-- PREF.rd or PREF.wr [ga+off] (R161). -/
  | pref (g : Guard) (wr : Bool) (a : Src) (off : BitVec 15)
  /-- CLEAN.scope [ga], gb (R162). -/
  | clean (g : Guard) (sc : Scope) (a b : Reg)
  /-- INV.scope [ga], gb (R162). -/
  | inv (g : Guard) (sc : Scope) (a b : Reg)
  /-- DISCARD.scope [ga], gb (R162). -/
  | discard (g : Guard) (sc : Scope) (a b : Reg)
  -- Messages and tasks (R164 to R178)
  /-- SEND ga, gb, n + 1 (R165). -/
  | send (g : Guard) (n : BitVec 2) (a b : Src)
  /-- DEP ga, gm, gb (R166). -/
  | dep (g : Guard) (m : Reg) (a b : Src)
  /-- RECV gd:gd+3 (R170). -/
  | recv (g : Guard) (d : Reg)
  /-- QRED.t gd, ga la=n (R171). -/
  | qred (g : Guard) (la : BitVec 4) (t : RedKind) (d a : Reg)
  /-- RGET gd, pj:pj+1, ga, m, gb la=n (R173). -/
  | rget (g : Guard) (la : BitVec 4) (m : Reg) (pk : BitVec 2) (d : Reg) (a b : Src)
  /-- SPAWN gd, ga, gb (R174). -/
  | spawn (g : Guard) (d : Reg) (a b : Src)
  /-- QUIT (R175). -/
  | quit (g : Guard)
  /-- QUIT.done (R175). -/
  | quitDone (g : Guard)
  /-- MIG ga (R176). -/
  | mig (g : Guard) (a : Src)
  /-- SELF.f gd (R177). -/
  | self (g : Guard) (f : SelfFact) (d : Reg)
  /-- FSET with mask M (R178). -/
  | fset (g : Guard) (m : BitVec 8)
  /-- FCLR with mask M (R178). -/
  | fclr (g : Guard) (m : BitVec 8)
  -- Events (R211 to R221)
  /-- EVSND[.rel] ga, gb, gc (R213). -/
  | evsnd (g : Guard) (rel : Bool) (a b cc : Src)
  /-- EVARM[.rel] ga, gb, gc (R213). -/
  | evarm (g : Guard) (rel : Bool) (a b cc : Src)
  /-- EVSTEP gd, ga, gb (R216). -/
  | evstep (g : Guard) (d : Reg) (a b : Src)
  /-- EVRD.mem gd, ga (R217). -/
  | evrdMem (g : Guard) (d : Reg) (a : Src)
  /-- EVRD.step gd, ga (R217). -/
  | evrdStep (g : Guard) (d : Reg) (a : Src)
  /-- EVRD.late gd, ga (R217). -/
  | evrdLate (g : Guard) (d : Reg) (a : Src)
  /-- EVWR gd, ga, gb (R218). -/
  | evwr (g : Guard) (d : Reg) (a b : Src)
  /-- EVCFG gd, ga, gb (R221). -/
  | evcfg (g : Guard) (d : Reg) (a b : Src)
  /-- EVCFG.clr gd, ga, gb (R221). -/
  | evcfgClr (g : Guard) (d : Reg) (a b : Src)
  /-- FENCE.EV (R215). -/
  | fenceEv (g : Guard)
  -- Engine posts and tile handles (R179 to R193)
  /-- POST[.rel] gd, quadruple la=n (R179). -/
  | post (g : Guard) (la : BitVec 4) (rel : Bool) (d : Reg) (a : Src)
  /-- POSTW[.rel] gd, quadruple (R183). -/
  | postw (g : Guard) (rel : Bool) (d : Reg) (a : Src)
  /-- TALLOC gd, ga, gb (R191). -/
  | talloc (g : Guard) (d : Reg) (a b : Src)
  /-- TFREE gd, ga (R192). -/
  | tfree (g : Guard) (d : Reg) (a : Src)
  /-- TINFO gd, ga (R193). -/
  | tinfo (g : Guard) (d : Reg) (a : Src)
  -- System (R222 to R235)
  /-- TRAP n, ga (R223). -/
  | trap (g : Guard) (n : BitVec 4) (a : Src)
  /-- RESUME gd, ga (R224). -/
  | resume (g : Guard) (d : Reg) (a : Src)
  /-- CSRR gd, csr (R225). -/
  | csrr (g : Guard) (d : Reg) (num : BitVec 12)
  /-- CSRW gd, csr, ga (R225). -/
  | csrw (g : Guard) (d : Reg) (a : Src) (num : BitVec 12)
  /-- CSRS gd, csr, ga (R225). -/
  | csrs (g : Guard) (d : Reg) (a : Src) (num : BitVec 12)
  /-- CSRC gd, csr, ga (R225). -/
  | csrc (g : Guard) (d : Reg) (a : Src) (num : BitVec 12)
  /-- TLBINV.scope ga, gb (R230). -/
  | tlbinvRange (g : Guard) (sc : Scope) (a b : Src)
  /-- TLBINV.all.scope (R230). -/
  | tlbinvAll (g : Guard) (sc : Scope)
  /-- EVICT.l2 gd, ga (R231). -/
  | evictL2 (g : Guard) (d : Reg) (a : Src)
  /-- EVICT.mem gd, ga (R231). -/
  | evictMem (g : Guard) (d : Reg) (a : Src)
  /-- TIME gd (R232). -/
  | time (g : Guard) (d : Reg)
  /-- BKPT (R223). -/
  | bkpt (g : Guard)
  /-- LAUNCH gd, ga (R233, R341). -/
  | launch (g : Guard) (d : Reg) (a : Src)
  /-- CANCEL.launch gd, ga (R234, R346). -/
  | cancelLaunch (g : Guard) (d : Reg) (a : Src)
  /-- CANCEL.job gd, ga (R234, R346). -/
  | cancelJob (g : Guard) (d : Reg) (a : Src)
  /-- MASKCLR (R235). -/
  | maskclr (g : Guard)
  -- Engine commands (R194 to R210); `c` is the command word without its opcode (R78)
  /-- TLOAD (R196). -/
  | tload (c : CmdArgs)
  /-- TSTORE (R196). -/
  | tstore (c : CmdArgs)
  /-- TCOPY (R197). -/
  | tcopy (c : CmdArgs)
  /-- TGATHER (R197). -/
  | tgather (c : CmdArgs)
  /-- TSCADD (R197). -/
  | tscadd (c : CmdArgs)
  /-- TFILL (R198). -/
  | tfill (c : CmdArgs)
  /-- TTRANS (R198). -/
  | ttrans (c : CmdArgs)
  /-- POOL (R199). -/
  | pool (c : CmdArgs)
  /-- ROWADD (R200). -/
  | rowadd (c : CmdArgs)
  /-- EVSTREAM (R201). -/
  | evstream (c : CmdArgs)
  /-- MMA (R202). -/
  | mma (c : CmdArgs)
  /-- MMAG (R203). -/
  | mmag (c : CmdArgs)
  /-- QUANT (R209). -/
  | quant (c : CmdArgs)
  /-- DEQUANT (R210). -/
  | dequant (c : CmdArgs)
  /-- TADD (R205). -/
  | tadd (c : CmdArgs)
  /-- TSUB (R205). -/
  | tsub (c : CmdArgs)
  /-- TMUL (R205). -/
  | tmul (c : CmdArgs)
  /-- TMAX (R205). -/
  | tmax (c : CmdArgs)
  /-- TSCALE (R205). -/
  | tscale (c : CmdArgs)
  /-- TACT (R206). -/
  | tact (c : CmdArgs)
  /-- TROWRED (R207). -/
  | trowred (c : CmdArgs)
  /-- TSOFTMAX (R208). -/
  | tsoftmax (c : CmdArgs)
  -- Steps of the device (spec/opcode_table.json): each is one indivisible action; the arguments name the one it is and the choices the spec leaves open
  /-- The k-th running command of queue q of cluster c ends (R187). -/
  | engineCommandEnd (c q k : Nat)
  /-- The k-th bank request is performed (R212). -/
  | groupRequestAtBank (k : Nat)
  /-- The k-th handle-table request is applied, with the pick-th free entry (R272). -/
  | handleTableRequest (k pick : Nat)
  /-- The k-th request at a line's owner is answered (R224, R231, R173). -/
  | requestAtLineOwner (k : Nat)
  /-- The k-th range operation finishes its range or reaches a faulting page (R162). -/
  | rangeOperationEnd (k : Nat)
  /-- A claimed line arrives in the context L1 (R254). -/
  | contextL1Fill (c u sl : Nat)
  /-- A wake reaches a bulk lane (R384). -/
  | bulkLaneWake (ln : Nat)
  /-- A woken bulk lane comes up (R384). -/
  | bulkLanePowerUp (ln : Nat)
  /-- One plane of a die boundary reports link-down (R393). -/
  | linkPlaneDown (b pl : Nat)
  /-- Entry k of send buffer buf offers its command to its home queue (R179, R182). -/
  | commandAccept (buf k : Nat)
  /-- Entry k of send buffer buf may offer its command again (R179). -/
  | postRetry (buf k : Nat)
  /-- The gang sequencer of a die grants its k-th request a ticket (R277). -/
  | gangTicketGrant (die k : Nat)
  /-- Cluster c starts the slice in entry k of its gang lane (R278). -/
  | gangSliceStart (c k : Nat)
  /-- The slice in entry k of cluster c's gang lane ends (R280). -/
  | gangSliceEnd (c k : Nat)
  /-- A die's row-cache counters are halved (R373). -/
  | rowCacheHalving (die : Nat)
  /-- The k-th result in flight lands in its line (R81). -/
  | lineWrite (k : Nat)
  /-- The k-th load in flight finds a fault (R152). -/
  | deferredFault (k : Nat)
  /-- The k-th load in flight finds a remote TRV home (R152). -/
  | loadRemoteHome (k : Nat)
  /-- The k-th load in flight returns uncorrectable data (R154). -/
  | poisonedData (k : Nat)
  /-- The context at issue takes its replay marker (R153). -/
  | replayReissue
  /-- Cluster c's SFU completes the request at the head of its queue (R147). -/
  | sfuComplete (c : Nat)
  /-- The k-th held SFU entry of cluster c is released (R147). -/
  | sfuHoldExpire (c k : Nat)
  /-- The k-th divide in flight delivers its result (R142). -/
  | divideComplete (k : Nat)
  /-- The k-th running reduction pops a message (R171). -/
  | reducerPop (k : Nat)
  /-- The context at issue restarts its stopped reduction (R172). -/
  | qredRestart
  /-- The fetch of the word at the PC of the context at issue fails (R128). -/
  | fetchFault
  /-- The word awaited by a context of wait kind 7 is available (R120). -/
  | fetchArrive (key : Nat)
  /-- The k-th ordering in flight completes (R160). -/
  | orderingComplete (k : Nat)
  /-- Entry k of send buffer buf reaches its target's owner with a message (R167). -/
  | messageDelivery (buf k : Nat)
  /-- Entry k of send buffer buf reaches its target's owner with a deposit (R81). -/
  | depositDelivery (buf k : Nat)
  /-- Entry k of send buffer buf may be offered again (R167). -/
  | sendRetry (buf k : Nat)
  /-- A context of wait kind 9 has reached its time (R122). -/
  | timeWaitExpire (key : Nat)
  /-- The time-out of the k-th request at a line's owner passes (R173). -/
  | rgetTimeout (k : Nat)
  /-- An empty or waiting slot selects (R354). -/
  | slotSelect (c u sl : Nat)
  /-- A claim of a slot reaches a line's owner (R255). -/
  | claim (key c u sl : Nat)
  /-- The incoming line of a slot is loaded (R254). -/
  | swapLoad (c u sl : Nat)
  /-- Cluster c moves the head of its backlog ring into its context L2 (R259). -/
  | backlogFill (c : Nat)
  /-- A line in transit is accepted at its destination (R260). -/
  | arrivalAccept (key : Nat)
  /-- Entry k of list cls of cluster c has waited 4,096 turns more (R353). -/
  | agingStep (c cls k : Nat)
  /-- The k-th spawn request is served at its home (R342). -/
  | spawnRequest (k : Nat)
  /-- Entry k of send buffer buf reaches its bank with an event (R316). -/
  | eventAccept (buf k : Nat)
  /-- The k-th bank request, an EVSTEP, reaches its bank (R216, R319). -/
  | stepClose (k : Nat)
  /-- A bank clears a group whose table entry changed (R313). -/
  | groupClear (gk : Nat)
  /-- A switch merges two EVSND requests (R330, R383). -/
  | eventMerge (buf1 k1 buf2 k2 : Nat)
  /-- A switch merges two AMO.ADD requests (R382). -/
  | amoMerge (k1 k2 : Nat)
  /-- An injection port refills its token buckets (R357). -/
  | tokenRefill (die port : Nat)
  /-- A switch idle for 512 cycles powers down (R384). -/
  | switchPowerDown (sw : Nat)
  /-- A wake reaches a switch (R384). -/
  | switchWake (sw : Nat)
  /-- A woken switch comes up (R384). -/
  | switchPowerUp (sw : Nat)
  /-- A bulk lane idle for 4,096 cycles powers down (R384). -/
  | bulkLanePowerDown (ln : Nat)
  /-- A flit of a lane fails its CRC and is resent (R379). -/
  | linkCrcError (ln : Nat)
  /-- A lane that fails repeatedly is retired (R379). -/
  | laneRetire (ln : Nat)
  /-- Every link plane toward a die reports link-down (R385). -/
  | allLinksDown (die : Nat)
  /-- A Duset port loses its link (R405). -/
  | dusetLinkLoss (die port : Nat)
  /-- Neriup: quiesce and drain a die; the deadline in ns (R388). -/
  | dieReset (die deadline : Nat)
  /-- A drain ends with nothing outstanding (R388). -/
  | dieDrainEnd (die : Nat)
  /-- A drain's deadline expires (R388). -/
  | dieDrainDeadline (die : Nat)
  /-- A reset die rejoins with these READY bits (R388). -/
  | dieRejoin (die : Nat) (ready : BitVec 7)
  /-- Neriup: map a cluster out (R394, R402). -/
  | mapOutCluster (c : Nat)
  /-- Neriup: retire an HBM channel (R394, R402). -/
  | retireHbmChannel (die ch : Nat)
  /-- Neriup: return the counters (R402). -/
  | readCounters (asid : BitVec 12)
  /-- Neriup: return the copies of the error records (R402). -/
  | readErrorRecords
  /-- Neriup: return the bring-up parameters (R402). -/
  | readBringupParameters
  /-- Neriup: set the power limit (R402). -/
  | setPowerLimit (w : BitVec 12)
  /-- Neriup: enrol a key pair under a command that is itself signed (R400). -/
  | enrolKeyPair (pair : KeyPair) (signed : Signed)
  /-- Neriup: withdraw a key pair (R400). -/
  | withdrawKeyPair (pair : KeyPair) (signed : Signed)
  /-- Neriup: attest (R403). -/
  | attest (nonce : BitVec 256)
  /-- A host write to a submission window (R347). -/
  | submissionWrite (port : Nat) (asid : BitVec 12) (data : BitVec 512)
  /-- A host write with a zero handle (R348). -/
  | startRequest (port : Nat) (asid : BitVec 12) (data : BitVec 512)
  /-- A host read (none) or write of one byte of device memory (R396). -/
  | hostHdmAccess (pa : Nat) (w : Option (List Byte))
  /-- A write of TRAP_RING (R228). -/
  | trapRingWrite (asid : BitVec 12) (v : Word)
  /-- A write of SECVER_FUSE (R401). -/
  | secverFuseWrite (v : Word)
  /-- A write of ARRIVAL_LIMIT of a cluster (R229). -/
  | arrivalLimitWrite (c : Nat) (v : Word)
  /-- A write of TENANT_WEIGHT (R356). -/
  | tenantWeightWrite (asid : BitVec 12) (v : Word)
  /-- ECC corrects an error at a location of a structure (R390). -/
  | correctedError (die st loc : Nat)
  /-- The location's eighth correction (R390). -/
  | recurringCorrectedError (die st loc : Nat)
  /-- Scrubbing finds uncorrectable data (R390). -/
  | scrubUncorrectable (pa : Nat)
  /-- The 100 µs average exceeds the limit (R404). -/
  | powerAlarmRise (power : BitVec 16)
  /-- The 1 ms average has stayed below 95% of the limit (R404). -/
  | powerAlarmClear (power : BitVec 16)
  /-- Cold reset (R14). -/
  | coldReset
  /-- Every live die's tick counter increases by one (R14). -/
  | timeBaseTick
  /-- The boot ROM verifies stage 1 (R399). -/
  | bootStage0 (img : Image)
  /-- Neriup firmware verifies stage 2 of every live die, and brings up the CXL ports that have trained; with no image, ports that train
  later (R397, R399). -/
  | bootStage1 (imgs : List Image) (cxl : BitVec 2)
  /-- Die firmware brings up functions of its die, with the bring-up parameters where they are not fixed yet, and maps out what is unfit;
  `duset` says that every Duset port has trained (R394, R397 to R399). -/
  | bootStage2 (die : Nat) (ready : BitVec 7) (boot : DieBoot) (duset : Bool)
  deriving DecidableEq, Repr

end Sys2Proof
end

