-- ==== Sys2Proof/Machine/State.lean ====
section
/-! DEFINITION. The state of the CZ-4: plain data, and all of it. Every piece of state that the spec gives the machine is a field
here; `INVENTORY.md` lists them with their rules and reset values. -/

namespace Sys2Proof.Machine

/-! ### The context line (R243 to R247) -/

/-- STATE of the status word (R244). -/
inductive CState where
  | free | ready | running | waiting | parked | trapped | retired | inTransit
  deriving DecidableEq, Repr

/-- The status word (R244). -/
structure Status where
  state : CState
  dies : BitVec 4
  full : BitVec 8
  pend : BitVec 8
  larem : BitVec 4
  cls : BitVec 2
  priv : BitVec 2
  trapcode : BitVec 8
  valid : Bool
  die : BitVec 2
  cluster : BitVec 6
  unit : BitVec 2
  slot : BitVec 3
  roam : Bool
  queued : Bool
  qkind : BitVec 2
  qacc : BitVec 3
  qcnt : BitVec 3
  deriving DecidableEq, Repr

/-- The 128 bytes of a context line (R243). -/
structure Ctx where
  g : Vector Word 8
  pc : VAddr
  p : Vector (BitVec 16) 8
  waitKind : BitVec 4
  waitObj : BitVec 60
  st : Status
  gen : BitVec 14
  asid : BitVec 12
  launch : BitVec 32
  /-- Bits [56:9] of the inbox word. -/
  inboxBase : BitVec 48
  inboxCount : BitVec 5
  inboxHead : BitVec 4
  floor : Word
  deriving DecidableEq, Repr

/-- Where a line lives: its owner (R248). -/
inductive Place where
  | slot (c u s : Nat)
  | l1 (c u : Nat)
  | l2 (c : Nat)
  | arrival (c : Nat)
  | transit (dest : Nat)
  /-- Claimed from elsewhere, crossing to the slot that claimed it under the ownership of its home slice (R255, R261). -/
  | toSlot (c u s : Nat)
  /-- Claimed within its own cluster, on its way to the context L1 of the slot that claimed it (R254). -/
  | toL1 (c u s : Nat)
  | memory
  deriving DecidableEq, Repr

/-- A fault found after issue, kept until the context's next instruction boundary (R152, R154, R387, R407). -/
structure Deferred where
  code : BitVec 8
  /-- The wait object that the trap leaves under kind 15; none for a zero wait word. -/
  obj : Option (BitVec 60)
  /-- The faulting virtual address. -/
  va : VAddr
  /-- The address of the access, and its word. -/
  pc : VAddr
  word : Word
  detail : Word
  /-- A remote TRV home instead of a fault: the context travels to this cluster. -/
  dest : Option Nat
  deriving DecidableEq, Repr

/-- A release that a written value carries: its time, its scope and its issuing place (R286, R305). -/
structure Tag where
  time : Word
  scope : Scope
  cluster : Nat
  /-- A device message, which RECV acquires (R296). -/
  auto : Bool
  /-- The context that made it, by name, and the number of the release among its operations: what stands before it is released (R295). -/
  who : Option Nat
  seq : Nat
  deriving DecidableEq, Repr

/-- A live context line with what the machinery around it keeps for it. -/
structure Line where
  c : Ctx
  /-- The line number by which the ASID names it (R25). -/
  lnum : BitVec 50
  place : Place
  /-- When it last issued, for R257. -/
  issued : Nat
  /-- One above the fabric cycle in which a deposit or a long-latency result was last applied to it in its slot (R63). -/
  landed : Nat
  /-- It came from a pool or a start request; a line that R169 let a request act on without that stays ordinary memory (R246). -/
  live : Bool
  /-- The address of the instruction that set the PC, and whether it was a taken transfer (R128, R129). -/
  src : VAddr
  jumped : Bool
  /-- The marked instruction that issues next, once its marker is cleared (R153). -/
  reissue : Option VAddr
  fault : Option Deferred
  /-- A restarted reduction runs: nothing issues until it has written back (R172). -/
  redo : Bool
  /-- The address and the word of the QRED whose reduction runs or is stopped (R407). -/
  qred : VAddr × Word
  /-- What a wait waits for where its kind does not say: the registers of kind 1 (R62, R122) and those of kind 8 (R69, R171, R172);
  for kind 4, 1 when every request must be acknowledged (R175) and 0 when a send-buffer entry must be free (R167). -/
  watch : BitVec 8
  /-- The cluster the line leaves for once its requests are acknowledged, with the wait object it will hold (R151, R176). -/
  goTo : Option (Nat × BitVec 60)
  /-- Dies fenced since the last action at a line that is in neither a slot nor a cache (R387). -/
  lost : BitVec 4
  /-- A CANCEL retires the context at its next boundary (R234). -/
  cancelled : Bool
  /-- One above the fabric cycle in which it was marked so: an issue in that cycle does not see the mark (R63). -/
  marked : Nat
  /-- The fabric cycle in which its last turn in a slot ends: until then no run list holds it and no slot claims it (R123, R249). -/
  out : Nat
  /-- The releases of the FENCEs with release at each scope, carried by later writes (R295, R305). -/
  fenceTags : List Tag
  /-- The releases that earlier plain reads met, which a FENCE with acquire takes (R296). -/
  heard : List Tag
  /-- The deposits that stand in its registers: register, value and the releases that came with it (R301). -/
  deps : List (Nat × Word × List Tag)
  /-- The number of the first operation since the line last came to another cluster: earlier accesses are ordered before it (R300). -/
  moved : Nat
  /-- The time that the next issue acquires: of the SPAWN, the RESUME or the start request that made the context READY (R296). -/
  onIssue : Option Word
  /-- The name of a new context's parent and the number of its SPAWN: what the parent did before it is ordered before the context's first
  instruction (R174). -/
  after : Option (Nat × Nat)
  deriving DecidableEq, Repr

/-! ### Slots, run lists, scheduling (R253 to R263, R353 to R355) -/

/-- A slot that holds or awaits a line. -/
structure SlotRec where
  /-- The physical line number of the line in the slot. -/
  line : Option Nat
  /-- A line claimed for the slot and not yet loaded. -/
  coming : Option Nat
  /-- The age its line had when it was claimed (R353). -/
  age : Nat
  /-- The age that the line on its way to it had when it was claimed. -/
  next : Nat
  /-- One above the fabric cycle in which the slot last had its issue cycle, and last selected; 0 before it had one (R253, R254). -/
  turn : Nat
  chosen : Nat
  /-- The line that a claim of the slot is on its way to (R255, R355). -/
  asking : Option Nat
  /-- The issue cycle in which the swap to the coming line began (R254). -/
  swap : Option Nat
  /-- The operation number at which its last issue cycle began, and one above the cycle in which a line last left it (R249, R250). -/
  seq : Nat
  freed : Nat
  deriving DecidableEq, Repr

/-- A slot that holds no line and has had no cycle. -/
def SlotRec.empty : SlotRec := { line := none, coming := none, age := 0, next := 0, turn := 0, chosen := 0, asking := none, swap := none, seq := 0, freed := 0 }

/-- An entry of a run list (R353): its line, the age with which it enters the list, and the fabric cycle in which it does: for a context that has
given up its slot, the end of its turn (R123). -/
structure RunEntry where
  line : Nat
  age : Nat
  from_ : Nat
  deriving DecidableEq, Repr

/-! ### Memory (R285 to R305) -/

/-- The attribute of a page (R288). -/
inductive Attr where
  | coh | swc | prv | trv
  deriving DecidableEq, Repr

/-- A leaf translation of one ASID (R25, R288): pages of `size` bytes, aligned, with their permissions. -/
structure Page where
  asid : BitVec 12
  va : Nat
  size : Nat
  pa : Nat
  attr : Attr
  home : Nat
  r : Bool
  w : Bool
  x : Bool
  /-- Supervisor contexts may write even where user contexts may not (R222). -/
  sw : Bool
  deriving DecidableEq, Repr

/-- A die copy of an SWC line (R289): its bytes, which of them are dirty, which of its two 64-byte units are uncorrectable (R391), and
the releases that its bytes carry, by their place in the line (R297). -/
structure DieCopy where
  data : BitVec 1024
  dirty : BitVec 128
  bad : BitVec 2
  tags : SMap (List Tag)
  deriving DecidableEq, Repr

/-- A store issued and not yet performed (R155, R156, R293). -/
structure Store where
  /-- The context, by name: it may have retired. -/
  who : Nat
  seq : Nat
  asid : BitVec 12
  cluster : Nat
  /-- Which bytes lie in SWC pages. -/
  swc : List Bool
  rel : Bool
  scope : Scope
  tags : List Tag
  pas : List Nat
  bytes : List Byte
  /-- The bits of each byte that are written: all of them but for an STT of a T6 element (R158). -/
  mask : List Byte
  deriving DecidableEq, Repr

/-! ### Operations in flight -/

/-- What a load or atomic reads and does (R155 to R159). -/
inductive AccessKind where
  | ld (w : LoadWidth)
  | ldv
  | ldt (fmt pos : Nat)
  | acq (w : LoadWidth)
  | amo (op : AmoOp) (wide : Bool) (b cmp : Word)
  deriving DecidableEq, Repr

/-- A load or atomic whose value is not fixed yet (R155, R159). -/
structure Access where
  kind : AccessKind
  va : VAddr
  pc : VAddr
  word : Word
  asid : BitVec 12
  priv : BitVec 2
  cluster : Nat
  acq : Bool
  rel : Bool
  scope : Scope
  /-- The physical bytes once translated (R150). -/
  pas : Option (List Nat)
  swc : List Bool
  /-- The releases that an AMO's write carries, its own among them. -/
  tags : List Tag
  /-- AMO requests merged in the Armature into this one (R382): operation number and operand. -/
  merged : List (Nat × Word)
  deriving DecidableEq, Repr

/-- A masked register write: register, value, written bits. -/
abbrev RegWrite := Nat × Word × Word

/-- What a result in flight delivers. -/
inductive PendWhat where
  | value (writes : List RegWrite) (pred : Option (BitVec 2 × Bool))
  | access (a : Access)
  deriving DecidableEq, Repr

/-- A result in flight to a context line (R81). -/
structure Pending where
  line : Nat
  /-- The pending bits it clears. -/
  clear : BitVec 8
  what : PendWhat
  /-- It also ends a wait of kind 3. -/
  wake : Bool
  /-- The time that receiving it acquires (R305). -/
  tag : Option Tag
  seq : Nat
  deriving DecidableEq, Repr

/-- A request in a cluster's SFU queue (R147). -/
structure SfuReq where
  line : Nat
  writes : List RegWrite
  clear : BitVec 8
  seq : Nat
  deriving DecidableEq, Repr

/-- A cluster's SFU (R147). -/
structure Sfu where
  queue : List SfuReq
  /-- Freed entries held for an issue unit, with the cycle they freed in. -/
  held : List (Nat × Nat)
  /-- Issue units recorded as refused. -/
  refused : List Nat
  deriving DecidableEq, Repr

/-- A divide or root in flight (R142). -/
structure DivReq where
  line : Nat
  d : Nat
  value : Word
  cluster : Nat
  unit : Nat
  seq : Nat
  deriving DecidableEq, Repr

/-- A reduction running in an issue unit's reducer (R171). -/
structure Reduction where
  line : Nat
  kind : RedKind
  acc : Word
  cnt : Nat
  dreg : Nat
  areg : Nat
  pc : VAddr
  word : Word
  seq : Nat
  deriving DecidableEq, Repr

/-- What an ordering in flight waits for (R160, R215, R230, R235). -/
inductive OrderKind where
  | fence (ord : Order) (scope : Scope)
  | fenceEv
  | tlbinv (scope : Scope) (lo hi : Nat)
  | maskclr
  deriving DecidableEq, Repr

/-- An ordering in flight. -/
structure OrderReq where
  line : Nat
  kind : OrderKind
  pc : VAddr
  asid : BitVec 12
  cluster : Nat
  seq : Nat
  deriving DecidableEq, Repr

/-- The three range operations (R162). -/
inductive RangeKind where
  | clean | inv | discard
  deriving DecidableEq, Repr

/-- A range operation in progress (R162). -/
structure RangeReq where
  line : Nat
  kind : RangeKind
  scope : Scope
  areg : Nat
  breg : Nat
  cluster : Nat
  pc : VAddr
  word : Word
  seq : Nat
  deriving DecidableEq, Repr

/-- A request at a line's owner (R173, R224, R231). -/
inductive OwnerWhat where
  | rget (m : Nat) (pk : BitVec 2) (ticks : Nat)
  | resume
  | evict (toMem : Bool)
  deriving DecidableEq, Repr

/-- A request on its way to a line's owner. -/
structure OwnerReq where
  what : OwnerWhat
  /-- For an RGET that has reached its target's owner and waits there: the tick up to which it waits (R173). -/
  until_ : Option Nat
  asid : BitVec 12
  handle : Word
  d : Nat
  line : Nat
  die : Nat
  seq : Nat
  deriving DecidableEq, Repr

/-- A request at a Churn bank (R212, R216 to R221). -/
inductive BankWhat where
  | step (S : BitVec 32)
  | rdMem | rdStep | rdLate
  | wr (v : Word)
  | cfg (rec : BitVec 256) (clr : Bool)
  deriving DecidableEq, Repr

/-- A request on its way to a bank. -/
structure BankReq where
  what : BankWhat
  addr : BitVec 32
  asid : BitVec 12
  d : Nat
  line : Nat
  seq : Nat
  deriving DecidableEq, Repr

/-- A request at a handle table (R191 to R193). -/
inductive HandleWhat where
  | alloc (shape : Word) (cluster : Nat)
  | release (h : BitVec 32)
  | info (h : BitVec 32)
  deriving DecidableEq, Repr

/-- A request on its way to a handle table. -/
structure HandleReq where
  what : HandleWhat
  asid : BitVec 12
  d : Nat
  line : Nat
  seq : Nat
  deriving DecidableEq, Repr

/-- An event, or several merged in the Armature (R315, R330). -/
structure Ev where
  addr : BitVec 32
  value : BitVec 48
  step : BitVec 32
  asid : BitVec 12
  arm : Bool
  rel : Bool
  /-- The number of events it holds. -/
  count : Nat
  /-- The time its release carries (R305). -/
  time : Word
  deriving DecidableEq, Repr

/-- What a completion reports (R184). -/
structure CmdInfo where
  cop : BitVec 8
  status : Nat
  flags : BitVec 8
  skim : Nat
  asid : BitVec 12
  ckind : BitVec 2
  /-- The home handle, or the owner's cluster number. -/
  home : BitVec 32
  /-- The home cluster, 255 when not queued. -/
  cluster : Nat
  queue : Nat
  seq : BitVec 32
  ctgt : Word
  w0 : Word
  deriving DecidableEq, Repr

/-- Who sends a message (R164). -/
inductive MsgSrc where
  | context
  | completion (i : CmdInfo)
  | wakeFire (addr : BitVec 32) (v : BitVec 32) (step : BitVec 32)
  | trapNotice
  | submission
  | notice
  deriving DecidableEq, Repr

/-- Who sends an event. -/
inductive EvSrc where
  | context
  | completion (i : CmdInfo)
  | device
  /-- The event of a CANCEL.job to its job's accumulator: the CANCEL of that number waits for it (R234, R346). -/
  | cancel (seq : Nat)
  /-- A pin event of a POOL or ROWADD: cluster and command (R366). -/
  | pin (c id : Nat)
  /-- An event of an EVSTREAM: cluster and command (R201). -/
  | stream (c id : Nat)
  deriving DecidableEq, Repr

/-- What a send-buffer entry holds (R167, R179, R214). -/
inductive SendWhat where
  | msg (h w0 w1 w2 w3 : Word) (n : Nat) (src : MsgSrc)
  | dep (h : Word) (m : Nat) (v : Word)
  | event (e : Ev) (src : EvSrc)
  | post (cmd : BitVec 256) (d : Nat) (wait : Bool)
  /-- The undeliverable notice that the entry appends to its sender's own inbox (R168). -/
  | notice (w0 w1 w2 w3 : Word)
  deriving DecidableEq, Repr

/-- An entry of a send buffer. -/
structure SendEntry where
  id : Nat
  what : SendWhat
  line : Option Nat
  asid : BitVec 12
  /-- The address of the instruction. -/
  pc : VAddr
  tags : List Tag
  /-- The cycle before which a refused request is not offered again, none while it may be offered (R167). -/
  hold : Option Nat
  /-- Entries whose events were merged into this one (R330): buffer and entry identity. -/
  merged : List (Nat × Nat)
  /-- A command that CANCEL has discarded before a queue has taken it (R234, R346). -/
  void : Bool := false
  deriving DecidableEq, Repr

/-! ### Engines and tiles (R179 to R210, R267 to R284) -/

/-- A handle-table entry and its tile (R271): elements by row × 256 + column, absent ones zero. -/
structure Tile where
  live : Bool
  gen : BitVec 12
  asid : BitVec 12
  fmt : Nat
  block : Nat
  pitch : Nat
  cols : Nat
  rows : Nat
  /-- Its granules in the Vat, in the order in which its bytes are laid across them (R267). -/
  granules : List Nat
  data : SMap Nat
  scales : SMap (BitVec 8)
  /-- The 64-byte units of the tile's bytes, its scale plane after its rows, that hold uncorrectable data (R391). -/
  bad : List Nat
  deriving DecidableEq, Repr

/-- A tile by its handle-table key and its generation. -/
abbrev TileRef := Nat × BitVec 12

/-- A freed tile that running commands still hold (R271). -/
structure Held where
  ref : TileRef
  tile : Tile
  deriving DecidableEq, Repr

/-- A command accepted by a queue (R180, R188). -/
structure QEntry where
  id : Nat
  seq : BitVec 32
  cmd : BitVec 256
  asid : BitVec 12
  /-- The context that waits for the completion of a POSTW and its register (R183). -/
  poster : Option (Nat × Nat)
  /-- The launch slot of the poster (R346). -/
  slot : BitVec 12
  tag : Option Tag
  /-- CANCEL has discarded it: it completes with status 10 when its turn to start comes (R187). -/
  cancelled : Bool
  deriving DecidableEq, Repr

/-- A write that a running command makes at its end: elements by row × 256 + column, scale bytes by row × 256 + block. -/
inductive Effect where
  | elems (ref : TileRef) (l : List (Nat × Nat))
  | scales (ref : TileRef) (l : List (Nat × BitVec 8))
  | mem (swc : List Bool) (pas : List Nat) (bytes : List Byte)
  deriving DecidableEq, Repr

/-- Where a slice of a gang is (R277, R278, R280). -/
inductive SlicePhase where
  | waits | started | ended
  deriving DecidableEq, Repr

/-- A member's slice of a gang (R277 to R280). -/
structure Slice where
  cluster : Nat
  a : TileRef
  b : TileRef
  c : TileRef
  phase : SlicePhase
  status : Nat
  w0 : Word
  /-- Information flags: HALF and SAT (R186). -/
  flags : Nat
  deriving DecidableEq, Repr

/-- The gang of a started MMAG. -/
structure Gang where
  ticket : Option Nat
  rows : Nat
  cols : Nat
  m : Nat
  n : Nat
  k : Nat
  zero : Bool
  /-- By gang row × columns + gang column. -/
  slices : List Slice
  /-- The A tiles that have been read and broadcast, by gang row, and the B tiles, by gang column (R279). -/
  aCast : SMap Tile
  bCast : SMap Tile
  deriving DecidableEq, Repr

/-- Where a POOL or ROWADD is with its pin (R366). -/
inductive BagPhase where
  /-- The +1 to the drain member of the version at this address is on its way. -/
  | plus (v : Nat)
  /-- It is accepted, and the current-version word is to be read again. -/
  | check (v : Nat)
  /-- The −1 that withdraws a +1 is on its way. -/
  | minus
  /-- It is accepted, and the next pass is to begin. -/
  | again
  /-- The version is pinned. -/
  | pinned (v : Nat)
  /-- The command stops with a status and a result word; a version that it has pinned is still to be given up. -/
  | stopped (status : Nat) (w0 : Word) (v : Option Nat)
  deriving DecidableEq, Repr

/-- A running POOL or ROWADD (R199, R200, R366). -/
structure Bag where
  phase : BagPhase
  /-- The table descriptor's 128 bytes, and those of the version record that was read last. -/
  desc : List Byte
  record : List Byte
  /-- Row 0 of HA, and of HB where it is a tile. -/
  a : List Nat
  b : List Nat
  aFmt : Nat
  /-- The time that its reads have acquired (R305, R366). -/
  floor : Word
  deriving DecidableEq, Repr

/-- A command that has started and whose completion has not been delivered (R187, R188). -/
structure Run where
  e : QEntry
  /-- The operation number of its start. -/
  start : Nat
  info : CmdInfo
  reads : List TileRef
  writes : List TileRef
  effects : List Effect
  /-- The number of its writes that are made already. -/
  made : Nat
  /-- Events sent and not yet answered, with the counts of those accepted and refused (R201). -/
  waiting : Nat
  good : Nat
  refused : Nat
  gang : Option Gang
  bag : Option Bag
  /-- Its writes are made; its completion waits for those of earlier commands (R188). -/
  ended : Bool
  deriving DecidableEq, Repr

/-- An entry of a gang lane (R277): its ticket, the home cluster and command of its gang, the member's index, and the operation number
at which the slice arrived; none while the entry is reserved and its slice on the way (R278). -/
structure LaneEntry where
  ticket : Nat
  home : Nat
  cmd : Nat
  index : Nat
  arrival : Option Nat
  deriving DecidableEq, Repr

/-- A die's gang sequencer (R277). -/
structure Sequencer where
  next : Nat
  /-- Requests in order: fabric cycle, home cluster and command. -/
  requests : List (Nat × Nat × Nat)
  deriving DecidableEq, Repr

/-- A row held by a die's row cache (R373). -/
structure RowEntry where
  pa : Nat
  lines : Nat
  counter : Nat
  last : Nat
  deriving DecidableEq, Repr

/-- A die's row cache (R373). -/
structure RowCache where
  rows : List RowEntry
  hits : Nat
  refs : Nat
  /-- A halving is due before the next reference. -/
  due : Bool
  deriving DecidableEq, Repr

/-! ### The Churn (R311 to R331) -/

/-- A member of a group (R311), with the latest times of the releases that it has integrated and not fired (R303, R305). -/
structure Member where
  v : BitVec 32
  sum : BitVec 48
  refr : BitVec 8
  armed : Bool
  armin : Bool
  /-- The releases integrated since the last fire. -/
  time : Word
  /-- The releases in the current step of a STEPPED group. -/
  timeIn : Word
  deriving DecidableEq, Repr

/-- A calendar entry (R318). -/
structure CalEntry where
  m : Nat
  step : BitVec 32
  sum : BitVec 48
  arm : Bool
  count : Nat
  time : Word
  deriving DecidableEq, Repr

/-- A group (R311): the bank's copy of its group-table entry, its configuration record and its state. -/
structure Group where
  owner : Option (BitVec 12)
  cfg : BitVec 256
  S : BitVec 32
  late : BitVec 32
  logn : BitVec 32
  members : SMap Member
  cal : List CalEntry
  deriving DecidableEq, Repr

/-- What a bank still has to do in the action at hand (R319, R325). -/
inductive BankWork where
  /-- An event for the bank itself is accepted; the group named is closing its step (R307). -/
  | event (closing : Option Nat) (e : Ev)
  /-- A member of a group that is closing its step for an ASID is closed. -/
  | member (gk : Nat) (asid : BitVec 12) (m : Nat)
  /-- The step of the group advances. -/
  | advance (gk : Nat)
  /-- The context that asked for it takes its answer. -/
  | answer (line d : Nat) (v : Word)
  /-- The sender of the event that began the action has its acknowledgement or its refusal: entry `e` of send buffer `buf`. -/
  | accepted (buf : Nat) (e : SendEntry) (src : EvSrc) (ok : Bool)
  deriving DecidableEq, Repr

/-! ### Launches (R336 to R352) -/

/-- A live launch (R340, R341). -/
structure Launch where
  asid : BitVec 12
  job : Nat
  jobacc : BitVec 32
  maq : Nat
  work : Nat
  /-- The group of member 0 of L. -/
  group : Nat
  /-- The groups of the launch, with the node of each dependence group. -/
  groups : List (Nat × Nat)
  /-- The instances of each node. -/
  insts : List Nat
  cancelled : Bool
  /-- It was cancelled by CANCEL.job (R344). -/
  byJob : Bool
  deriving DecidableEq, Repr

/-- Who makes a spawn request. -/
inductive SpawnOrigin where
  | launch | fire | host
  deriving DecidableEq, Repr

/-- A spawn request (R342, R348). -/
structure SpawnReq where
  asid : BitVec 12
  /-- The home cluster, or none for a home chosen when it is served (HMODE 2). -/
  home : Option Nat
  issuer : Nat
  entry : VAddr
  regs : List Word
  cls : BitVec 2
  priv : BitVec 2
  roam : Bool
  launch : BitVec 32
  floor : Word
  dies : BitVec 4
  /-- The firing member and its value, for error records. -/
  addr : BitVec 32
  v : BitVec 32
  step : BitVec 32
  /-- The launch slot whose events a dropped request posts, with node and instance (R342). -/
  acct : Option (Nat × Nat × Nat)
  origin : SpawnOrigin
  /-- The operation number of the request. -/
  id : Nat
  deriving DecidableEq, Repr

/-- A maquette node as its eight words (R336). -/
structure Node where
  w : List Nat
  deriving DecidableEq, Repr

/-- A LAUNCH whose job's +1 is on its way: its context waits, and its spawn requests are queued once the event is acknowledged (R341). -/
structure LaunchWait where
  line : Nat
  d : Nat
  cluster : Nat
  asid : BitVec 12
  slot : Nat
  /-- The send-buffer entry of the event. -/
  event : Nat
  time : Word
  /-- The instances with no dependence: node number, node, instance. -/
  roots : List (Nat × Node × Nat)
  deriving DecidableEq, Repr

/-- A CANCEL in progress (R346). -/
structure CancelReq where
  line : Nat
  d : Nat
  asid : BitVec 12
  cluster : Nat
  /-- Launch slots whose contexts have not all retired. -/
  retiring : List Nat
  /-- Launch slots that have been sent their last event and have not completed. -/
  firing : List Nat
  byJob : Bool
  /-- The event to the job's accumulator has been sent. -/
  sent : Bool
  jobacc : BitVec 32
  /-- What gd takes: 1 when the launch completed before the CANCEL reached its bank. -/
  result : Word
  seq : Nat
  deriving DecidableEq, Repr

/-! ### ASIDs, fabric, management -/

/-- The control registers of one ASID (R226 to R228, R356). -/
structure AsidRegs where
  profile : BitVec 4
  handler : Word
  undeliv : Word
  refused : Word
  ringBase : BitVec 45
  ringSize : BitVec 5
  ringHead : BitVec 32
  ringTail : BitVec 32
  ringOver : Word
  quota : BitVec 11
  weight : BitVec 16
  deriving DecidableEq, Repr

/-- A token bucket set of one injection port (R357). -/
structure Port where
  buckets : SMap Nat
  active : List Nat
  /-- The ASID that began the previous interval's remainder. -/
  last : Nat
  /-- One above the fabric cycle of its last refill. -/
  filled : Nat
  deriving DecidableEq, Repr

/-- The power state of a switch or a bulk lane (R384): up, its idle count having last been 0 in a fabric cycle, and passing flits from
another on; down, by a decision in a cycle; or coming up in a cycle. -/
inductive PowerState where
  | up (since from_ : Nat)
  | down (decided : Nat)
  | waking (at_ : Nat)
  deriving DecidableEq, Repr

/-- A lane of a link plane (R379). -/
structure Lane where
  power : PowerState
  errors : Nat
  retired : Bool
  deriving DecidableEq, Repr

/-- A die's part in resets (R385 to R388). -/
structure DieState where
  present : Bool
  /-- Lost: fenced and not rejoined. -/
  lost : Bool
  /-- Draining: its deadline in ticks, and the number of the first operation that is new since its quiesce (R388). -/
  drain : Option (Nat × Nat)
  /-- It was lost by link-down since the last cold reset (R394). -/
  linkLost : Bool
  deriving DecidableEq, Repr

/-- A signature block (R95): the digests of two public keys, and the two signatures. -/
structure SigBlock where
  pair : KeyPair
  rsaSig : BitVec 3072
  slhSig : BitVec 129792
  deriving DecidableEq, Repr

/-- A reply of Neriup (R402, R403). -/
inductive Reply where
  | ok
  /-- With an error code (R402). -/
  | refused (code : Nat)
  /-- ECC counters; for each die the hits and references of its row cache and the counter of each slot it holds; UNDELIV_COUNT and
  EV_REFUSED of the ASID. -/
  | counters (ecc : List (Nat × Nat)) (rows : List (Nat × Nat × List (Nat × Nat))) (undeliv refused : Word)
  | records (l : List (List Word))
  | parameters (gt pt err sub : Nat) (areas : List (Nat × Nat))
  /-- The items of an attestation report (R403) and its signature block (R95). -/
  | report (nonce : BitVec 256) (images : List (BitVec 384)) (keys : List KeyPair) (version : BitVec 32) (ready : Word) (block : SigBlock)
  | bootFailed (stage status : Nat)
  | hostByte (b : Byte) (poisoned : Bool)
  deriving DecidableEq, Repr

/-- The management plane and the host's view (R395 to R405). -/
structure Mgmt where
  ready : Word
  power : BitVec 16
  limit : BitVec 12
  alarm : Bool
  rises : BitVec 32
  /-- The fabric cycle since which POWER has been below 95% of LIMIT; `none` while it is not (R404). -/
  calm : Option Nat
  secver : BitVec 32
  /-- The bring-up parameters (R398): whether boot firmware has set them, whether an ISSUE bit has been set since, and their values. -/
  based : Bool
  fixed : Bool
  gtBase : Nat
  ptBase : Nat
  errBase : Nat
  subBase : Nat
  areas : List (Nat × Nat)
  bootStage : Nat
  /-- Digests of the images that ran, and the enrolled pairs (R400, R403). -/
  images : List (BitVec 384)
  keys : List KeyPair
  /-- The pairs made at manufacture, by their digests: the root keys, fused (R400), and the device identity (R403). -/
  rootKeys : KeyPair
  device : KeyPair
  /-- Corrected errors by die × 8 + structure, saturating (R390). -/
  ecc : SMap Nat
  /-- Corrections by location: 2^64 × (die × 8 + structure) + location; 9 once the eighth has been reported. -/
  corrected : SMap Nat
  errCopies : List (List Word)
  replies : List Reply
  mapped : List Nat
  retired : List Nat
  deriving DecidableEq, Repr

/-- A request that has been injected and is not performed (R379 to R381): its place in the order in which requests left their ports, the
dies that it crosses, whether it has come to its destination's port, and its place in the order in which requests came to theirs (R272). -/
structure Flit where
  left : Nat
  way : List Nat
  arrived : Bool
  came : Nat := 0
  deriving DecidableEq, Repr

/-- The links and switches (R377 to R384). -/
structure Fabric where
  ports : SMap Port
  /-- The requests in the Armature, and how often each that waits at its port has been passed, by their numbers (R381). -/
  sent : SMap Flit
  passes : SMap Nat
  /-- The number of departures from ports and arrivals at ports so far. -/
  left : Nat
  switches : SMap PowerState
  lanes : SMap Lane
  /-- The last fabric cycle in which each bulk plane carried a flit, by boundary (R384). -/
  carried : SMap Nat
  /-- Link planes that are down: boundary × 2 + plane. -/
  planesDown : List Nat
  dies : Vector DieState 4
  deriving DecidableEq, Repr

/-! ### The state -/

/-- Who acts next. The host interface, the device's own actions, the slots and the engines interleave in an order that the spec
leaves open; `State.sched.agenda` names it. -/
inductive Choice where
  /-- A slot has its issue cycle: cluster, issue unit, slot. -/
  | issue (c u s : Nat)
  /-- As `issue`, with the word at the PC not available (R120). -/
  | fetchMiss (c u s : Nat)
  /-- A step of the device. -/
  | event (i : Instr)
  /-- The command at the head of queue q of cluster c starts (R187). -/
  | start (c q : Nat)
  /-- The slice of entry k of a gang lane arrives (R277, R278). -/
  | sliceArrive (c k : Nat)
  /-- A POOL or ROWADD, run k of a cluster's CQ, reads its current-version word again (R366). -/
  | bagRead (c k : Nat)
  /-- A TLOAD, run k of a cluster's CQ, reads the memory row of its i-th unwritten row anew: its reads are unordered (R275, R302). -/
  | readRow (c k i : Nat)
  /-- Run k of a queue makes write i of those that it has not made (R187). -/
  | makeWrite (c q k i : Nat)
  /-- The k-th LAUNCH that waits for its job's event goes on (R341). -/
  | launchGoOn (k : Nat)
  /-- A bank goes on with the action at hand (R325). -/
  | bankGoOn (c : Nat)
  /-- The request of that number is injected at its port (R357, R381). -/
  | inject (id : Nat)
  /-- The request of that number comes to its destination's port (R380, R384). -/
  | arrive (id : Nat)
  /-- The k-th pending store is performed (R293). -/
  | drain (k : Nat)
  /-- A die copy of an SWC line is replaced by its slice (R289). -/
  | replaceCopy (die line : Nat)
  /-- A die's slice takes its copy of an SWC line, for an access of an engine, a bank or a fetch (R289; log entry 64). -/
  | takeCopy (die line : Nat)
  /-- A host agent writes bytes of one line of its own memory, which the device reaches through CXL.cache (R396). -/
  | hostWrite (pa : Nat) (w : List Byte)
  /-- A leaf entry is written; the clusters named keep the old translation until a TLBINV (R288, R290). -/
  | mapPage (p : Page) (keep : List Nat)
  /-- A leaf entry is removed. -/
  | unmapPage (asid : BitVec 12) (va : Nat) (keep : List Nat)
  /-- A physical range gets its home die (R17). -/
  | homeRange (lo hi die : Nat)
  /-- Data becomes uncorrectable: a 64-byte unit of memory (R391). -/
  | poison (unit : Nat)
  /-- Data of a die copy becomes uncorrectable: one of its two 64-byte units (R391). -/
  | poisonCopy (key unit : Nat)
  /-- Data of a tile becomes uncorrectable: a 64-byte unit (R391). -/
  | poisonTile (key unit : Nat)
  /-- The package power averaged over 1 ms takes a new value (R404). -/
  | powerReading (w : BitVec 16)
  /-- POWER_ALARM_CLEAR falls due (R404). -/
  | alarmClears
  /-- A fabric cycle in which nothing else happens. -/
  | idle
  deriving DecidableEq, Repr

/-- The order of steps, and the clocks. -/
structure Sched where
  agenda : List Choice
  /-- The slot whose issue this is: cluster, issue unit, slot. -/
  cur : Option (Nat × Nat × Nat)
  /-- The queue whose head is starting: cluster and queue. -/
  cmd : Option (Nat × Nat)
  /-- The cluster whose slots issue in the automatic order, and the slot that issued last. -/
  last : Nat
  /-- The fabric cycle, and the one in which the next tick of the time bases falls (R9, R14). -/
  cycle : Nat
  tickAt : Nat
  /-- The number of operations issued so far. -/
  seq : Nat
  deriving DecidableEq, Repr

/-- Contexts and their scheduling. -/
structure Contexts where
  /-- Live lines by physical line number. -/
  lines : SMap Line
  /-- Where retired and free lines are resident, by physical line number, and when each last issued. -/
  resid : SMap (Place × Nat)
  /-- Slots by cluster × 32 + unit × 8 + slot. -/
  slots : SMap SlotRec
  /-- Run lists by cluster × 4 + effective class (R353). -/
  run : SMap (List RunEntry)
  /-- ARRIVAL_LIMIT by cluster, where not 64 (R229). -/
  limits : SMap Nat
  /-- Contexts waiting for a line, in the order in which they began: line, cluster or 255 for any (R351). -/
  spawnWait : List (Nat × Nat)
  /-- Appends that a full backlog ring refused, by cluster (R352). -/
  heldAppends : SMap (List Nat)
  /-- The physical line numbers behind the entries of each cluster's backlog ring, from its head (R259). -/
  rings : SMap (List Nat)
  deriving DecidableEq, Repr

/-- Memory as the agents see it. -/
structure Mem where
  bytes : List Host.Cell
  /-- Units of 64 bytes that hold uncorrectable data (R391). -/
  poison : List Nat
  /-- Dies whose memory was lost at a fence (R386), and the units homed there that have been written in full since. -/
  wiped : BitVec 4
  clean : List Nat
  pages : List Page
  /-- Old translations that TLBs still hold: cluster and translation. -/
  stale : List (Nat × Page)
  /-- Physical ranges homed on a die, the first that matches; others are homed on D0 (R17). -/
  homes : List (Nat × Nat × Nat)
  /-- Die copies by die × 2^45 + line. -/
  copies : SMap DieCopy
  stores : List Store
  /-- Releases carried by the bytes of memory, and those that any write of theirs has carried: an atomic that is later in the coherence order of a
  location carries them on (R297). -/
  tags : SMap (List Tag)
  heads : SMap (List Tag)
  /-- By line: the contexts, by name, whose stores went into the copy of a die, and that die (R156, R300). -/
  wrote : SMap (List (Nat × Nat))
  deriving DecidableEq, Repr

/-- Operations in flight. -/
structure Flight where
  pend : List Pending
  sfu : SMap Sfu
  divs : List DivReq
  reds : List Reduction
  orders : List OrderReq
  ranges : List RangeReq
  owners : List OwnerReq
  banks : List BankReq
  handles : List HandleReq
  cancels : List CancelReq
  spawns : List SpawnReq
  launches : List LaunchWait
  /-- Send buffers by cluster; 192 and 193 are those of the CXL ports (R347). -/
  sends : SMap (List SendEntry)
  deriving DecidableEq, Repr

/-- Tiles, queues and gangs. -/
structure Engines where
  /-- Handle tables by cluster × 4,096 + index. -/
  tiles : SMap Tile
  held : List Held
  /-- Queues by cluster × 3 + queue: 0 MQ, 1 CQ, 2 XQ. -/
  queues : SMap (List QEntry)
  accepted : SMap (BitVec 32)
  running : SMap (List Run)
  seqs : Vector Sequencer 4
  lanes : SMap (List LaneEntry)
  rowCaches : Vector RowCache 4
  deriving DecidableEq, Repr

/-- Launches, pools' backlogs and jobs. -/
structure Launches where
  table : SMap Launch
  /-- Spawn backlogs by cluster (R327). -/
  backlogs : SMap (List SpawnReq)
  deriving DecidableEq, Repr

/-- The machine. -/
structure State where
  sched : Sched
  ctx : Contexts
  mem : Mem
  fl : Flight
  eng : Engines
  /-- Churn groups by cluster × 256 + group. -/
  groups : SMap Group
  /-- The rest of an action of a bank that has not come to its end, by cluster (R325; log entry 31). -/
  chains : SMap (List BankWork)
  launch : Launches
  asids : SMap AsidRegs
  fab : Fabric
  mgmt : Mgmt
  /-- The tick counters of the dies (R14). -/
  time : Vector Word 4
  deriving DecidableEq, Repr

/-! ### Reset values -/

/-- The status word of a FREE line (R244). -/
def Status.zero : Status :=
  { state := .free, dies := 0, full := 0, pend := 0, larem := 0, cls := 0, priv := 0, trapcode := 0, valid := false, die := 0,
    cluster := 0, unit := 0, slot := 0, roam := false, queued := false, qkind := 0, qacc := 0, qcnt := 0 }

/-- A context line of zeros. -/
def Ctx.zero : Ctx :=
  { g := Vector.replicate 8 0, pc := 0, p := Vector.replicate 8 0, waitKind := 0, waitObj := 0, st := Status.zero, gen := 0,
    asid := 0, launch := 0, inboxBase := 0, inboxCount := 0, inboxHead := 0, floor := 0 }

/-- A line with the given contents that nothing is in flight for. -/
def Line.fresh (c : Ctx) (lnum : BitVec 50) (place : Place) : Line :=
  { c := c, lnum := lnum, place := place, issued := 0, landed := 0, live := true, src := 0, jumped := false, reissue := none, fault := none, redo := false, qred := (0, 0),
    watch := 0, goTo := none, lost := 0, cancelled := false, marked := 0, out := 0, fenceTags := [], heard := [], deps := [], moved := 0, onIssue := none, after := none }

/-- The control registers of an ASID at reset (R227, R226, R228, R356). -/
def AsidRegs.reset : AsidRegs :=
  { profile := 1, handler := 0, undeliv := 0, refused := 0, ringBase := 0, ringSize := 0, ringHead := 0, ringTail := 0,
    ringOver := 0, quota := 0, weight := 1 }

/-- A handle-table entry at reset (R272). -/
def Tile.reset : Tile :=
  { live := false, gen := 0, asid := 0, fmt := 0, block := 0, pitch := 0, cols := 0, rows := 0, granules := [], data := [],
    scales := [], bad := [] }

/-- A member at reset (R313). -/
def Member.reset : Member := { v := 0, sum := 0, refr := 0, armed := false, armin := false, time := 0, timeIn := 0 }

/-- A group that is reserved to no ASID, and as R313 clears it. -/
def Group.reset : Group := { owner := none, cfg := 0, S := 0, late := 0, logn := 0, members := [], cal := [] }

/-- An empty SFU queue. -/
def Sfu.reset : Sfu := { queue := [], held := [], refused := [] }

/-- An empty row cache. -/
def RowCache.reset : RowCache := { rows := [], hits := 0, refs := 0, due := false }

/-- A sequencer that has granted nothing. -/
def Sequencer.reset : Sequencer := { next := 0, requests := [] }

/-- The dies of a package with n live dies (R1). -/
def diesOf (n : Nat) : Vector DieState 4 :=
  Vector.ofFn fun d => { present := decide (d.val < n), lost := decide (n ≤ d.val), drain := none, linkLost := false }

/-- Management at cold reset: nothing ready, the power limit 2,400 W (R397, R404). -/
def Mgmt.reset : Mgmt :=
  { ready := 0, power := 0, limit := 2400, alarm := false, rises := 0, calm := some 0, secver := 0, based := false, fixed := false, gtBase := 0, ptBase := 0,
    errBase := 0, subBase := 0, areas := [], bootStage := 0, images := [], keys := [],
    rootKeys := ⟨0, 0⟩, device := ⟨0, 0⟩, ecc := [], corrected := [], errCopies := [], replies := [],
    mapped := [], retired := [] }

/-- A package with n live dies right after its cold reset (R1, R14). -/
def State.resetOf (n : Nat) : State :=
  { sched := { agenda := [], cur := none, cmd := none, last := 0, cycle := 0, tickAt := 2, seq := 0 }
    ctx := { lines := [], resid := [], slots := [], run := [], limits := [], spawnWait := [], heldAppends := [], rings := [] }
    mem := { bytes := [], poison := [], wiped := 0, clean := [], pages := [], stale := [], homes := [], copies := [], stores := [], tags := [], heads := [], wrote := [] }
    fl := { pend := [], sfu := [], divs := [], reds := [], orders := [], ranges := [], owners := [], banks := [], handles := [],
            cancels := [], spawns := [], launches := [], sends := [] }
    eng := { tiles := [], held := [], queues := [], accepted := [], running := [], seqs := Vector.replicate 4 Sequencer.reset,
             lanes := [], rowCaches := Vector.replicate 4 RowCache.reset }
    groups := []
    chains := []
    launch := { table := [], backlogs := [] }
    asids := []
    fab := { ports := [], sent := [], passes := [], left := 0, switches := [], lanes := [], carried := [], planesDown := [], dies := diesOf n }
    mgmt := Mgmt.reset
    time := Vector.replicate 4 0 }

/-- The full package right after cold reset (R1, R14): nothing is live, memory lists nothing, the counters are 0. -/
def State.reset : State := State.resetOf 4

/-! ### How a step can stop -/

/-- Faults. -/
inductive Fault where
  /-- Raised by the step when no die of the package is present: there is no machine. Safe: no package ships so (R1). -/
  | noMachine
  deriving DecidableEq, Repr

/-- Refusals. -/
inductive Refusal where
  /-- Raised by `exec` for an instruction that has no meaning in the model yet. Safe. -/
  | notModelled (mnemonic : String)
  /-- Raised by the meaning of an instruction word when no context is at issue: there is no agent to run it. Safe: the step names
  one before it runs a word. -/
  | noContext
  /-- Raised by the meaning of an engine command when no queue entry is starting. Safe: the step names one first. -/
  | noCommand
  /-- Raised by a step of the device that cannot happen in this state, with its mnemonic. Safe: the machine does not take it. -/
  | notEnabled (what : String)
  deriving DecidableEq, Repr

end Sys2Proof.Machine
end

