-- ==== Sys2Proof/Machine/Ctx.lean ====
section
/-! DEFINITION. The context line as bytes (R243 to R246), its registers, its lanes (R57), full and pending bits. -/

namespace Sys2Proof

/-! ### Masks of registers -/

/-- The bit mask of one register. -/
def regMask (r : Fin 8) : BitVec 8 := 1#8 <<< r.val
/-- The mask of n registers from r. -/
def spanMask (r n : Nat) : BitVec 8 := BitVec.ofNat 8 ((2 ^ n - 1) * 2 ^ r)
/-- The mask of a pair or a quadruple. -/
def pairMask (r : Fin 8) : BitVec 8 := spanMask r.val 2
/-- The mask of a quadruple. -/
def quadMask (r : Fin 8) : BitVec 8 := spanMask r.val 4
/-- The registers that a source takes. -/
def Src.takeMask (a : Src) : BitVec 8 := if a.take then regMask a.reg else 0
/-- The register that a source names. -/
def Src.nameMask (a : Src) : BitVec 8 := regMask a.reg
/-- The registers that a pair source takes. -/
def Src.takePair (a : Src) : BitVec 8 := if a.take then pairMask a.reg else 0
/-- The lowest register of a mask. -/
def lowestReg (m : BitVec 8) : Nat := ((List.range 8).find? fun i => m.getLsbD i).getD 0

/-- Combine(cm, old, v) of R61. -/
def Combine.apply (cm : Combine) (old v : Bool) : Bool :=
  match cm with
  | .replace => v
  | .and => old && v
  | .or => old || v
  | .xor => old != v

end Sys2Proof

namespace Sys2Proof.Machine

/-! ### Field codes -/

/-- The code of STATE (R244). -/
def CState.code : CState → BitVec 4
  | .free => 0 | .ready => 1 | .running => 2 | .waiting => 3 | .parked => 4 | .trapped => 5 | .retired => 6 | .inTransit => 7

/-- The state of a code; 8 to 15 are treated as PARKED (R245). -/
def CState.ofCode (x : BitVec 4) : CState :=
  match x.toNat with
  | 0 => .free | 1 => .ready | 2 => .running | 3 => .waiting | 4 => .parked | 5 => .trapped | 6 => .retired | 7 => .inTransit
  | _ => .parked

/-- The status word as bits (R244). -/
def Status.bits (t : Status) : Word :=
  t.state.code ++ t.dies ++ t.full ++ t.pend ++ t.larem ++ t.cls ++ t.priv ++ t.trapcode ++ BitVec.ofBool t.valid ++ t.die
    ++ t.cluster ++ t.unit ++ t.slot ++ BitVec.ofBool t.roam ++ BitVec.ofBool t.queued ++ t.qkind ++ t.qacc ++ t.qcnt

/-- The status word from bits (R244). -/
def Status.ofBits (w : Word) : Status where
  state := .ofCode (w.extractLsb' 60 4)
  dies := w.extractLsb' 56 4
  full := w.extractLsb' 48 8
  pend := w.extractLsb' 40 8
  larem := w.extractLsb' 36 4
  cls := w.extractLsb' 34 2
  priv := w.extractLsb' 32 2
  trapcode := w.extractLsb' 24 8
  valid := w.getLsbD 23
  die := w.extractLsb' 21 2
  cluster := w.extractLsb' 15 6
  unit := w.extractLsb' 13 2
  slot := w.extractLsb' 10 3
  roam := w.getLsbD 9
  queued := w.getLsbD 8
  qkind := w.extractLsb' 6 2
  qacc := w.extractLsb' 3 3
  qcnt := w.extractLsb' 0 3

/-- The wait word (R243). -/
def Ctx.waitWord (c : Ctx) : Word := c.waitKind ++ c.waitObj
/-- The identity word (R243). -/
def Ctx.identWord (c : Ctx) : Word := c.gen ++ c.asid ++ (0 : BitVec 6) ++ c.launch
/-- The inbox word (R243). -/
def Ctx.inboxWord (c : Ctx) : Word := (0 : BitVec 7) ++ c.inboxBase ++ c.inboxCount ++ c.inboxHead
/-- The PC word (R243). -/
def Ctx.pcWord (c : Ctx) : Word := c.pc.setWidth 64

/-- Predicates p(k) to p(k+3) as one word (R243). -/
def Ctx.predWord (c : Ctx) (hi : Bool) : Word :=
  if hi then c.p[7] ++ c.p[6] ++ c.p[5] ++ c.p[4] else c.p[3] ++ c.p[2] ++ c.p[1] ++ c.p[0]

/-- The sixteen words of a line in order (R243). -/
def Ctx.words (c : Ctx) : List Word :=
  [c.g[0], c.g[1], c.g[2], c.g[3], c.g[4], c.g[5], c.g[6], c.g[7], c.pcWord, c.predWord false, c.predWord true, c.waitWord,
   c.st.bits, c.identWord, c.inboxWord, c.floor]

/-- Byte `off` of a line (R8, R243). -/
def Ctx.byte (c : Ctx) (off : Nat) : Byte := ((c.words.getD (off / 8) 0) >>> (8 * (off % 8))).setWidth 8

/-- A line from its sixteen words; reserved bits are read as zero (R245), a count above 16 as 16. -/
def Ctx.ofWords (w : Nat → Word) : Ctx where
  g := Vector.ofFn fun r => w r.val
  pc := ((w 8).extractLsb' 3 54) ++ (0 : BitVec 3)
  p := Vector.ofFn fun r => (w (9 + r.val / 4)).extractLsb' (16 * (r.val % 4)) 16
  waitKind := (w 11).extractLsb' 60 4
  waitObj := (w 11).extractLsb' 0 60
  st := .ofBits (w 12)
  gen := (w 13).extractLsb' 50 14
  asid := (w 13).extractLsb' 38 12
  launch := (w 13).extractLsb' 0 32
  inboxBase := (w 14).extractLsb' 9 48
  inboxCount := if ((w 14).extractLsb' 4 5).toNat ≤ 16 then (w 14).extractLsb' 4 5 else 16
  inboxHead := (w 14).extractLsb' 0 4
  floor := w 15

/-! ### Accessors -/

/-- The value of a general register. -/
def Ctx.reg (c : Ctx) (r : Reg) : Word := c.g[r.val]'(r.isLt)
/-- Write a general register; its full bit is unchanged (R62). -/
def Ctx.setReg (c : Ctx) (r : Reg) (v : Word) : Ctx := { c with g := c.g.set r.val v r.isLt }
/-- The value of a predicate register. -/
def Ctx.pred (c : Ctx) (r : PReg) : BitVec 16 := c.p[r.val]'(r.isLt)
/-- Write a predicate register. -/
def Ctx.setPred (c : Ctx) (r : PReg) (v : BitVec 16) : Ctx := { c with p := c.p.set r.val v r.isLt }

/-- The global number of the current cluster (R244). -/
def Ctx.here (c : Ctx) : Nat := c.st.die.toNat * 48 + c.st.cluster.toNat
/-- The die of the current cluster. -/
def Ctx.dieNum (c : Ctx) : Nat := c.st.die.toNat
/-- Whether the context is a supervisor or machine context (R244): 2 reads as user. -/
def Ctx.level (c : Ctx) : Nat := if c.st.priv = 1 then 1 else if c.st.priv = 3 then 3 else 0

/-- The value of a source. -/
def Ctx.src (c : Ctx) (a : Src) : Word := c.reg a.reg

/-- The register after r, for pairs: r is even. -/
def nextReg (r : Reg) : Reg := ⟨(r.val + 1) % 8, Nat.mod_lt _ (by decide)⟩
/-- Register r + n, modulo 8. -/
def regPlus (r : Reg) (n : Nat) : Reg := ⟨(r.val + n) % 8, Nat.mod_lt _ (by decide)⟩
/-- A register number from bits of a data word. -/
def regOf (n : Nat) : Reg := ⟨n % 8, Nat.mod_lt _ (by decide)⟩

/-- A 128-bit pair value: the lower register holds bits [63:0] (R11). -/
def Ctx.pair (c : Ctx) (r : Reg) : BitVec 128 := c.reg (nextReg r) ++ c.reg r
/-- Write a pair. -/
def Ctx.setPair (c : Ctx) (r : Reg) (v : BitVec 128) : Ctx :=
  (c.setReg r (v.extractLsb' 0 64)).setReg (nextReg r) (v.extractLsb' 64 64)

/-- Guard(w, i) of R57. -/
def Ctx.active (c : Ctx) (g : Guard) (i : Nat) : Bool :=
  let a := if (c.pred g.ga).getLsbD i then 4 else 0
  let b := if (c.pred g.gb).getLsbD i then 2 else 0
  let d := if (c.pred g.gc).getLsbD i then 1 else 0
  g.tt.getLsbD (a + b + d)

/-- LaneMask(w, L) of R57. -/
def Ctx.laneMask (c : Ctx) (g : Guard) (L : Nat) : BitVec 16 :=
  BitVec.ofNat 16 ((List.range L).foldl (fun m i => if c.active g i then m + 2 ^ i else m) 0)

/-- The handle of a line (R25). -/
def handleOf (gen : BitVec 14) (lnum : BitVec 50) : Word := gen ++ lnum
/-- The handle of a live line. -/
def Line.handle (l : Line) : Word := handleOf l.c.gen l.lnum
/-- The generation of a handle. -/
def handleGen (h : Word) : BitVec 14 := h.extractLsb' 50 14
/-- The virtual address of the line that a handle names. -/
def handleVa (h : Word) : Nat := (h.extractLsb' 0 50).toNat * 128

/-- The wait word holds a replay marker (R153, R247). -/
def Ctx.marker (c : Ctx) : Bool := (c.waitKind == 6 || c.waitKind == 15) && c.waitObj.getLsbD 0
/-- The address that a marker names. -/
def Ctx.markerPc (c : Ctx) : VAddr := (c.waitObj.setWidth 57) &&& ~~~(1 : VAddr)
/-- The wait object of a marker for an address (R152). -/
def markerObj (a : VAddr) : BitVec 60 := (a.setWidth 60) ||| 1

/-! ### Writing a live line (R246) -/

/-- Whether software may write the line: it is TRAPPED or PARKED. -/
def Ctx.writable (c : Ctx) : Bool := c.st.state == .trapped || c.st.state == .parked

/-- What a write of a live line makes of it: `new` is the line as the bytes written would have it, `old` as the CZ-4 holds it. -/
def mergeHandler (old new : Ctx) : Ctx :=
  if old.writable then
    let clearQ := new.st.qkind = 0 ∧ new.st.qacc = 0 ∧ new.st.qcnt = 0
    { old with
      g := new.g, pc := new.pc, p := new.p, waitKind := new.waitKind, waitObj := new.waitObj, floor := new.floor
      st := { old.st with
        full := new.st.full, cls := new.st.cls, priv := new.st.priv
        state := if new.writable then new.st.state else old.st.state
        qkind := if clearQ then 0 else old.st.qkind
        qacc := if clearQ then 0 else old.st.qacc
        qcnt := if clearQ then 0 else old.st.qcnt } }
  else old

/-! ### Predicate pairs (R61) -/

/-- The 16 bits of a predicate after WritePair: bit j takes lane j mod L (R61). -/
def writePred (cm : Combine) (old : BitVec 16) (L : Nat) (mask : Nat → Bool) (cond : Nat → Bool) : BitVec 16 :=
  BitVec.ofNat 16 ((List.range 16).foldl
    (fun m j => m + (if (if mask (j % L) then cm.apply (old.getLsbD j) (cond (j % L)) else old.getLsbD j) then 2 ^ j else 0)) 0)

/-- The lower predicate of pair k. -/
def pairLo (k : BitVec 2) : PReg := ⟨2 * k.toNat, by omega⟩
/-- The upper predicate of pair k. -/
def pairHi (k : BitVec 2) : PReg := ⟨2 * k.toNat + 1, by omega⟩

/-- WritePair(k, cond, L, mask, cm) of R61. -/
def Ctx.writePair (c : Ctx) (k : BitVec 2) (cm : Combine) (L : Nat) (mask cond : Nat → Bool) : Ctx :=
  (c.setPred (pairLo k) (writePred cm (c.pred (pairLo k)) L mask cond)).setPred (pairHi k)
    (writePred cm (c.pred (pairHi k)) L mask fun i => !cond i)

end Sys2Proof.Machine
end

