-- ==== Sys2Proof/Machine/Numeric.lean ====
section
/-! DEFINITION. Number formats, exact values, rounding and conversion (R29 to R48, R138).
A value is held exactly: a sign, a magnitude `m` and a binary exponent `e` stand for ± m × 2^e. Every operation is computed on exact
values and rounded once, as R36 and R38 give. -/

namespace Sys2Proof.Machine

/-- An exact value, an infinity or a NaN. A `fin` of magnitude 0 is a zero of its sign. -/
inductive FpVal where
  | nan
  | inf (neg : Bool)
  | fin (neg : Bool) (m : Nat) (e : Int)
  deriving DecidableEq, Repr

/-- 2^k for a natural part of an integer exponent, 1 for a negative one. -/
def pow2 (k : Int) : Nat := 2 ^ k.toNat

/-- An integer as an exact value. -/
def FpVal.ofInt (x : Int) : FpVal := .fin (decide (x < 0)) x.natAbs 0

/-- Whether a value is a NaN. -/
def FpVal.isNan : FpVal → Bool
  | .nan => true
  | .inf _ => false
  | .fin _ _ _ => false

/-- Whether a value is a zero of either sign. -/
def FpVal.isZero : FpVal → Bool
  | .fin _ m _ => m == 0
  | .nan => false
  | .inf _ => false

/-- The negated value; a NaN stays a NaN. -/
def FpVal.negate : FpVal → FpVal
  | .nan => .nan
  | .inf s => .inf (!s)
  | .fin s m e => .fin (!s) m e

/-- The sign of a value; a NaN has none. -/
def FpVal.isNeg : FpVal → Bool
  | .nan => false
  | .inf s => s
  | .fin s _ _ => s

/-- The magnitude with a positive sign. -/
def FpVal.absVal : FpVal → FpVal
  | .nan => .nan
  | .inf _ => .inf false
  | .fin _ m e => .fin false m e

/-- The value times 2^k, exact (R43). -/
def FpVal.scale (k : Int) : FpVal → FpVal
  | .fin s m e => .fin s m (e + k)
  | .nan => .nan
  | .inf s => .inf s

/-- The signed integer m × 2^(e - e0), for e0 at most e. -/
def signedAt (neg : Bool) (m : Nat) (e e0 : Int) : Int :=
  let v : Int := (m * pow2 (e - e0) : Nat)
  if neg then -v else v

/-- Compare two exact numbers: the sign of x - y. -/
def cmpFin (s1 : Bool) (m1 : Nat) (e1 : Int) (s2 : Bool) (m2 : Nat) (e2 : Int) : Ordering :=
  let e0 := min e1 e2
  compare (signedAt s1 m1 e1 e0) (signedAt s2 m2 e2 e0)

/-- Compare two values; none when a NaN makes them unordered (R74). Zeros of either sign are equal. -/
def FpVal.compare : FpVal → FpVal → Option Ordering
  | .nan, _ => none
  | _, .nan => none
  | .inf s, .inf t => some (if s == t then .eq else if s then .lt else .gt)
  | .inf s, .fin _ _ _ => some (if s then .lt else .gt)
  | .fin _ _ _, .inf t => some (if t then .gt else .lt)
  | .fin s m e, .fin t n f => some (cmpFin s m e t n f)

/-- The exact product; 0 times an infinity is a NaN (R137, R139). -/
def FpVal.mul : FpVal → FpVal → FpVal
  | .nan, _ => .nan
  | _, .nan => .nan
  | .inf s, .inf t => .inf (s != t)
  | .inf s, .fin t m _ => if m == 0 then .nan else .inf (s != t)
  | .fin s m _, .inf t => if m == 0 then .nan else .inf (s != t)
  | .fin s m e, .fin t n f => .fin (s != t) (m * n) (e + f)

/-- Whether a list of terms holds an infinity of the given sign. -/
def hasInf (neg : Bool) (l : List FpVal) : Bool := l.any fun v => v == .inf neg

/-- The least exponent of the finite terms, starting from e0. -/
def minExp (e0 : Int) : List FpVal → Int
  | [] => e0
  | .fin _ _ e :: l => minExp (min e0 e) l
  | .nan :: l => minExp e0 l
  | .inf _ :: l => minExp e0 l

/-- The exact sum of the finite terms in units of 2^e0. -/
def sumAt (e0 : Int) : List FpVal → Int
  | [] => 0
  | .fin s m e :: l => signedAt s m e e0 + sumAt e0 l
  | .nan :: l => sumAt e0 l
  | .inf _ :: l => sumAt e0 l

/-- The exact sum of a list of terms, taken as one sum: a NaN term or infinities of both signs give a NaN. An exact zero is
negative when every term is a negative zero, or when the mode is rdn and the terms are not all positive zeros (R34, R50). -/
def FpVal.sum (rm : Rounding) (l : List FpVal) : FpVal :=
  if l.any FpVal.isNan || (hasInf true l && hasInf false l) then .nan
  else if hasInf true l then .inf true
  else if hasInf false l then .inf false
  else
    let e0 := minExp 0 l
    let v := sumAt e0 l
    if v = 0 then
      let allNeg := l.all fun x => x.isZero && x.isNeg
      let allPos := l.all fun x => x.isZero && !x.isNeg
      .fin (if allNeg then true else if allPos then false else rm == .rdn) 0 0
    else .fin (decide (v < 0)) v.natAbs e0

/-! ### IEEE formats and BF16 (R30 to R36) -/

/-- An IEEE format or BF16 by its exponent and fraction widths (R30). -/
structure FpFormat where
  ebits : Nat
  fbits : Nat
  deriving DecidableEq, Repr

/-- binary16 (R30). -/
def fp16 : FpFormat := ⟨5, 10⟩
/-- BF16 (R30). -/
def bf16 : FpFormat := ⟨8, 7⟩
/-- binary32 (R30). -/
def fp32 : FpFormat := ⟨8, 23⟩
/-- binary64 (R30). -/
def fp64 : FpFormat := ⟨11, 52⟩

/-- The width of a pattern. -/
def FpFormat.width (f : FpFormat) : Nat := 1 + f.ebits + f.fbits
/-- The exponent bias. -/
def FpFormat.bias (f : FpFormat) : Nat := 2 ^ (f.ebits - 1) - 1
/-- The exponent of the subnormal spacing. -/
def FpFormat.qmin (f : FpFormat) : Int := 1 - (f.bias : Int) - f.fbits
/-- The pattern of +∞. -/
def FpFormat.infBits (f : FpFormat) : Nat := (2 ^ f.ebits - 1) * 2 ^ f.fbits
/-- The canonical quiet NaN (R30, R32). -/
def FpFormat.nanBits (f : FpFormat) : Nat := f.infBits + 2 ^ (f.fbits - 1)
/-- The sign bit's weight. -/
def FpFormat.signBit (f : FpFormat) : Nat := 2 ^ (f.ebits + f.fbits)

/-- The value of a pattern; subnormals at their exact value (R31). -/
def FpFormat.decode (f : FpFormat) (x : Nat) : FpVal :=
  let neg := decide (x / f.signBit % 2 = 1)
  let ex := x / 2 ^ f.fbits % 2 ^ f.ebits
  let fr := x % 2 ^ f.fbits
  if ex = 2 ^ f.ebits - 1 then (if fr = 0 then .inf neg else .nan)
  else if ex = 0 then .fin neg fr f.qmin
  else .fin neg (2 ^ f.fbits + fr) (f.qmin + (ex - 1 : Nat))

/-- Whether rounding n + rem/2^sh goes up in magnitude (R35). -/
def roundsUp (rm : Rounding) (neg : Bool) (n rem sh : Nat) : Bool :=
  match rm with
  | .rne => decide (2 * rem > 2 ^ sh) || (decide (2 * rem = 2 ^ sh) && n % 2 == 1)
  | .rtz => false
  | .rup => decide (rem > 0) && !neg
  | .rdn => decide (rem > 0) && neg

/-- A magnitude in units of 2^q after rounding m × 2^e to that spacing under the mode (R35). -/
def roundTo (rm : Rounding) (neg : Bool) (m : Nat) (e q : Int) : Nat :=
  if q ≤ e then m * pow2 (e - q)
  else
    let sh := (q - e).toNat
    let n := m >>> sh
    let rem := m % 2 ^ sh
    if roundsUp rm neg n rem sh then n + 1 else n

/-- Round an exact value into a format, as a pattern (R36); a NaN is the canonical one (R32). -/
def FpFormat.round (f : FpFormat) (rm : Rounding) : FpVal → Nat
  | .nan => f.nanBits
  | .inf neg => f.infBits + (if neg then f.signBit else 0)
  | .fin neg m e =>
    let s := if neg then f.signBit else 0
    if m = 0 then s
    else
      let q := max ((Nat.log2 m : Int) + e - f.fbits) f.qmin
      let p := (q - f.qmin).toNat * 2 ^ f.fbits + roundTo rm neg m e q
      if p < f.infBits then s + p
      else
        let away := match rm with
          | .rne => true
          | .rtz => false
          | .rup => !neg
          | .rdn => neg
        s + (if away then f.infBits else f.infBits - 1)

/-- The exact quotient to 80 bits beyond the significand, with a sticky bit below them. -/
def FpVal.quot : FpVal → FpVal → FpVal
  | .nan, _ => .nan
  | _, .nan => .nan
  | .inf _, .inf _ => .nan
  | .inf s, .fin t _ _ => .inf (s != t)
  | .fin s _ _, .inf t => .fin (s != t) 0 0
  | .fin s m e, .fin t n f =>
    if n = 0 then (if m = 0 then .nan else .inf (s != t))
    else
      let k := 80 + Nat.log2 n
      let q := m * 2 ^ k / n
      let st := if m * 2 ^ k % n = 0 then 0 else 1
      .fin (s != t) (2 * q + st) (e - f - k - 1)

/-- Integer square root by bits from the top: the greatest r with r² ≤ n among those below 2^k extending r. -/
def isqrtFrom (n : Nat) : Nat → Nat → Nat
  | 0, r => r
  | k + 1, r =>
    let r' := r + 2 ^ k
    isqrtFrom n k (if r' * r' ≤ n then r' else r)

/-- The integer square root. -/
def isqrt (n : Nat) : Nat := isqrtFrom n (Nat.log2 n / 2 + 1) 0

/-- The square root to at least 80 bits, with a sticky bit below them (R142). -/
def FpVal.sqrt : FpVal → FpVal
  | .nan => .nan
  | .inf s => if s then .nan else .inf false
  | .fin s m e =>
    if m = 0 then .fin s 0 0
    else if s then .nan
    else
      let sh := 160 + (e % 2).toNat
      let n := m * 2 ^ sh
      let r := isqrt n
      .fin false (2 * r + (if r * r = n then 0 else 1)) ((e - sh) / 2 - 1)

/-- The reciprocal square root to at least 80 bits, with a sticky bit below them (R146). -/
def FpVal.rsqrt : FpVal → FpVal
  | .nan => .nan
  | .inf s => if s then .nan else .fin false 0 0
  | .fin s m e =>
    if m = 0 then .inf s
    else if s then .nan
    else
      let odd := (e % 2).toNat
      let n := m * 2 ^ odd
      let k := 160 + Nat.log2 n
      let r := isqrt (2 ^ (2 * k) / n)
      .fin false (2 * r + (if r * r * n = 2 ^ (2 * k) then 0 else 1)) (-((e - odd) / 2) - k - 1)

/-- FMinNum of R138. -/
def FpVal.minNum (a b : FpVal) : FpVal :=
  match a.compare b with
  | none => if a.isNan then b else a
  | some .lt => a
  | some .gt => b
  | some .eq => if a.isZero && b.isZero then .fin (a.isNeg || b.isNeg) 0 0 else b

/-- FMaxNum of R138. -/
def FpVal.maxNum (a b : FpVal) : FpVal :=
  match a.compare b with
  | none => if a.isNan then b else a
  | some .gt => a
  | some .lt => b
  | some .eq => if a.isZero && b.isZero then .fin (a.isNeg && b.isNeg) 0 0 else b

/-- The condition of R74 on two values. -/
def floatCondHolds (c : FloatCond) (a b : FpVal) : Bool :=
  match c, a.compare b with
  | .eq, o => o == some .eq
  | .ne, o => o != some .eq
  | .lt, o => o == some .lt
  | .le, o => o == some .lt || o == some .eq
  | .gt, o => o == some .gt
  | .ge, o => o == some .gt || o == some .eq
  | .un, o => o.isNone
  | .ord, o => o.isSome

/-- The FCLASS mask of a pattern (R144). -/
def FpFormat.classMask (f : FpFormat) (x : Nat) : Nat :=
  let neg := decide (x / f.signBit % 2 = 1)
  let ex := x / 2 ^ f.fbits % 2 ^ f.ebits
  let fr := x % 2 ^ f.fbits
  if ex = 2 ^ f.ebits - 1 then
    if fr = 0 then (if neg then 2 ^ 0 else 2 ^ 7)
    else if fr / 2 ^ (f.fbits - 1) % 2 = 1 then 2 ^ 9 else 2 ^ 8
  else if ex = 0 then
    if fr = 0 then (if neg then 2 ^ 3 else 2 ^ 4) else (if neg then 2 ^ 2 else 2 ^ 5)
  else if neg then 2 ^ 1 else 2 ^ 6

/-! ### Integers (R29, R42) -/

/-- Clamp to a range. -/
def clampInt (lo hi x : Int) : Int := max lo (min hi x)

/-- A value rounded to an integer under the mode; a NaN gives 0 and an infinity a bound beyond every range (R42). -/
def FpVal.toInt (rm : Rounding) : FpVal → Int
  | .nan => 0
  | .inf s => if s then -(2 ^ 2000) else 2 ^ 2000
  | .fin s m e =>
    let n : Int := (roundTo rm s m e 0 : Nat)
    if s then -n else n

/-- A value converted to an integer range with saturation (R42). -/
def FpVal.toRange (rm : Rounding) (lo hi : Int) (v : FpVal) : Int := clampInt lo hi (v.toInt rm)

/-- The two's-complement bits of an integer in w bits. -/
def intBits (w : Nat) (x : Int) : Nat := (x % (2 ^ w : Int)).toNat

/-- The two's-complement integer of w bits. -/
def bitsInt (w x : Nat) : Int :=
  let y := x % 2 ^ w
  if y < 2 ^ (w - 1) then (y : Int) else (y : Int) - 2 ^ w

/-! ### Tapered formats (R37 to R40) -/

/-- The length of the run of bits equal to `lead` from bit i down to bit 0. -/
def runLength (x : Nat) (lead : Bool) : Nat → Nat
  | 0 => 0
  | i + 1 => if x.testBit i == lead then 1 + runLength x lead i else 0

/-- DecodeTaper of R37; NaR is read as a NaN. -/
def decodeTaper (n x : Nat) : FpVal :=
  let x := x % 2 ^ n
  if x = 0 then .fin false 0 0
  else if x = 2 ^ (n - 1) then .nan
  else
    let s := x.testBit (n - 1)
    let y := if s then 2 ^ n - x else x
    let lead := y.testBit (n - 2)
    let m := runLength y lead (n - 1)
    let k : Int := if lead then (m : Int) - 1 else -(m : Int)
    let left := n - 1 - m - 1
    let e : Nat := if left = 0 then 0 else (if y.testBit (left - 1) then 1 else 0)
    let fs := left - 1
    let f := y % 2 ^ fs
    .fin s (2 ^ fs + f) (2 * k + e - fs)

/-- EncodeTaper of R38 on an exact nonzero magnitude m × 2^e. -/
def encodeTaperMag (n m : Nat) (e : Int) : Nat :=
  let ex := (Nat.log2 m : Int) + e
  let top : Int := 2 * ((n : Int) - 2)
  let big := decide (top ≤ ex)
  let small := decide (ex < -top) || (decide (ex = -top) && m == 2 ^ Nat.log2 m)
  if big then 2 ^ (n - 1) - 1
  else if small then 1
  else
    let k := ex / 2
    let eb := (ex - 2 * k).toNat
    let lg := Nat.log2 m
    let rl := if 0 ≤ k then k.toNat + 2 else (-k).toNat + 1
    let reg := if 0 ≤ k then 2 ^ (k.toNat + 2) - 2 else 1
    let b := ((reg * 2 + eb) * 2 ^ lg + (m - 2 ^ lg)) * 2 ^ n
    let drop := rl + 1 + lg + n - (n - 1)
    let v := b / 2 ^ drop
    let guard := b / 2 ^ (drop - 1) % 2
    let sticky := b % 2 ^ (drop - 1)
    if guard = 1 && (sticky != 0 || v % 2 == 1) then v + 1 else v

/-- EncodeTaper of R38. -/
def encodeTaper (n : Nat) : FpVal → Nat
  | .nan => 2 ^ (n - 1)
  | .inf _ => 2 ^ (n - 1)
  | .fin s m e =>
    if m = 0 then 0
    else
      let v := encodeTaperMag n m e
      if s then (2 ^ n - v) % 2 ^ n else v

/-- Whether a nonzero finite value lies outside minpos to maxpos in magnitude (R186, R38). -/
def taperSat (n : Nat) : FpVal → Bool
  | .fin _ m e =>
    m != 0 && (cmpFin false m e false 1 (2 * ((n : Int) - 2)) == .gt || cmpFin false m e false 1 (-2 * ((n : Int) - 2)) == .lt)
  | .nan => false
  | .inf _ => false

/-! ### Formats by code (R47) -/

/-- The element width in bits of a format code; untyped elements are one byte (R190). -/
def fmtBits : Nat → Nat
  | 2 => 16 | 3 => 32 | 4 => 64 | 5 => 16 | 6 => 16 | 7 => 32 | 8 => 64 | 10 => 6 | _ => 8

/-- The element size in bytes; T6 counts as 1 (R48, R196). -/
def fmtBytes (fmt : Nat) : Nat := if fmt = 10 then 1 else fmtBits fmt / 8

/-- The bytes of a row of n elements; T6 rows are whole groups of three bytes (R41, R190). -/
def rowBytes (fmt n : Nat) : Nat := if fmt = 10 then 3 * ((n + 3) / 4) else n * fmtBytes fmt

/-- The block length of a block-length code; 0 is unscaled (R47). -/
def blockLen (b : Nat) : Nat := if b = 0 then 0 else 2 ^ (b + 2)

/-- The formats that may be block scaled (R45). -/
def fmtScalable (fmt : Nat) : Bool := fmt == 1 || fmt == 11 || fmt == 9 || fmt == 10

/-- The integer range of an integer format, none for others (R29). -/
def fmtRange : Nat → Option (Int × Int)
  | 1 => some (-128, 127)
  | 2 => some (-32768, 32767)
  | 3 => some (-2147483648, 2147483647)
  | 4 => some (-9223372036854775808, 9223372036854775807)
  | 11 => some (0, 255)
  | _ => none

/-- The exact value of an element's bits (R29, R30, R37); an untyped byte reads as unsigned. -/
def fmtDecode (fmt x : Nat) : FpVal :=
  match fmt with
  | 1 => .ofInt (bitsInt 8 x)
  | 2 => .ofInt (bitsInt 16 x)
  | 3 => .ofInt (bitsInt 32 x)
  | 4 => .ofInt (bitsInt 64 x)
  | 5 => fp16.decode x
  | 6 => bf16.decode x
  | 7 => fp32.decode x
  | 8 => fp64.decode x
  | 9 => decodeTaper 8 x
  | 10 => decodeTaper 6 x
  | _ => .ofInt (x % 256 : Nat)

/-- The bits of a value converted into a format (R42). -/
def fmtEncode (fmt : Nat) (rm : Rounding) (v : FpVal) : Nat :=
  match fmtRange fmt with
  | some (lo, hi) => intBits (fmtBits fmt) (v.toRange rm lo hi)
  | none =>
    match fmt with
    | 5 => fp16.round rm v
    | 6 => bf16.round rm v
    | 7 => fp32.round rm v
    | 8 => fp64.round rm v
    | 9 => encodeTaper 8 v
    | 10 => encodeTaper 6 v
    | _ => intBits 8 (v.toRange rm 0 255)

/-- Whether an exact value lies outside an integer range; an infinity does, a NaN does not (R186). -/
def FpVal.outside (lo hi : Int) : FpVal → Bool
  | .nan => false
  | .inf _ => true
  | .fin s m e => cmpFin s m e (decide (lo < 0)) lo.natAbs 0 == .lt || cmpFin s m e (decide (hi < 0)) hi.natAbs 0 == .gt

/-- Whether the conversion of a value into a format takes a saturating branch (the SAT flag of R186). -/
def fmtSat (fmt : Nat) (v : FpVal) : Bool :=
  match fmtRange fmt with
  | some (lo, hi) => v.outside lo hi
  | none => if fmt = 9 then taperSat 8 v else if fmt = 10 then taperSat 6 v else false

/-- The smallest integer s with m × 2^e ≤ F × 2^s, for nonzero m: ceil(log2(M / F)) of R209. -/
def ceilLog2Ratio (m : Nat) (e : Int) (F : Nat) : Int :=
  let s0 := (Nat.log2 m : Int) + e - Nat.log2 F - 1
  let le := fun s => cmpFin false m e false F s != .gt
  if le s0 then s0 else if le (s0 + 1) then s0 + 1 else s0 + 2

/-! ### FP32 and scalar arithmetic on patterns -/

/-- Round(a + b). -/
def FpFormat.add (f : FpFormat) (rm : Rounding) (a b : Nat) : Nat := f.round rm (.sum rm [f.decode a, f.decode b])
/-- Round(a − b). -/
def FpFormat.sub (f : FpFormat) (rm : Rounding) (a b : Nat) : Nat := f.round rm (.sum rm [f.decode a, (f.decode b).negate])
/-- Round(a × b). -/
def FpFormat.mul (f : FpFormat) (rm : Rounding) (a b : Nat) : Nat := f.round rm ((f.decode a).mul (f.decode b))
/-- Round(a × b + c) with one rounding (R137). -/
def FpFormat.fma (f : FpFormat) (rm : Rounding) (a b c : Nat) : Nat :=
  f.round rm (.sum rm [(f.decode a).mul (f.decode b), f.decode c])
/-- Round(a / b) (R142). -/
def FpFormat.div (f : FpFormat) (rm : Rounding) (a b : Nat) : Nat := f.round rm ((f.decode a).quot (f.decode b))
/-- Round(√a) (R142). -/
def FpFormat.sqrt (f : FpFormat) (rm : Rounding) (a : Nat) : Nat := f.round rm (f.decode a).sqrt
/-- FMinNum on patterns: no rounding changes a value that the format holds (R138). -/
def FpFormat.minNum (f : FpFormat) (a b : Nat) : Nat := f.round .rne ((f.decode a).minNum (f.decode b))
/-- FMaxNum on patterns (R138). -/
def FpFormat.maxNum (f : FpFormat) (a b : Nat) : Nat := f.round .rne ((f.decode a).maxNum (f.decode b))

end Sys2Proof.Machine
end

