-- ==== Sys2Proof/Machine/Flags.lean ====
section
/-! DEFINITION. Conditions and predicate results (R61, R73, R74, R110 to R114, R136). The machine keeps no carry, overflow or other
flag (R98): what a comparison finds goes into a pair of predicates through `Ctx.writePair`. -/

namespace Sys2Proof.Machine

/-- The condition of R73 on two integers, given as w-bit values. -/
def intCondHolds (cc : IntCond) (w a b : Nat) : Bool :=
  match cc with
  | .eq => a == b
  | .ne => a != b
  | .lt => decide (bitsInt w a < bitsInt w b)
  | .le => decide (bitsInt w a ≤ bitsInt w b)
  | .gt => decide (bitsInt w b < bitsInt w a)
  | .ge => decide (bitsInt w b ≤ bitsInt w a)
  | .ltu => decide (a < b)
  | .leu => decide (a ≤ b)
  | .gtu => decide (b < a)
  | .geu => decide (b ≤ a)

/-- The condition of R73 on two words. -/
def wordCond (cc : IntCond) (a b : Word) : Bool :=
  match cc with
  | .eq => a == b
  | .ne => a != b
  | .lt => a.slt b
  | .le => a.sle b
  | .gt => b.slt a
  | .ge => b.sle a
  | .ltu => a.ult b
  | .leu => a.ule b
  | .gtu => b.ult a
  | .geu => b.ule a

/-- Write predicate pair k with a scalar condition (R61, R110): one lane, active. -/
def Ctx.writeCond (c : Ctx) (k : BitVec 2) (cm : Combine) (v : Bool) : Ctx := c.writePair k cm 1 (fun _ => true) (fun _ => v)

/-- Sixteen predicate bits, lane by lane: an active lane takes its new bit, another keeps its old one (R58, R112, R113). -/
def predLanes (active : Nat → Bool) (old : BitVec 16) (new : Nat → Bool) : BitVec 16 :=
  BitVec.ofNat 16 ((List.range 16).foldl (fun m i => m + (if (if active i then new i else old.getLsbD i) then 2 ^ i else 0)) 0)

/-- The number of set bits of a number below 2^n. -/
def countBits (x n : Nat) : Nat := ((List.range n).filter fun i => x.testBit i).length

end Sys2Proof.Machine
end

