-- ==== Sys2Proof/WellFormed.lean ====
section
/-! DEFINITION. Which instructions are well formed: what the operand types of `Instr` do not already rule out.
For a word the checks are conditions 2 and 5 of R71; for an engine command they are those of R80. -/

namespace Sys2Proof

/-- The lower register of a pair is even (R56). -/
def isPair (r : Reg) : Bool := r.val % 2 == 0

/-- A quadruple is named by 0 or 4 (R56). -/
def isQuad (r : Reg) : Bool := r.val % 4 == 0

/-- Condition 5 of R71, when the fields of a word do not name the pairs and quadruples they must. -/
def need5 (ok : Bool) : Option (BitVec 3) := if ok then none else some 5

/-- Condition 2 of R71, when a sub-operation field holds a value not defined together with the others. -/
def need2 (ok : Bool) : Option (BitVec 3) := if ok then none else some 2

/-- A vector special function names pairs, a scalar one does not (R145). -/
def sfuPairs (vec : Bool) (d : Reg) (a : Src) : Option (BitVec 3) := need5 (!vec || (isPair d && isPair a.reg))

/-- An untaken g0 stands for a source that the word does not use. -/
def isNoSrc (a : Src) : Bool := a.reg == 0 && !a.take

/-- VPERM uses B for the patterns of two pairs only (R134). -/
def PermOp.usesB : PermOp → Bool
  | .rev | .swap => false
  | .ziplo | .ziphi | .even | .odd => true

/-- RM is a field of these conversions only (R140). -/
def VCvtOp.rounds : VCvtOp → Bool
  | .f32bf16 | .f32f16 | .f32i32 | .i32f32 | .f32i8 => true
  | .bf16f32 | .f16f32 | .f32t8 | .t8f32 | .i8f32 => false

/-- RM is a field of these conversions only (R143). -/
def FCvtOp.rounds : FCvtOp → Bool
  | .f64f32 | .f32f16 | .f32bf16 | .f32i64 | .f64i64 | .i64f32 | .i64f64 | .f32i32 | .f64i32 => true
  | .f32f64 | .f16f32 | .bf16f32 | .f32t8 | .t8f32 | .f32t6 | .t6f32 => false

/-- A field the word does not use holds zero (condition 3 of R71). -/
def need3 (ok : Bool) : Option (BitVec 3) := if ok then none else some 3

/-- An engine command that a queue may take: CKIND, CSC and bit 240 are legal (R80). -/
def CmdArgs.legal (c : CmdArgs) : Bool := c.ckind != 3 && c.csc.toNat ≤ 4 && !c.bit240

/-- A command that R80 does not refuse; 7 stands for a refused one. -/
def needCmd (c : CmdArgs) : Option (BitVec 3) := if c.legal then none else some 7

/-- The first condition of R71 that the operands of an instruction fail, `none` for a well-formed instruction.
`illegalOpcode` stands for a word that is no instruction, and is never well formed. -/
def wfCond : Instr → Option (BitVec 3)
  | .add _ _ _ _ => none
  | .sub _ _ _ _ => none
  | .addi _ _ _ _ => none
  | .mul _ _ _ _ => none
  | .mulh _ _ _ _ => none
  | .mulhu _ _ _ _ => none
  | .div _ _ _ _ => none
  | .divu _ _ _ _ => none
  | .rem _ _ _ _ => none
  | .remu _ _ _ _ => none
  | .and _ _ _ _ => none
  | .or _ _ _ _ => none
  | .xor _ _ _ _ => none
  | .andn _ _ _ _ => none
  | .shl _ _ _ _ => none
  | .shr _ _ _ _ => none
  | .sar _ _ _ _ => none
  | .rot _ _ _ _ => none
  | .min _ _ _ _ => none
  | .max _ _ _ _ => none
  | .minu _ _ _ _ => none
  | .maxu _ _ _ _ => none
  | .abs _ _ _ => none
  | .clz _ _ _ => none
  | .ctz _ _ _ => none
  | .popc _ _ _ => none
  | .bext _ _ _ _ => none
  | .bins _ _ _ _ _ => none
  | .sext _ _ _ _ => none
  | .zext _ _ _ _ => none
  | .sel _ _ _ _ _ => none
  | .ldi _ _ _ => none
  | .ldih _ _ _ => none
  | .addpc _ _ _ => none
  | .fatset _ _ _ _ => none
  | .fatget _ _ _ => none
  | .andi _ _ _ _ => none
  | .ori _ _ _ _ => none
  | .xori _ _ _ _ => none
  | .shli _ _ _ _ => none
  | .shri _ _ _ _ => none
  | .sari _ _ _ _ => none
  | .cmp _ _ _ _ _ _ => none
  | .cmpi _ _ _ _ _ _ => none
  | .tst _ _ _ _ _ _ => none
  | .fcmp _ _ _ _ _ _ _ => none
  | .pset _ _ _ _ _ _ => none
  | .pmov _ _ _ _ => none
  | .pcnt _ _ _ => none
  | .br _ _ => none
  | .brl _ _ _ => none
  | .jr _ _ => none
  | .jrl _ _ _ => none
  | .loop _ _ _ => none
  | .waitInbox _ => none
  | .waitFull _ _ => none
  | .waitTime _ _ => none
  | .yield _ => none
  | .nop _ => none
  | .illegalOpcode _ c => some c
  | .vadd _ _ _ d a b => need5 (isPair d && isPair a.reg && isPair b.reg)
  | .vsub _ _ _ d a b => need5 (isPair d && isPair a.reg && isPair b.reg)
  | .vmul _ _ _ d a b => need5 (isPair d && isPair a.reg && isPair b.reg)
  | .vmin _ _ _ d a b => need5 (isPair d && isPair a.reg && isPair b.reg)
  | .vmax _ _ _ d a b => need5 (isPair d && isPair a.reg && isPair b.reg)
  | .vand _ _ d a b => need5 (isPair d && isPair a.reg && isPair b.reg)
  | .vor _ _ d a b => need5 (isPair d && isPair a.reg && isPair b.reg)
  | .vxor _ _ d a b => need5 (isPair d && isPair a.reg && isPair b.reg)
  | .vandn _ _ d a b => need5 (isPair d && isPair a.reg && isPair b.reg)
  | .vshl _ _ d a b => need5 (isPair d && isPair a.reg && isPair b.reg)
  | .vshr _ _ d a b => need5 (isPair d && isPair a.reg && isPair b.reg)
  | .vsar _ _ d a b => need5 (isPair d && isPair a.reg && isPair b.reg)
  | .vshuf _ _ d a b cc => need5 (isPair d && isPair a.reg && isPair b.reg && isPair cc.reg)
  | .vperm _ op _ d a b => (need3 (op.usesB || isNoSrc b)).or (need5 (isPair d && isPair a.reg && isPair b.reg))
  | .vsplat _ _ d _ => need5 (isPair d)
  | .vext _ _ _ _ a _ => need5 (isPair a.reg)
  | .vins _ _ d _ _ => need5 (isPair d)
  | .vcmp _ _ _ _ a b => need5 (isPair a.reg && isPair b.reg)
  | .vfadd _ _ _ d a b => need5 (isPair d && isPair a.reg && isPair b.reg)
  | .vfsub _ _ _ d a b => need5 (isPair d && isPair a.reg && isPair b.reg)
  | .vfmul _ _ _ d a b => need5 (isPair d && isPair a.reg && isPair b.reg)
  | .vfma _ _ _ d a b cc => need5 (isPair d && isPair a.reg && isPair b.reg && isPair cc.reg)
  | .vfmin _ _ d a b => need5 (isPair d && isPair a.reg && isPair b.reg)
  | .vfmax _ _ d a b => need5 (isPair d && isPair a.reg && isPair b.reg)
  | .vdot _ _ d a b cc => need5 (isPair d && isPair a.reg && isPair b.reg && isPair cc.reg)
  | .vcvt _ op rm d a => (need3 (op.rounds || rm == .rne)).or (need5 (isPair d && isPair a.reg))
  | .fadd _ _ _ _ _ _ => none
  | .fsub _ _ _ _ _ _ => none
  | .fmul _ _ _ _ _ _ => none
  | .ffma _ _ _ _ _ _ _ => none
  | .fdiv _ _ _ _ _ _ _ => none
  | .fsqrt _ _ _ _ _ _ => none
  | .fmin _ _ _ _ _ => none
  | .fmax _ _ _ _ _ => none
  | .fcvt _ op rm _ _ => need3 (op.rounds || rm == .rne)
  | .fclass _ _ _ _ => none
  | .rcp _ _ vec d a => sfuPairs vec d a
  | .rsq _ _ vec d a => sfuPairs vec d a
  | .exp2 _ _ vec d a => sfuPairs vec d a
  | .log2 _ _ vec d a => sfuPairs vec d a
  | .sin _ _ vec d a => sfuPairs vec d a
  | .cos _ _ vec d a => sfuPairs vec d a
  | .tanh _ _ vec d a => sfuPairs vec d a
  | .ld _ _ _ _ _ _ => none
  | .st _ _ _ _ _ => none
  | .ldv _ _ d _ _ => need5 (isPair d)
  | .stv _ _ b _ => need5 (isPair b.reg)
  | .ldt _ _ _ _ _ _ => none
  | .stt _ _ _ _ _ => none
  | .ldAcq _ _ _ _ _ _ => none
  | .stRel _ _ _ _ _ _ => none
  | .amo _ _ _ _ _ _ _ _ _ => none
  | .fence _ _ _ => none
  | .pref _ _ _ _ => none
  | .clean _ _ _ _ => none
  | .inv _ _ _ _ => none
  | .discard _ _ _ _ => none
  | .send _ n _ b => need2 (b.reg.val + n.toNat ≤ 7)
  | .dep _ _ _ _ => none
  | .recv _ d => need5 (isQuad d)
  | .qred _ _ _ _ _ => none
  | .rget _ _ _ _ _ _ _ => none
  | .spawn _ _ _ _ => none
  | .quit _ => none
  | .quitDone _ => none
  | .mig _ _ => none
  | .self _ _ _ => none
  | .fset _ m => need2 (m != 0)
  | .fclr _ m => need2 (m != 0)
  | .evsnd _ _ _ _ _ => none
  | .evarm _ _ _ _ _ => none
  | .evstep _ _ _ _ => none
  | .evrdMem _ _ _ => none
  | .evrdStep _ _ _ => none
  | .evrdLate _ _ _ => none
  | .evwr _ _ _ _ => none
  | .evcfg _ _ _ _ => none
  | .evcfgClr _ _ _ _ => none
  | .fenceEv _ => none
  | .post _ _ _ _ a => need5 (isQuad a.reg)
  | .postw _ _ _ a => need5 (isQuad a.reg)
  | .talloc _ _ _ _ => none
  | .tfree _ _ _ => none
  | .tinfo _ _ _ => none
  | .trap _ _ _ => none
  | .resume _ _ _ => none
  | .csrr _ _ _ => none
  | .csrw _ _ _ _ => none
  | .csrs _ _ _ _ => none
  | .csrc _ _ _ _ => none
  | .tlbinvRange _ sc _ _ => need2 (sc != .ctx)
  | .tlbinvAll _ sc => need2 (sc != .ctx)
  | .evictL2 _ _ _ => none
  | .evictMem _ _ _ => none
  | .time _ _ => none
  | .bkpt _ => none
  | .launch _ _ _ => none
  | .cancelLaunch _ _ _ => none
  | .cancelJob _ _ _ => none
  | .maskclr _ => none
  | .tload c => needCmd c
  | .tstore c => needCmd c
  | .tcopy c => needCmd c
  | .tgather c => needCmd c
  | .tscadd c => needCmd c
  | .tfill c => needCmd c
  | .ttrans c => needCmd c
  | .pool c => needCmd c
  | .rowadd c => needCmd c
  | .evstream c => needCmd c
  | .mma c => needCmd c
  | .mmag c => needCmd c
  | .quant c => needCmd c
  | .dequant c => needCmd c
  | .tadd c => needCmd c
  | .tsub c => needCmd c
  | .tmul c => needCmd c
  | .tmax c => needCmd c
  | .tscale c => needCmd c
  | .tact c => needCmd c
  | .trowred c => needCmd c
  | .tsoftmax c => needCmd c
  | .commandAccept _ _ => none
  | .postRetry _ _ => none
  | .gangTicketGrant _ _ => none
  | .gangSliceStart _ _ => none
  | .gangSliceEnd _ _ => none
  | .rowCacheHalving _ => none
  | .lineWrite _ => none
  | .deferredFault _ => none
  | .loadRemoteHome _ => none
  | .poisonedData _ => none
  | .replayReissue  => none
  | .sfuComplete _ => none
  | .sfuHoldExpire _ _ => none
  | .divideComplete _ => none
  | .reducerPop _ => none
  | .qredRestart  => none
  | .fetchFault  => none
  | .fetchArrive _ => none
  | .orderingComplete _ => none
  | .messageDelivery _ _ => none
  | .depositDelivery _ _ => none
  | .sendRetry _ _ => none
  | .timeWaitExpire _ => none
  | .rgetTimeout _ => none
  | .slotSelect _ _ _ => none
  | .claim _ _ _ _ => none
  | .swapLoad _ _ _ => none
  | .backlogFill _ => none
  | .arrivalAccept _ => none
  | .agingStep _ _ _ => none
  | .spawnRequest _ => none
  | .eventAccept _ _ => none
  | .stepClose _ => none
  | .groupClear _ => none
  | .eventMerge _ _ _ _ => none
  | .amoMerge _ _ => none
  | .tokenRefill _ _ => none
  | .switchPowerDown _ => none
  | .switchWake _ => none
  | .switchPowerUp _ => none
  | .bulkLanePowerDown _ => none
  | .linkCrcError _ => none
  | .laneRetire _ => none
  | .allLinksDown _ => none
  | .dusetLinkLoss _ _ => none
  | .dieReset _ _ => none
  | .dieDrainEnd _ => none
  | .dieDrainDeadline _ => none
  | .dieRejoin _ _ => none
  | .mapOutCluster _ => none
  | .retireHbmChannel _ _ => none
  | .readCounters _ => none
  | .readErrorRecords  => none
  | .readBringupParameters  => none
  | .setPowerLimit _ => none
  | .enrolKeyPair _ _ => none
  | .withdrawKeyPair _ _ => none
  | .attest _ => none
  | .submissionWrite _ _ _ => none
  | .startRequest _ _ _ => none
  | .hostHdmAccess _ _ => none
  | .trapRingWrite _ _ => none
  | .secverFuseWrite _ => none
  | .arrivalLimitWrite _ _ => none
  | .tenantWeightWrite _ _ => none
  | .correctedError _ _ _ => none
  | .recurringCorrectedError _ _ _ => none
  | .scrubUncorrectable _ => none
  | .powerAlarmRise _ => none
  | .powerAlarmClear _ => none
  | .coldReset  => none
  | .timeBaseTick  => none
  | .bootStage0 _ => none
  | .bootStage1 _ _ => none
  | .bootStage2 _ _ _ _ => none
  | .engineCommandEnd _ _ _ => none
  | .groupRequestAtBank _ => none
  | .handleTableRequest _ _ => none
  | .requestAtLineOwner _ => none
  | .rangeOperationEnd _ => none
  | .contextL1Fill _ _ _ => none
  | .bulkLaneWake _ => none
  | .bulkLanePowerUp _ => none
  | .linkPlaneDown _ _ => none

/-- A well-formed instruction: one whose word or command the device runs as that instruction. -/
def wellFormed (i : Instr) : Bool := (wfCond i).isNone

end Sys2Proof
end

