-- ==== Sys2Proof/Decode.lean ====
section
/-! DEFINITION. Decoding and encoding of instruction words (R53 to R77) and engine command words (R78 to R80).
`decodeWord` is total: a word that is no instruction decodes to `illegalOpcode` with the lowest-numbered condition of R71 that it
fails. The encoder stands after the decoder and is written from the same tables. -/

namespace Sys2Proof

/-! ### Field codes -/

/-- A source operand as its four bits: the take bit above the register number (R55). -/
def Src.bits (a : Src) : BitVec 4 := BitVec.ofBool a.take ++ (BitVec.ofFin a.reg : BitVec 3)

/-- A register number as its three bits. -/
def regBits (r : Fin 8) : BitVec 3 := BitVec.ofFin r

/-- The source that a word does not use: g0 untaken, all bits zero. -/
def Src.zero : Src := ⟨0, false⟩

/-- SZ of SEXT and ZEXT (R102): the code of a value. -/
def ExtWidth.code : ExtWidth → BitVec 2
  | .i8 => 0 | .i16 => 1 | .i32 => 2
/-- SZ of SEXT and ZEXT (R102): the value of a code, none for a reserved one. -/
def ExtWidth.ofCode (x : BitVec 2) : Option ExtWidth :=
  match x.toNat with
  | 0 => some .i8 | 1 => some .i16 | 2 => some .i32
  | _ => none
/-- CM (R61): the code of a value. -/
def Combine.code : Combine → BitVec 2
  | .replace => 0 | .and => 1 | .or => 2 | .xor => 3
/-- CM (R61): the value of a code, none for a reserved one. -/
def Combine.ofCode (x : BitVec 2) : Option Combine :=
  match x.toNat with
  | 0 => some .replace | 1 => some .and | 2 => some .or | 3 => some .xor
  | _ => none
/-- CC (R73): the code of a value. -/
def IntCond.code : IntCond → BitVec 4
  | .eq => 0 | .ne => 1 | .lt => 2 | .le => 3 | .gt => 4 | .ge => 5 | .ltu => 6 | .leu => 7 | .gtu => 8 | .geu => 9
/-- CC (R73): the value of a code, none for a reserved one. -/
def IntCond.ofCode (x : BitVec 4) : Option IntCond :=
  match x.toNat with
  | 0 => some .eq | 1 => some .ne | 2 => some .lt | 3 => some .le | 4 => some .gt | 5 => some .ge | 6 => some .ltu | 7 => some .leu | 8 => some .gtu | 9 => some .geu
  | _ => none
/-- CC (R74): the code of a value. -/
def FloatCond.code : FloatCond → BitVec 4
  | .eq => 0 | .ne => 1 | .lt => 2 | .le => 3 | .gt => 4 | .ge => 5 | .un => 6 | .ord => 7
/-- CC (R74): the value of a code, none for a reserved one. -/
def FloatCond.ofCode (x : BitVec 4) : Option FloatCond :=
  match x.toNat with
  | 0 => some .eq | 1 => some .ne | 2 => some .lt | 3 => some .le | 4 => some .gt | 5 => some .ge | 6 => some .un | 7 => some .ord
  | _ => none
/-- SZ (R141): the code of a value. -/
def FScalar.code : FScalar → BitVec 2
  | .f32 => 2 | .f64 => 3
/-- SZ (R141): the value of a code, none for a reserved one. -/
def FScalar.ofCode (x : BitVec 2) : Option FScalar :=
  match x.toNat with
  | 2 => some .f32 | 3 => some .f64
  | _ => none
/-- FN of PMOV (R113): the code of a value. -/
def PMovForm.code : PMovForm → BitVec 3
  | .predFromPred => 0 | .predFromReg => 1 | .regFromPred => 2
/-- FN of PMOV (R113): the value of a code, none for a reserved one. -/
def PMovForm.ofCode (x : BitVec 3) : Option PMovForm :=
  match x.toNat with
  | 0 => some .predFromPred | 1 => some .predFromReg | 2 => some .regFromPred
  | _ => none
/-- SZ (R58): the code of a value. -/
def ElemSize.code : ElemSize → BitVec 2
  | .i8 => 0 | .i16 => 1 | .i32 => 2 | .i64 => 3
/-- SZ (R58): the value of a code, none for a reserved one. -/
def ElemSize.ofCode (x : BitVec 2) : Option ElemSize :=
  match x.toNat with
  | 0 => some .i8 | 1 => some .i16 | 2 => some .i32 | 3 => some .i64
  | _ => none
/-- FN of VADD and VSUB (R131): the code of a value. -/
def SatOp.code : SatOp → BitVec 4
  | .wrap => 0 | .sat => 1 | .usat => 2
/-- FN of VADD and VSUB (R131): the value of a code, none for a reserved one. -/
def SatOp.ofCode (x : BitVec 4) : Option SatOp :=
  match x.toNat with
  | 0 => some .wrap | 1 => some .sat | 2 => some .usat
  | _ => none
/-- FN of VMUL (R131): the code of a value. -/
def MulPart.code : MulPart → BitVec 4
  | .lo => 0 | .hi => 1 | .hiu => 2
/-- FN of VMUL (R131): the value of a code, none for a reserved one. -/
def MulPart.ofCode (x : BitVec 4) : Option MulPart :=
  match x.toNat with
  | 0 => some .lo | 1 => some .hi | 2 => some .hiu
  | _ => none
/-- FN of VPERM (R134): the code of a value. -/
def PermOp.code : PermOp → BitVec 4
  | .rev => 0 | .swap => 1 | .ziplo => 2 | .ziphi => 3 | .even => 4 | .odd => 5
/-- FN of VPERM (R134): the value of a code, none for a reserved one. -/
def PermOp.ofCode (x : BitVec 4) : Option PermOp :=
  match x.toNat with
  | 0 => some .rev | 1 => some .swap | 2 => some .ziplo | 3 => some .ziphi | 4 => some .even | 5 => some .odd
  | _ => none
/-- FN of VCVT (R140): the code of a value. -/
def VCvtOp.code : VCvtOp → BitVec 4
  | .f32bf16 => 0 | .f32f16 => 1 | .bf16f32 => 2 | .f16f32 => 3 | .f32i32 => 4 | .i32f32 => 5 | .f32t8 => 6 | .t8f32 => 7 | .f32i8 => 8 | .i8f32 => 9
/-- FN of VCVT (R140): the value of a code, none for a reserved one. -/
def VCvtOp.ofCode (x : BitVec 4) : Option VCvtOp :=
  match x.toNat with
  | 0 => some .f32bf16 | 1 => some .f32f16 | 2 => some .bf16f32 | 3 => some .f16f32 | 4 => some .f32i32 | 5 => some .i32f32 | 6 => some .f32t8 | 7 => some .t8f32 | 8 => some .f32i8 | 9 => some .i8f32
  | _ => none
/-- FN of FCVT (R143): the code of a value. -/
def FCvtOp.code : FCvtOp → BitVec 4
  | .f64f32 => 0 | .f32f64 => 1 | .f32f16 => 2 | .f16f32 => 3 | .f32bf16 => 4 | .bf16f32 => 5 | .f32i64 => 6 | .f64i64 => 7 | .i64f32 => 8 | .i64f64 => 9 | .f32i32 => 10 | .f64i32 => 11 | .f32t8 => 12 | .t8f32 => 13 | .f32t6 => 14 | .t6f32 => 15
/-- FN of FCVT (R143): the value of a code, none for a reserved one. -/
def FCvtOp.ofCode (x : BitVec 4) : Option FCvtOp :=
  match x.toNat with
  | 0 => some .f64f32 | 1 => some .f32f64 | 2 => some .f32f16 | 3 => some .f16f32 | 4 => some .f32bf16 | 5 => some .bf16f32 | 6 => some .f32i64 | 7 => some .f64i64 | 8 => some .i64f32 | 9 => some .i64f64 | 10 => some .f32i32 | 11 => some .f64i32 | 12 => some .f32t8 | 13 => some .t8f32 | 14 => some .f32t6 | 15 => some .t6f32
  | _ => none
/-- RM (R35): the code of a value. -/
def Rounding.code : Rounding → BitVec 2
  | .rne => 0 | .rtz => 1 | .rup => 2 | .rdn => 3
/-- RM (R35): the value of a code, none for a reserved one. -/
def Rounding.ofCode (x : BitVec 2) : Option Rounding :=
  match x.toNat with
  | 0 => some .rne | 1 => some .rtz | 2 => some .rup | 3 => some .rdn
  | _ => none
/-- FN of LD and LD.acq (R75): the code of a value. -/
def LoadWidth.code : LoadWidth → BitVec 4
  | .u8 => 0 | .u16 => 1 | .u32 => 2 | .u64 => 3 | .s8 => 4 | .s16 => 5 | .s32 => 6
/-- FN of LD and LD.acq (R75): the value of a code, none for a reserved one. -/
def LoadWidth.ofCode (x : BitVec 4) : Option LoadWidth :=
  match x.toNat with
  | 0 => some .u8 | 1 => some .u16 | 2 => some .u32 | 3 => some .u64 | 4 => some .s8 | 5 => some .s16 | 6 => some .s32
  | _ => none
/-- FN of ST and ST.rel (R75): the code of a value. -/
def StoreWidth.code : StoreWidth → BitVec 4
  | .b8 => 0 | .b16 => 1 | .b32 => 2 | .b64 => 3
/-- FN of ST and ST.rel (R75): the value of a code, none for a reserved one. -/
def StoreWidth.ofCode (x : BitVec 4) : Option StoreWidth :=
  match x.toNat with
  | 0 => some .b8 | 1 => some .b16 | 2 => some .b32 | 3 => some .b64
  | _ => none
/-- FN of AMO (R76): the code of a value. -/
def AmoOp.code : AmoOp → BitVec 4
  | .add => 0 | .min => 1 | .max => 2 | .and => 3 | .or => 4 | .xor => 5 | .swp => 6 | .cas => 7 | .minu => 8 | .maxu => 9
/-- FN of AMO (R76): the value of a code, none for a reserved one. -/
def AmoOp.ofCode (x : BitVec 4) : Option AmoOp :=
  match x.toNat with
  | 0 => some .add | 1 => some .min | 2 => some .max | 3 => some .and | 4 => some .or | 5 => some .xor | 6 => some .swp | 7 => some .cas | 8 => some .minu | 9 => some .maxu
  | _ => none
/-- ORD (R72): the code of a value. -/
def Order.code : Order → BitVec 2
  | .none => 0 | .acquire => 1 | .release => 2 | .acqRel => 3
/-- ORD (R72): the value of a code, none for a reserved one. -/
def Order.ofCode (x : BitVec 2) : Option Order :=
  match x.toNat with
  | 0 => some .none | 1 => some .acquire | 2 => some .release | 3 => some .acqRel
  | _ => none
/-- SCOPE (R72): the code of a value. -/
def Scope.code : Scope → BitVec 3
  | .ctx => 0 | .cl => 1 | .die => 2 | .pkg => 3 | .sys => 4
/-- SCOPE (R72): the value of a code, none for a reserved one. -/
def Scope.ofCode (x : BitVec 3) : Option Scope :=
  match x.toNat with
  | 0 => some .ctx | 1 => some .cl | 2 => some .die | 3 => some .pkg | 4 => some .sys
  | _ => none
/-- FN of QRED (R171): the code of a value. -/
def RedKind.code : RedKind → BitVec 4
  | .i64 => 0 | .f64 => 1 | .f32 => 2
/-- FN of QRED (R171): the value of a code, none for a reserved one. -/
def RedKind.ofCode (x : BitVec 4) : Option RedKind :=
  match x.toNat with
  | 0 => some .i64 | 1 => some .f64 | 2 => some .f32
  | _ => none
/-- FN of SELF (R177): the code of a value. -/
def SelfFact.code : SelfFact → BitVec 4
  | .handle => 0 | .ident => 1 | .loc => 2 | .inbox => 3
/-- FN of SELF (R177): the value of a code, none for a reserved one. -/
def SelfFact.ofCode (x : BitVec 4) : Option SelfFact :=
  match x.toNat with
  | 0 => some .handle | 1 => some .ident | 2 => some .loc | 3 => some .inbox
  | _ => none
/-- SZ and FN of the vector float instructions (R137). -/
def VFloat.szCode : VFloat → BitVec 2
  | .f16 | .bf16 => 1 | .f32 => 2
/-- SZ and FN of the vector float instructions (R137). -/
def VFloat.fnCode : VFloat → BitVec 4
  | .f16 | .f32 => 0 | .bf16 => 1
/-- The lane format of SZ and FN, none for a reserved combination (R137). -/
def VFloat.ofCodes (sz : BitVec 2) (fn : BitVec 4) : Option VFloat :=
  match sz.toNat, fn.toNat with
  | 1, 0 => some .f16 | 1, 1 => some .bf16 | 2, 0 => some .f32
  | _, _ => none

/-- FK of VCMP (R136). -/
def VCmpKind.fkCode : VCmpKind → BitVec 2
  | .int _ _ => 0 | .flt .f16 _ => 1 | .flt .bf16 _ => 2 | .flt .f32 _ => 3
/-- SZ of VCMP (R136). -/
def VCmpKind.szCode : VCmpKind → BitVec 2
  | .int sz _ => sz.code | .flt f _ => f.szCode
/-- CC of VCMP (R136). -/
def VCmpKind.ccCode : VCmpKind → BitVec 4
  | .int _ cc => cc.code | .flt _ cc => cc.code
/-- The kind that FK, SZ and CC form, none for a reserved combination (R136). -/
def VCmpKind.ofCodes (fk sz : BitVec 2) (cc : BitVec 4) : Option VCmpKind :=
  match fk.toNat, sz.toNat with
  | 0, _ => (ElemSize.ofCode sz).bind fun s => (IntCond.ofCode cc).map fun k => .int s k
  | 1, 1 => (FloatCond.ofCode cc).map fun k => .flt .f16 k
  | 2, 1 => (FloatCond.ofCode cc).map fun k => .flt .bf16 k
  | 3, 2 => (FloatCond.ofCode cc).map fun k => .flt .f32 k
  | _, _ => none

/-! ### Fields of a word -/

/-- Bits [lo+n-1 : lo] of a word. -/
def bitsAt (w : Word) (lo n : Nat) : BitVec n := w.extractLsb' lo n
/-- The register field at bit lo. -/
def regAt (w : Word) (lo : Nat) : Fin 8 := (bitsAt w lo 3).toFin
/-- The source field whose register number is at bit lo, its take bit above it. -/
def srcAt (w : Word) (lo : Nat) : Src := ⟨regAt w lo, w.getLsbD (lo + 3)⟩
/-- The major opcode (R53). -/
def opcAt (w : Word) : BitVec 8 := bitsAt w 35 8
/-- The guard fields (R53). -/
def guardAt (w : Word) : Guard := ⟨bitsAt w 56 8, regAt w 53, regAt w 50, regAt w 47⟩
/-- The lookahead count (R53). -/
def laAt (w : Word) : BitVec 4 := bitsAt w 43 4

/-- The operand fields of a word, read in every format at once; each instruction uses those of its own format (R55). -/
structure Fields where
  g : Guard
  la : BitVec 4
  /-- D of formats R, I, L, B and M. -/
  d : Reg
  /-- A of formats R, I and M. -/
  a : Src
  /-- B of formats R and M. -/
  b : Src
  /-- C of format R. -/
  c : Src
  /-- FN of format R. -/
  fn : BitVec 4
  sz : BitVec 2
  rm : BitVec 2
  /-- The 28-bit immediate of format I. -/
  imm28 : BitVec 28
  /-- The 32 low bits: IMM of format L, OFF of format B. -/
  imm32 : BitVec 32
  /-- FN of format M. -/
  mfn : BitVec 4
  ord : BitVec 2
  scope : BitVec 3
  /-- OFF of format M. -/
  off15 : BitVec 15
  /-- PK and CM of formats P and PI. -/
  pk : BitVec 2
  cm : BitVec 2
  /-- A of formats P and PI, B of format P. -/
  pa : Src
  pb : Src
  /-- CC and SZ of format P, FK of VCMP. -/
  pcc : BitVec 4
  psz : BitVec 2
  pfk : BitVec 2
  /-- CC and IMM of format PI. -/
  picc : BitVec 4
  imm23 : BitVec 23
  /-- X, Y, Z, W, TBL and FN of format PL. -/
  x : Reg
  y : Reg
  z : Reg
  v : Reg
  tbl : BitVec 8
  lfn : BitVec 3

/-- Every field of a word (R53, R55, R136). -/
def Fields.ofWord (w : Word) : Fields where
  g := guardAt w
  la := laAt w
  d := regAt w 32
  a := srcAt w 28
  b := srcAt w 24
  c := srcAt w 20
  fn := bitsAt w 16 4
  sz := bitsAt w 14 2
  rm := bitsAt w 12 2
  imm28 := bitsAt w 0 28
  imm32 := bitsAt w 0 32
  mfn := bitsAt w 20 4
  ord := bitsAt w 18 2
  scope := bitsAt w 15 3
  off15 := bitsAt w 0 15
  pk := bitsAt w 33 2
  cm := bitsAt w 31 2
  pa := srcAt w 27
  pb := srcAt w 23
  pcc := bitsAt w 19 4
  psz := bitsAt w 17 2
  pfk := bitsAt w 15 2
  picc := bitsAt w 23 4
  imm23 := bitsAt w 0 23
  x := regAt w 32
  y := regAt w 29
  z := regAt w 26
  v := regAt w 23
  tbl := bitsAt w 15 8
  lfn := bitsAt w 12 3

/-! ### The decoder -/

/-- An instruction that needs one field to hold a defined value; condition 2 of R71 otherwise. -/
def sub1 {α : Type} (o : Option α) (k : α → Instr) : Except (BitVec 3) Instr :=
  match o with
  | some x => .ok (k x)
  | none => .error 2

/-- As `sub1` for two fields. -/
def sub2 {α β : Type} (o : Option α) (q : Option β) (k : α → β → Instr) : Except (BitVec 3) Instr :=
  match o, q with
  | some x, some y => .ok (k x y)
  | _, _ => .error 2

/-- As `sub1` for three fields. -/
def sub3 {α β γ : Type} (o : Option α) (q : Option β) (r : Option γ) (k : α → β → γ → Instr) : Except (BitVec 3) Instr :=
  match o, q, r with
  | some x, some y, some z => .ok (k x y z)
  | _, _, _ => .error 2

/-- As `sub1` for four fields. -/
def sub4 {α β γ δ : Type} (o : Option α) (q : Option β) (r : Option γ) (t : Option δ) (k : α → β → γ → δ → Instr) :
    Except (BitVec 3) Instr :=
  match o, q, r, t with
  | some x, some y, some z, some u => .ok (k x y z u)
  | _, _, _, _ => .error 2

/-- A one-bit sub-operation field held in n bits: 0 and 1 are defined. -/
def flagCode {n : Nat} (x : BitVec n) : Option Bool :=
  match x.toNat with
  | 0 => some false | 1 => some true | _ => none

/-- The predicate or register number in FN[2:0], FN[3] reserved (R104, R166, R173). -/
def fnReg (x : BitVec 4) : Option (Fin 8) := if x.getLsbD 3 then none else some (x.extractLsb' 0 3).toFin

/-- FN of POST and POSTW: 0 plain, 2 release (R179). -/
def relCode (x : BitVec 4) : Option Bool :=
  match x.toNat with
  | 0 => some false | 2 => some true | _ => none

/-- SZ of AMO in OFF[14:13]: 2 is 32 bits and 3 is 64 bits (R159). -/
def amoWide (x : BitVec 15) : Option Bool :=
  match (x.extractLsb' 13 2).toNat with
  | 2 => some false | 3 => some true | _ => none

/-- Scopes 1 to 4, which TLBINV takes (R230). -/
def tlbScope (x : BitVec 3) : Option Scope := if x = 0 then none else Scope.ofCode x

/-- The integer, address and predicate opcodes, 0x00 to 0x4F (R70); an unassigned opcode fails condition 1 of R71. -/
def decodeInteger (opc : Nat) (f : Fields) : Except (BitVec 3) Instr :=
  match opc with
  | 0x01 => .ok (.add f.g f.d f.a f.b)
  | 0x02 => .ok (.sub f.g f.d f.a f.b)
  | 0x03 => .ok (.addi f.g f.d f.a f.imm28)
  | 0x04 => .ok (.mul f.g f.d f.a f.b)
  | 0x05 => .ok (.mulh f.g f.d f.a f.b)
  | 0x06 => .ok (.mulhu f.g f.d f.a f.b)
  | 0x07 => .ok (.div f.g f.d f.a f.b)
  | 0x08 => .ok (.divu f.g f.d f.a f.b)
  | 0x09 => .ok (.rem f.g f.d f.a f.b)
  | 0x0A => .ok (.remu f.g f.d f.a f.b)
  | 0x0B => .ok (.and f.g f.d f.a f.b)
  | 0x0C => .ok (.or f.g f.d f.a f.b)
  | 0x0D => .ok (.xor f.g f.d f.a f.b)
  | 0x0E => .ok (.andn f.g f.d f.a f.b)
  | 0x0F => .ok (.shl f.g f.d f.a f.b)
  | 0x10 => .ok (.shr f.g f.d f.a f.b)
  | 0x11 => .ok (.sar f.g f.d f.a f.b)
  | 0x12 => .ok (.rot f.g f.d f.a f.b)
  | 0x13 => .ok (.min f.g f.d f.a f.b)
  | 0x14 => .ok (.max f.g f.d f.a f.b)
  | 0x15 => .ok (.minu f.g f.d f.a f.b)
  | 0x16 => .ok (.maxu f.g f.d f.a f.b)
  | 0x17 => .ok (.abs f.g f.d f.a)
  | 0x18 => .ok (.clz f.g f.d f.a)
  | 0x19 => .ok (.ctz f.g f.d f.a)
  | 0x1A => .ok (.popc f.g f.d f.a)
  | 0x1B => .ok (.bext f.g f.d f.a f.b)
  | 0x1C => .ok (.bins f.g f.d f.a f.b f.c)
  | 0x1D => sub1 (ExtWidth.ofCode f.sz) fun s => .sext f.g s f.d f.a
  | 0x1E => sub1 (ExtWidth.ofCode f.sz) fun s => .zext f.g s f.d f.a
  | 0x1F => sub1 (fnReg f.fn) fun k => .sel f.g k f.d f.a f.b
  | 0x20 => .ok (.ldi f.g f.d f.imm32)
  | 0x21 => .ok (.ldih f.g f.d f.imm32)
  | 0x22 => .ok (.addpc f.g f.d f.imm32)
  | 0x23 => .ok (.fatset f.g f.d f.a f.b)
  | 0x24 => .ok (.fatget f.g f.d f.a)
  | 0x25 => .ok (.andi f.g f.d f.a f.imm28)
  | 0x26 => .ok (.ori f.g f.d f.a f.imm28)
  | 0x27 => .ok (.xori f.g f.d f.a f.imm28)
  | 0x28 => .ok (.shli f.g f.d f.a (f.imm28.extractLsb' 0 6))
  | 0x29 => .ok (.shri f.g f.d f.a (f.imm28.extractLsb' 0 6))
  | 0x2A => .ok (.sari f.g f.d f.a (f.imm28.extractLsb' 0 6))
  | 0x40 => sub2 (Combine.ofCode f.cm) (IntCond.ofCode f.pcc) fun m k => .cmp f.g f.pk m k f.pa f.pb
  | 0x41 => sub2 (Combine.ofCode f.cm) (IntCond.ofCode f.picc) fun m k => .cmpi f.g f.pk m k f.pa f.imm23
  | 0x42 => sub2 (Combine.ofCode f.cm) (flagCode f.pcc) fun m k => .tst f.g f.pk m k f.pa f.pb
  | 0x43 => sub3 (Combine.ofCode f.cm) (FScalar.ofCode f.psz) (FloatCond.ofCode f.pcc) fun m s k => .fcmp f.g f.pk m s k f.pa f.pb
  | 0x44 => .ok (.pset f.g f.x f.y f.z f.v f.tbl)
  | 0x45 => sub1 (PMovForm.ofCode f.lfn) fun k => .pmov f.g k f.x f.y
  | 0x46 => .ok (.pcnt f.g f.x f.y)
  | _ => .error 1

/-- The control opcodes, 0x50 to 0x5F (R70); an unassigned opcode fails condition 1 of R71. -/
def decodeControl (opc : Nat) (f : Fields) : Except (BitVec 3) Instr :=
  match opc with
  | 0x50 => .ok (.br f.g f.imm32)
  | 0x51 => .ok (.brl f.g f.d f.imm32)
  | 0x52 => .ok (.jr f.g f.a)
  | 0x53 => .ok (.jrl f.g f.d f.a)
  | 0x54 => .ok (.loop f.g f.d f.imm32)
  | 0x55 => match f.fn.toNat with
    | 0 => .ok (.waitInbox f.g) | 1 => .ok (.waitFull f.g f.a) | 2 => .ok (.waitTime f.g f.a)
    | _ => .error 2
  | 0x56 => .ok (.yield f.g)
  | 0x57 => .ok (.nop f.g)
  | _ => .error 1

/-- The short-vector opcodes, 0x60 to 0x8F (R70); an unassigned opcode fails condition 1 of R71. -/
def decodeVector (opc : Nat) (f : Fields) : Except (BitVec 3) Instr :=
  match opc with
  | 0x60 => sub2 (SatOp.ofCode f.fn) (ElemSize.ofCode f.sz) fun p s => .vadd f.g p s f.d f.a f.b
  | 0x61 => sub2 (SatOp.ofCode f.fn) (ElemSize.ofCode f.sz) fun p s => .vsub f.g p s f.d f.a f.b
  | 0x62 => sub2 (MulPart.ofCode f.fn) (ElemSize.ofCode f.sz) fun p s => .vmul f.g p s f.d f.a f.b
  | 0x63 => sub2 (flagCode f.fn) (ElemSize.ofCode f.sz) fun p s => .vmin f.g p s f.d f.a f.b
  | 0x64 => sub2 (flagCode f.fn) (ElemSize.ofCode f.sz) fun p s => .vmax f.g p s f.d f.a f.b
  | 0x65 => sub1 (ElemSize.ofCode f.sz) fun s => .vand f.g s f.d f.a f.b
  | 0x66 => sub1 (ElemSize.ofCode f.sz) fun s => .vor f.g s f.d f.a f.b
  | 0x67 => sub1 (ElemSize.ofCode f.sz) fun s => .vxor f.g s f.d f.a f.b
  | 0x68 => sub1 (ElemSize.ofCode f.sz) fun s => .vandn f.g s f.d f.a f.b
  | 0x69 => sub1 (ElemSize.ofCode f.sz) fun s => .vshl f.g s f.d f.a f.b
  | 0x6A => sub1 (ElemSize.ofCode f.sz) fun s => .vshr f.g s f.d f.a f.b
  | 0x6B => sub1 (ElemSize.ofCode f.sz) fun s => .vsar f.g s f.d f.a f.b
  | 0x6C => sub1 (ElemSize.ofCode f.sz) fun s => .vshuf f.g s f.d f.a f.b f.c
  | 0x6D => sub2 (PermOp.ofCode f.fn) (ElemSize.ofCode f.sz) fun p s => .vperm f.g p s f.d f.a f.b
  | 0x6E => sub1 (ElemSize.ofCode f.sz) fun s => .vsplat f.g s f.d f.a
  | 0x6F => sub2 (flagCode f.fn) (ElemSize.ofCode f.sz) fun p s => .vext f.g p s f.d f.a f.b
  | 0x70 => sub1 (ElemSize.ofCode f.sz) fun s => .vins f.g s f.d f.a f.b
  | 0x71 => sub2 (Combine.ofCode f.cm) (VCmpKind.ofCodes f.pfk f.psz f.pcc) fun m k => .vcmp f.g f.pk m k f.pa f.pb
  | 0x72 => sub2 (VFloat.ofCodes f.sz f.fn) (Rounding.ofCode f.rm) fun t r => .vfadd f.g t r f.d f.a f.b
  | 0x73 => sub2 (VFloat.ofCodes f.sz f.fn) (Rounding.ofCode f.rm) fun t r => .vfsub f.g t r f.d f.a f.b
  | 0x74 => sub2 (VFloat.ofCodes f.sz f.fn) (Rounding.ofCode f.rm) fun t r => .vfmul f.g t r f.d f.a f.b
  | 0x75 => sub2 (VFloat.ofCodes f.sz f.fn) (Rounding.ofCode f.rm) fun t r => .vfma f.g t r f.d f.a f.b f.c
  | 0x76 => sub1 (VFloat.ofCodes f.sz f.fn) fun t => .vfmin f.g t f.d f.a f.b
  | 0x77 => sub1 (VFloat.ofCodes f.sz f.fn) fun t => .vfmax f.g t f.d f.a f.b
  | 0x78 => sub2 (if f.sz = 2 then some () else none) (Rounding.ofCode f.rm) fun _ r => .vdot f.g r f.d f.a f.b f.c
  | 0x79 => sub3 (if f.sz = 2 then some () else none) (VCvtOp.ofCode f.fn) (Rounding.ofCode f.rm) fun _ p r => .vcvt f.g p r f.d f.a
  | _ => .error 1

/-- The scalar float and special-function opcodes, 0x90 to 0xAF (R70); an unassigned opcode fails condition 1 of R71. -/
def decodeFloat (opc : Nat) (f : Fields) : Except (BitVec 3) Instr :=
  match opc with
  | 0x90 => sub2 (FScalar.ofCode f.sz) (Rounding.ofCode f.rm) fun t r => .fadd f.g t r f.d f.a f.b
  | 0x91 => sub2 (FScalar.ofCode f.sz) (Rounding.ofCode f.rm) fun t r => .fsub f.g t r f.d f.a f.b
  | 0x92 => sub2 (FScalar.ofCode f.sz) (Rounding.ofCode f.rm) fun t r => .fmul f.g t r f.d f.a f.b
  | 0x93 => sub2 (FScalar.ofCode f.sz) (Rounding.ofCode f.rm) fun t r => .ffma f.g t r f.d f.a f.b f.c
  | 0x94 => sub2 (FScalar.ofCode f.sz) (Rounding.ofCode f.rm) fun t r => .fdiv f.g f.la t r f.d f.a f.b
  | 0x95 => sub2 (FScalar.ofCode f.sz) (Rounding.ofCode f.rm) fun t r => .fsqrt f.g f.la t r f.d f.a
  | 0x96 => sub1 (FScalar.ofCode f.sz) fun t => .fmin f.g t f.d f.a f.b
  | 0x97 => sub1 (FScalar.ofCode f.sz) fun t => .fmax f.g t f.d f.a f.b
  | 0x98 => sub2 (FCvtOp.ofCode f.fn) (Rounding.ofCode f.rm) fun p r => .fcvt f.g p r f.d f.a
  | 0x99 => sub1 (FScalar.ofCode f.sz) fun t => .fclass f.g t f.d f.a
  | 0xA0 => sub1 (flagCode f.fn) fun v => .rcp f.g f.la v f.d f.a
  | 0xA1 => sub1 (flagCode f.fn) fun v => .rsq f.g f.la v f.d f.a
  | 0xA2 => sub1 (flagCode f.fn) fun v => .exp2 f.g f.la v f.d f.a
  | 0xA3 => sub1 (flagCode f.fn) fun v => .log2 f.g f.la v f.d f.a
  | 0xA4 => sub1 (flagCode f.fn) fun v => .sin f.g f.la v f.d f.a
  | 0xA5 => sub1 (flagCode f.fn) fun v => .cos f.g f.la v f.d f.a
  | 0xA6 => sub1 (flagCode f.fn) fun v => .tanh f.g f.la v f.d f.a
  | _ => .error 1

/-- The memory opcodes, 0xB0 to 0xCF (R70); an unassigned opcode fails condition 1 of R71. -/
def decodeMemory (opc : Nat) (f : Fields) : Except (BitVec 3) Instr :=
  match opc with
  | 0xB0 => sub1 (LoadWidth.ofCode f.mfn) fun w => .ld f.g f.la w f.d f.a f.off15
  | 0xB1 => sub1 (StoreWidth.ofCode f.mfn) fun w => .st f.g w f.a f.b f.off15
  | 0xB2 => .ok (.ldv f.g f.la f.d f.a f.off15)
  | 0xB3 => .ok (.stv f.g f.a f.b f.off15)
  | 0xB4 => .ok (.ldt f.g f.la f.d f.a f.b f.off15)
  | 0xB5 => .ok (.stt f.g f.d f.a f.b f.off15)
  | 0xB6 => sub2 (LoadWidth.ofCode f.mfn) (Scope.ofCode f.scope) fun w s => .ldAcq f.g w s f.d f.a f.off15
  | 0xB7 => sub2 (StoreWidth.ofCode f.mfn) (Scope.ofCode f.scope) fun w s => .stRel f.g w s f.a f.b f.off15
  | 0xB8 => sub4 (AmoOp.ofCode f.mfn) (amoWide f.off15) (Order.ofCode f.ord) (Scope.ofCode f.scope) fun p w r s =>
      .amo f.g f.la p w r s f.d f.a f.b
  | 0xB9 => sub2 (Order.ofCode f.ord) (Scope.ofCode f.scope) fun r s => .fence f.g r s
  | 0xBA => sub1 (flagCode f.mfn) fun p => .pref f.g p f.a f.off15
  | 0xBB => sub1 (Scope.ofCode f.scope) fun s => .clean f.g s f.a.reg f.b.reg
  | 0xBC => sub1 (Scope.ofCode f.scope) fun s => .inv f.g s f.a.reg f.b.reg
  | 0xBD => sub1 (Scope.ofCode f.scope) fun s => .discard f.g s f.a.reg f.b.reg
  | _ => .error 1

/-- The message and task opcodes, 0xD0 to 0xDF (R70); an unassigned opcode fails condition 1 of R71. -/
def decodeMessage (opc : Nat) (f : Fields) : Except (BitVec 3) Instr :=
  match opc with
  | 0xD0 => if f.fn.toNat < 4 then .ok (.send f.g (f.fn.extractLsb' 0 2) f.a f.b) else .error 2
  | 0xD1 => sub1 (fnReg f.fn) fun m => .dep f.g m f.a f.b
  | 0xD2 => .ok (.recv f.g f.d)
  | 0xD3 => sub1 (RedKind.ofCode f.fn) fun t => .qred f.g f.la t f.d f.a.reg
  | 0xD4 => sub1 (fnReg f.fn) fun m => .rget f.g f.la m f.sz f.d f.a f.b
  | 0xD5 => .ok (.spawn f.g f.d f.a f.b)
  | 0xD6 => sub1 (flagCode f.fn) fun q => if q then .quitDone f.g else .quit f.g
  | 0xD7 => .ok (.mig f.g f.a)
  | 0xD8 => sub1 (SelfFact.ofCode f.fn) fun k => .self f.g k f.d
  | 0xD9 => .ok (.fset f.g (f.imm32.extractLsb' 12 8))
  | 0xDA => .ok (.fclr f.g (f.imm32.extractLsb' 12 8))
  | _ => .error 1

/-- The event and engine opcodes, 0xE0 to 0xEF (R70); an unassigned opcode fails condition 1 of R71. -/
def decodeEvent (opc : Nat) (f : Fields) : Except (BitVec 3) Instr :=
  match opc with
  | 0xE0 => sub1 (flagCode f.fn) fun r => .evsnd f.g r f.a f.b f.c
  | 0xE1 => sub1 (flagCode f.fn) fun r => .evarm f.g r f.a f.b f.c
  | 0xE2 => .ok (.evstep f.g f.d f.a f.b)
  | 0xE3 => match f.fn.toNat with
    | 0 => .ok (.evrdMem f.g f.d f.a) | 1 => .ok (.evrdStep f.g f.d f.a) | 2 => .ok (.evrdLate f.g f.d f.a)
    | _ => .error 2
  | 0xE4 => .ok (.evwr f.g f.d f.a f.b)
  | 0xE5 => sub1 (flagCode f.fn) fun r => if r then .evcfgClr f.g f.d f.a f.b else .evcfg f.g f.d f.a f.b
  | 0xE6 => .ok (.fenceEv f.g)
  | 0xE8 => sub1 (relCode f.fn) fun r => .post f.g f.la r f.d f.a
  | 0xE9 => sub1 (relCode f.fn) fun r => .postw f.g r f.d f.a
  | 0xEA => .ok (.talloc f.g f.d f.a f.b)
  | 0xEB => .ok (.tfree f.g f.d f.a)
  | 0xEC => .ok (.tinfo f.g f.d f.a)
  | _ => .error 1

/-- The system opcodes, 0xF0 to 0xFF (R70); an unassigned opcode fails condition 1 of R71. -/
def decodeSystem (opc : Nat) (f : Fields) : Except (BitVec 3) Instr :=
  match opc with
  | 0xF0 => .ok (.trap f.g f.fn f.a)
  | 0xF1 => .ok (.resume f.g f.d f.a)
  | 0xF2 => .ok (.csrr f.g f.d (f.imm28.extractLsb' 0 12))
  | 0xF3 => .ok (.csrw f.g f.d f.a (f.imm28.extractLsb' 0 12))
  | 0xF4 => .ok (.csrs f.g f.d f.a (f.imm28.extractLsb' 0 12))
  | 0xF5 => .ok (.csrc f.g f.d f.a (f.imm28.extractLsb' 0 12))
  | 0xF6 => sub1 (tlbScope (f.fn.extractLsb' 0 3)) fun s =>
      if f.fn.getLsbD 3 then .tlbinvAll f.g s else .tlbinvRange f.g s f.a f.b
  | 0xF7 => sub1 (flagCode f.fn) fun m => if m then .evictMem f.g f.d f.a else .evictL2 f.g f.d f.a
  | 0xF8 => .ok (.time f.g f.d)
  | 0xF9 => .ok (.bkpt f.g)
  | 0xFA => .ok (.launch f.g f.d f.a)
  | 0xFB => sub1 (flagCode f.fn) fun j => if j then .cancelJob f.g f.d f.a else .cancelLaunch f.g f.d f.a
  | 0xFC => .ok (.maskclr f.g)
  | _ => .error 1

/-- The instruction that the opcode and the used fields of a word name, or the condition of R71 that they fail. -/
def decodeFields (opc : Nat) (f : Fields) : Except (BitVec 3) Instr :=
  if opc < 0x50 then decodeInteger opc f
  else if opc < 0x60 then decodeControl opc f
  else if opc < 0x90 then decodeVector opc f
  else if opc < 0xB0 then decodeFloat opc f
  else if opc < 0xD0 then decodeMemory opc f
  else if opc < 0xE0 then decodeMessage opc f
  else if opc < 0xF0 then decodeEvent opc f
  else decodeSystem opc f

/-! ### The encoder -/

/-- The guard, lookahead count and opcode of a word (R53). -/
def headBits (g : Guard) (la : BitVec 4) (opc : BitVec 8) : BitVec 29 :=
  g.tt ++ regBits g.ga ++ regBits g.gb ++ regBits g.gc ++ la ++ opc

/-- Format R (R55). -/
def encR (g : Guard) (la : BitVec 4) (opc : BitVec 8) (d : Reg) (a b c : Src) (fn : BitVec 4) (sz rm : BitVec 2) : Word :=
  headBits g la opc ++ regBits d ++ a.bits ++ b.bits ++ c.bits ++ fn ++ sz ++ rm ++ (0 : BitVec 12)

/-- Format I (R55). -/
def encI (g : Guard) (opc : BitVec 8) (d : Reg) (a : Src) (imm : BitVec 28) : Word :=
  headBits g 0 opc ++ regBits d ++ a.bits ++ imm

/-- Formats L and B (R55). -/
def encL (g : Guard) (opc : BitVec 8) (d : Reg) (imm : BitVec 32) : Word :=
  headBits g 0 opc ++ regBits d ++ imm

/-- Format M (R55). -/
def encM (g : Guard) (la : BitVec 4) (opc : BitVec 8) (d : Reg) (a b : Src) (fn : BitVec 4) (ord : BitVec 2)
    (scope : BitVec 3) (off : BitVec 15) : Word :=
  headBits g la opc ++ regBits d ++ a.bits ++ b.bits ++ fn ++ ord ++ scope ++ off

/-- Format P, with FK of VCMP below SZ (R55, R136). -/
def encP (g : Guard) (opc : BitVec 8) (pk cm : BitVec 2) (a b : Src) (cc : BitVec 4) (sz fk : BitVec 2) : Word :=
  headBits g 0 opc ++ pk ++ cm ++ a.bits ++ b.bits ++ cc ++ sz ++ fk ++ (0 : BitVec 15)

/-- Format PI (R55). -/
def encPI (g : Guard) (opc : BitVec 8) (pk cm : BitVec 2) (a : Src) (cc : BitVec 4) (imm : BitVec 23) : Word :=
  headBits g 0 opc ++ pk ++ cm ++ a.bits ++ cc ++ imm

/-- Format PL (R55). -/
def encPL (g : Guard) (opc : BitVec 8) (x y z v : Reg) (tbl : BitVec 8) (fn : BitVec 3) : Word :=
  headBits g 0 opc ++ regBits x ++ regBits y ++ regBits z ++ regBits v ++ tbl ++ fn ++ (0 : BitVec 12)

/-- A sub-operation field of one bit held in n bits. -/
def flagBits (n : Nat) (b : Bool) : BitVec n := if b then 1 else 0

/-- A register number in FN[2:0]. -/
def fnRegBits (m : Fin 8) : BitVec 4 := (0 : BitVec 1) ++ regBits m

/-- FN of POST and POSTW (R179). -/
def relBits (r : Bool) : BitVec 4 := if r then 2 else 0

/-- The word of an instruction of the opcode map; none for engine commands and device steps. -/
def encodeWord : Instr → Option Word
  | .add g d a b => some (encR g 0 0x01 d a b Src.zero 0 0 0)
  | .sub g d a b => some (encR g 0 0x02 d a b Src.zero 0 0 0)
  | .addi g d a imm => some (encI g 0x03 d a imm)
  | .mul g d a b => some (encR g 0 0x04 d a b Src.zero 0 0 0)
  | .mulh g d a b => some (encR g 0 0x05 d a b Src.zero 0 0 0)
  | .mulhu g d a b => some (encR g 0 0x06 d a b Src.zero 0 0 0)
  | .div g d a b => some (encR g 0 0x07 d a b Src.zero 0 0 0)
  | .divu g d a b => some (encR g 0 0x08 d a b Src.zero 0 0 0)
  | .rem g d a b => some (encR g 0 0x09 d a b Src.zero 0 0 0)
  | .remu g d a b => some (encR g 0 0x0A d a b Src.zero 0 0 0)
  | .and g d a b => some (encR g 0 0x0B d a b Src.zero 0 0 0)
  | .or g d a b => some (encR g 0 0x0C d a b Src.zero 0 0 0)
  | .xor g d a b => some (encR g 0 0x0D d a b Src.zero 0 0 0)
  | .andn g d a b => some (encR g 0 0x0E d a b Src.zero 0 0 0)
  | .shl g d a b => some (encR g 0 0x0F d a b Src.zero 0 0 0)
  | .shr g d a b => some (encR g 0 0x10 d a b Src.zero 0 0 0)
  | .sar g d a b => some (encR g 0 0x11 d a b Src.zero 0 0 0)
  | .rot g d a b => some (encR g 0 0x12 d a b Src.zero 0 0 0)
  | .min g d a b => some (encR g 0 0x13 d a b Src.zero 0 0 0)
  | .max g d a b => some (encR g 0 0x14 d a b Src.zero 0 0 0)
  | .minu g d a b => some (encR g 0 0x15 d a b Src.zero 0 0 0)
  | .maxu g d a b => some (encR g 0 0x16 d a b Src.zero 0 0 0)
  | .abs g d a => some (encR g 0 0x17 d a Src.zero Src.zero 0 0 0)
  | .clz g d a => some (encR g 0 0x18 d a Src.zero Src.zero 0 0 0)
  | .ctz g d a => some (encR g 0 0x19 d a Src.zero Src.zero 0 0 0)
  | .popc g d a => some (encR g 0 0x1A d a Src.zero Src.zero 0 0 0)
  | .bext g d a b => some (encR g 0 0x1B d a b Src.zero 0 0 0)
  | .bins g d a b cc => some (encR g 0 0x1C d a b cc 0 0 0)
  | .sext g w d a => some (encR g 0 0x1D d a Src.zero Src.zero 0 w.code 0)
  | .zext g w d a => some (encR g 0 0x1E d a Src.zero Src.zero 0 w.code 0)
  | .sel g k d a b => some (encR g 0 0x1F d a b Src.zero (fnRegBits k) 0 0)
  | .ldi g d imm => some (encL g 0x20 d imm)
  | .ldih g d imm => some (encL g 0x21 d imm)
  | .addpc g d off => some (encL g 0x22 d off)
  | .fatset g d a b => some (encR g 0 0x23 d a b Src.zero 0 0 0)
  | .fatget g d a => some (encR g 0 0x24 d a Src.zero Src.zero 0 0 0)
  | .andi g d a imm => some (encI g 0x25 d a imm)
  | .ori g d a imm => some (encI g 0x26 d a imm)
  | .xori g d a imm => some (encI g 0x27 d a imm)
  | .shli g d a n => some (encI g 0x28 d a (n.setWidth 28))
  | .shri g d a n => some (encI g 0x29 d a (n.setWidth 28))
  | .sari g d a n => some (encI g 0x2A d a (n.setWidth 28))
  | .cmp g pk cm cc a b => some (encP g 0x40 pk cm.code a b cc.code 0 0)
  | .cmpi g pk cm cc a imm => some (encPI g 0x41 pk cm.code a cc.code imm)
  | .tst g pk cm nz a b => some (encP g 0x42 pk cm.code a b (flagBits 4 nz) 0 0)
  | .fcmp g pk cm fmt cc a b => some (encP g 0x43 pk cm.code a b cc.code fmt.code 0)
  | .pset g x y z w tbl => some (encPL g 0x44 x y z w tbl 0)
  | .pmov g f x y => some (encPL g 0x45 x y 0 0 0 f.code)
  | .pcnt g x y => some (encPL g 0x46 x y 0 0 0 0)
  | .br g off => some (encL g 0x50 0 off)
  | .brl g d off => some (encL g 0x51 d off)
  | .jr g a => some (encR g 0 0x52 0 a Src.zero Src.zero 0 0 0)
  | .jrl g d a => some (encR g 0 0x53 d a Src.zero Src.zero 0 0 0)
  | .loop g d off => some (encL g 0x54 d off)
  | .waitInbox g => some (encR g 0 0x55 0 Src.zero Src.zero Src.zero 0 0 0)
  | .waitFull g a => some (encR g 0 0x55 0 a Src.zero Src.zero 1 0 0)
  | .waitTime g a => some (encR g 0 0x55 0 a Src.zero Src.zero 2 0 0)
  | .yield g => some (encR g 0 0x56 0 Src.zero Src.zero Src.zero 0 0 0)
  | .nop g => some (encR g 0 0x57 0 Src.zero Src.zero Src.zero 0 0 0)
  | .illegalOpcode w _ => some w
  | .vadd g op sz d a b => some (encR g 0 0x60 d a b Src.zero op.code sz.code 0)
  | .vsub g op sz d a b => some (encR g 0 0x61 d a b Src.zero op.code sz.code 0)
  | .vmul g op sz d a b => some (encR g 0 0x62 d a b Src.zero op.code sz.code 0)
  | .vmin g u sz d a b => some (encR g 0 0x63 d a b Src.zero (flagBits 4 u) sz.code 0)
  | .vmax g u sz d a b => some (encR g 0 0x64 d a b Src.zero (flagBits 4 u) sz.code 0)
  | .vand g sz d a b => some (encR g 0 0x65 d a b Src.zero 0 sz.code 0)
  | .vor g sz d a b => some (encR g 0 0x66 d a b Src.zero 0 sz.code 0)
  | .vxor g sz d a b => some (encR g 0 0x67 d a b Src.zero 0 sz.code 0)
  | .vandn g sz d a b => some (encR g 0 0x68 d a b Src.zero 0 sz.code 0)
  | .vshl g sz d a b => some (encR g 0 0x69 d a b Src.zero 0 sz.code 0)
  | .vshr g sz d a b => some (encR g 0 0x6A d a b Src.zero 0 sz.code 0)
  | .vsar g sz d a b => some (encR g 0 0x6B d a b Src.zero 0 sz.code 0)
  | .vshuf g sz d a b cc => some (encR g 0 0x6C d a b cc 0 sz.code 0)
  | .vperm g op sz d a b => some (encR g 0 0x6D d a (if op.usesB then b else Src.zero) Src.zero op.code sz.code 0)
  | .vsplat g sz d a => some (encR g 0 0x6E d a Src.zero Src.zero 0 sz.code 0)
  | .vext g s sz d a b => some (encR g 0 0x6F d a b Src.zero (flagBits 4 s) sz.code 0)
  | .vins g sz d a b => some (encR g 0 0x70 d a b Src.zero 0 sz.code 0)
  | .vcmp g pk cm k a b => some (encP g 0x71 pk cm.code a b k.ccCode k.szCode k.fkCode)
  | .vfadd g t rm d a b => some (encR g 0 0x72 d a b Src.zero t.fnCode t.szCode rm.code)
  | .vfsub g t rm d a b => some (encR g 0 0x73 d a b Src.zero t.fnCode t.szCode rm.code)
  | .vfmul g t rm d a b => some (encR g 0 0x74 d a b Src.zero t.fnCode t.szCode rm.code)
  | .vfma g t rm d a b cc => some (encR g 0 0x75 d a b cc t.fnCode t.szCode rm.code)
  | .vfmin g t d a b => some (encR g 0 0x76 d a b Src.zero t.fnCode t.szCode 0)
  | .vfmax g t d a b => some (encR g 0 0x77 d a b Src.zero t.fnCode t.szCode 0)
  | .vdot g rm d a b cc => some (encR g 0 0x78 d a b cc 0 2 rm.code)
  | .vcvt g op rm d a => some (encR g 0 0x79 d a Src.zero Src.zero op.code 2 (if op.rounds then rm.code else 0))
  | .fadd g t rm d a b => some (encR g 0 0x90 d a b Src.zero 0 t.code rm.code)
  | .fsub g t rm d a b => some (encR g 0 0x91 d a b Src.zero 0 t.code rm.code)
  | .fmul g t rm d a b => some (encR g 0 0x92 d a b Src.zero 0 t.code rm.code)
  | .ffma g t rm d a b cc => some (encR g 0 0x93 d a b cc 0 t.code rm.code)
  | .fdiv g la t rm d a b => some (encR g la 0x94 d a b Src.zero 0 t.code rm.code)
  | .fsqrt g la t rm d a => some (encR g la 0x95 d a Src.zero Src.zero 0 t.code rm.code)
  | .fmin g t d a b => some (encR g 0 0x96 d a b Src.zero 0 t.code 0)
  | .fmax g t d a b => some (encR g 0 0x97 d a b Src.zero 0 t.code 0)
  | .fcvt g op rm d a => some (encR g 0 0x98 d a Src.zero Src.zero op.code 0 (if op.rounds then rm.code else 0))
  | .fclass g t d a => some (encR g 0 0x99 d a Src.zero Src.zero 0 t.code 0)
  | .rcp g la v d a => some (encR g la 0xA0 d a Src.zero Src.zero (flagBits 4 v) 0 0)
  | .rsq g la v d a => some (encR g la 0xA1 d a Src.zero Src.zero (flagBits 4 v) 0 0)
  | .exp2 g la v d a => some (encR g la 0xA2 d a Src.zero Src.zero (flagBits 4 v) 0 0)
  | .log2 g la v d a => some (encR g la 0xA3 d a Src.zero Src.zero (flagBits 4 v) 0 0)
  | .sin g la v d a => some (encR g la 0xA4 d a Src.zero Src.zero (flagBits 4 v) 0 0)
  | .cos g la v d a => some (encR g la 0xA5 d a Src.zero Src.zero (flagBits 4 v) 0 0)
  | .tanh g la v d a => some (encR g la 0xA6 d a Src.zero Src.zero (flagBits 4 v) 0 0)
  | .ld g la w d a off => some (encM g la 0xB0 d a Src.zero w.code 0 0 off)
  | .st g w a b off => some (encM g 0 0xB1 0 a b w.code 0 0 off)
  | .ldv g la d a off => some (encM g la 0xB2 d a Src.zero 0 0 0 off)
  | .stv g a b off => some (encM g 0 0xB3 0 a b 0 0 0 off)
  | .ldt g la d a b off => some (encM g la 0xB4 d a b 0 0 0 off)
  | .stt g d a b off => some (encM g 0 0xB5 d a b 0 0 0 off)
  | .ldAcq g w s d a off => some (encM g 0 0xB6 d a Src.zero w.code 0 s.code off)
  | .stRel g w s a b off => some (encM g 0 0xB7 0 a b w.code 0 s.code off)
  | .amo g la op wide r s d a b =>
    some (encM g la 0xB8 d a b op.code r.code s.code ((if wide then 3 else 2 : BitVec 2) ++ (0 : BitVec 13)))
  | .fence g r s => some (encM g 0 0xB9 0 Src.zero Src.zero 0 r.code s.code 0)
  | .pref g wr a off => some (encM g 0 0xBA 0 a Src.zero (flagBits 4 wr) 0 0 off)
  | .clean g s a b => some (encM g 0 0xBB 0 ⟨a, false⟩ ⟨b, false⟩ 0 0 s.code 0)
  | .inv g s a b => some (encM g 0 0xBC 0 ⟨a, false⟩ ⟨b, false⟩ 0 0 s.code 0)
  | .discard g s a b => some (encM g 0 0xBD 0 ⟨a, false⟩ ⟨b, false⟩ 0 0 s.code 0)
  | .send g n a b => some (encR g 0 0xD0 0 a b Src.zero (n.setWidth 4) 0 0)
  | .dep g m a b => some (encR g 0 0xD1 0 a b Src.zero (fnRegBits m) 0 0)
  | .recv g d => some (encR g 0 0xD2 d Src.zero Src.zero Src.zero 0 0 0)
  | .qred g la t d a => some (encR g la 0xD3 d ⟨a, false⟩ Src.zero Src.zero t.code 0 0)
  | .rget g la m pk d a b => some (encR g la 0xD4 d a b Src.zero (fnRegBits m) pk 0)
  | .spawn g d a b => some (encR g 0 0xD5 d a b Src.zero 0 0 0)
  | .quit g => some (encR g 0 0xD6 0 Src.zero Src.zero Src.zero 0 0 0)
  | .quitDone g => some (encR g 0 0xD6 0 Src.zero Src.zero Src.zero 1 0 0)
  | .mig g a => some (encR g 0 0xD7 0 a Src.zero Src.zero 0 0 0)
  | .self g k d => some (encR g 0 0xD8 d Src.zero Src.zero Src.zero k.code 0 0)
  | .fset g m => some (encL g 0xD9 0 ((0 : BitVec 12) ++ m ++ (0 : BitVec 12)))
  | .fclr g m => some (encL g 0xDA 0 ((0 : BitVec 12) ++ m ++ (0 : BitVec 12)))
  | .evsnd g r a b cc => some (encR g 0 0xE0 0 a b cc (flagBits 4 r) 0 0)
  | .evarm g r a b cc => some (encR g 0 0xE1 0 a b cc (flagBits 4 r) 0 0)
  | .evstep g d a b => some (encR g 0 0xE2 d a b Src.zero 0 0 0)
  | .evrdMem g d a => some (encR g 0 0xE3 d a Src.zero Src.zero 0 0 0)
  | .evrdStep g d a => some (encR g 0 0xE3 d a Src.zero Src.zero 1 0 0)
  | .evrdLate g d a => some (encR g 0 0xE3 d a Src.zero Src.zero 2 0 0)
  | .evwr g d a b => some (encR g 0 0xE4 d a b Src.zero 0 0 0)
  | .evcfg g d a b => some (encR g 0 0xE5 d a b Src.zero 0 0 0)
  | .evcfgClr g d a b => some (encR g 0 0xE5 d a b Src.zero 1 0 0)
  | .fenceEv g => some (encR g 0 0xE6 0 Src.zero Src.zero Src.zero 0 0 0)
  | .post g la r d a => some (encR g la 0xE8 d a Src.zero Src.zero (relBits r) 0 0)
  | .postw g r d a => some (encR g 0 0xE9 d a Src.zero Src.zero (relBits r) 0 0)
  | .talloc g d a b => some (encR g 0 0xEA d a b Src.zero 0 0 0)
  | .tfree g d a => some (encR g 0 0xEB d a Src.zero Src.zero 0 0 0)
  | .tinfo g d a => some (encR g 0 0xEC d a Src.zero Src.zero 0 0 0)
  | .trap g n a => some (encR g 0 0xF0 0 a Src.zero Src.zero n 0 0)
  | .resume g d a => some (encR g 0 0xF1 d a Src.zero Src.zero 0 0 0)
  | .csrr g d num => some (encI g 0xF2 d Src.zero (num.setWidth 28))
  | .csrw g d a num => some (encI g 0xF3 d a (num.setWidth 28))
  | .csrs g d a num => some (encI g 0xF4 d a (num.setWidth 28))
  | .csrc g d a num => some (encI g 0xF5 d a (num.setWidth 28))
  | .tlbinvRange g s a b => some (encR g 0 0xF6 0 a b Src.zero ((0 : BitVec 1) ++ s.code) 0 0)
  | .tlbinvAll g s => some (encR g 0 0xF6 0 Src.zero Src.zero Src.zero ((1 : BitVec 1) ++ s.code) 0 0)
  | .evictL2 g d a => some (encR g 0 0xF7 d a Src.zero Src.zero 0 0 0)
  | .evictMem g d a => some (encR g 0 0xF7 d a Src.zero Src.zero 1 0 0)
  | .time g d => some (encR g 0 0xF8 d Src.zero Src.zero Src.zero 0 0 0)
  | .bkpt g => some (encR g 0 0xF9 0 Src.zero Src.zero Src.zero 0 0 0)
  | .launch g d a => some (encR g 0 0xFA d a Src.zero Src.zero 0 0 0)
  | .cancelLaunch g d a => some (encR g 0 0xFB d a Src.zero Src.zero 0 0 0)
  | .cancelJob g d a => some (encR g 0 0xFB d a Src.zero Src.zero 1 0 0)
  | .maskclr g => some (encR g 0 0xFC 0 Src.zero Src.zero Src.zero 0 0 0)
  | .tload _ => none
  | .tstore _ => none
  | .tcopy _ => none
  | .tgather _ => none
  | .tscadd _ => none
  | .tfill _ => none
  | .ttrans _ => none
  | .pool _ => none
  | .rowadd _ => none
  | .evstream _ => none
  | .mma _ => none
  | .mmag _ => none
  | .quant _ => none
  | .dequant _ => none
  | .tadd _ => none
  | .tsub _ => none
  | .tmul _ => none
  | .tmax _ => none
  | .tscale _ => none
  | .tact _ => none
  | .trowred _ => none
  | .tsoftmax _ => none
  | .commandAccept _ _ => none
  | .postRetry _ _ => none
  | .gangTicketGrant _ _ => none
  | .gangSliceStart _ _ => none
  | .gangSliceEnd _ _ => none
  | .rowCacheHalving _ => none
  | .lineWrite _ => none
  | .deferredFault _ => none
  | .loadRemoteHome _ => none
  | .poisonedData _ => none
  | .replayReissue => none
  | .sfuComplete _ => none
  | .sfuHoldExpire _ _ => none
  | .divideComplete _ => none
  | .reducerPop _ => none
  | .qredRestart => none
  | .fetchFault => none
  | .fetchArrive _ => none
  | .orderingComplete _ => none
  | .messageDelivery _ _ => none
  | .depositDelivery _ _ => none
  | .sendRetry _ _ => none
  | .timeWaitExpire _ => none
  | .rgetTimeout _ => none
  | .slotSelect _ _ _ => none
  | .claim _ _ _ _ => none
  | .swapLoad _ _ _ => none
  | .backlogFill _ => none
  | .arrivalAccept _ => none
  | .agingStep _ _ _ => none
  | .spawnRequest _ => none
  | .eventAccept _ _ => none
  | .stepClose _ => none
  | .groupClear _ => none
  | .eventMerge _ _ _ _ => none
  | .amoMerge _ _ => none
  | .tokenRefill _ _ => none
  | .switchPowerDown _ => none
  | .switchWake _ => none
  | .switchPowerUp _ => none
  | .bulkLanePowerDown _ => none
  | .linkCrcError _ => none
  | .laneRetire _ => none
  | .allLinksDown _ => none
  | .dusetLinkLoss _ _ => none
  | .dieReset _ _ => none
  | .dieDrainEnd _ => none
  | .dieDrainDeadline _ => none
  | .dieRejoin _ _ => none
  | .mapOutCluster _ => none
  | .retireHbmChannel _ _ => none
  | .readCounters _ => none
  | .readErrorRecords => none
  | .readBringupParameters => none
  | .setPowerLimit _ => none
  | .enrolKeyPair _ _ => none
  | .withdrawKeyPair _ _ => none
  | .attest _ => none
  | .submissionWrite _ _ _ => none
  | .startRequest _ _ _ => none
  | .hostHdmAccess _ _ => none
  | .trapRingWrite _ _ => none
  | .secverFuseWrite _ => none
  | .arrivalLimitWrite _ _ => none
  | .tenantWeightWrite _ _ => none
  | .correctedError _ _ _ => none
  | .recurringCorrectedError _ _ _ => none
  | .scrubUncorrectable _ => none
  | .powerAlarmRise _ => none
  | .powerAlarmClear _ => none
  | .coldReset => none
  | .timeBaseTick => none
  | .bootStage0 _ => none
  | .bootStage1 _ _ => none
  | .bootStage2 _ _ _ _ => none
  | .engineCommandEnd _ _ _ => none
  | .groupRequestAtBank _ => none
  | .handleTableRequest _ _ => none
  | .requestAtLineOwner _ => none
  | .rangeOperationEnd _ => none
  | .contextL1Fill _ _ _ => none
  | .bulkLaneWake _ => none
  | .bulkLanePowerUp _ => none
  | .linkPlaneDown _ _ => none

/-- The bits of LA in a word (R53). -/
def laMask : Word := 0x0000_7800_0000_0000

/-- Decode a word (R53, R70, R71): the instruction, or `illegalOpcode` with the lowest-numbered condition of R71 that the word
fails; that it is the lowest is a DESIGN CHOICE (log entry 76). A nonzero field that the instruction does not use is one that its own encoding
leaves zero (conditions 3, 4 and 6); DESIGN CHOICE (log entry 76): a nonzero TBL of PMOV or PCNT is such a field (condition 3), as are FN, SZ and RM. -/
def decodeWord (w : Word) : Instr :=
  match decodeFields (opcAt w).toNat (Fields.ofWord w) with
  | .error c => .illegalOpcode w c
  | .ok i =>
    match wfCond i with
    | some 2 => .illegalOpcode w 2
    | r =>
      let v := (encodeWord i).getD 0
      if v ||| (w &&& laMask) ≠ w then .illegalOpcode w 3
      else if v ≠ w then .illegalOpcode w 4
      else match r with
        | some c => .illegalOpcode w c
        | none => i

/-! ### Engine command words -/

/-- The fields of a command word below COP (R78). -/
def cmdArgsOf (w : BitVec 256) : CmdArgs where
  rel := w.getLsbD 247
  qbar := w.getLsbD 246
  ckind := w.extractLsb' 244 2
  csc := w.extractLsb' 241 3
  bit240 := w.getLsbD 240
  ctgt := w.extractLsb' 176 64
  ha := w.extractLsb' 144 32
  hb := w.extractLsb' 112 32
  hc := w.extractLsb' 80 32
  ops := w.extractLsb' 0 80

/-- The command that an opcode selects (R79), none for an unassigned one. -/
def commandOf (cop : Nat) (c : CmdArgs) : Option Instr :=
  match cop with
  | 0x01 => some (.tload c)
  | 0x02 => some (.tstore c)
  | 0x03 => some (.tcopy c)
  | 0x04 => some (.tgather c)
  | 0x05 => some (.tscadd c)
  | 0x06 => some (.tfill c)
  | 0x07 => some (.ttrans c)
  | 0x08 => some (.pool c)
  | 0x09 => some (.rowadd c)
  | 0x0A => some (.evstream c)
  | 0x20 => some (.mma c)
  | 0x21 => some (.mmag c)
  | 0x40 => some (.quant c)
  | 0x41 => some (.dequant c)
  | 0x42 => some (.tadd c)
  | 0x43 => some (.tsub c)
  | 0x44 => some (.tmul c)
  | 0x45 => some (.tmax c)
  | 0x46 => some (.tscale c)
  | 0x47 => some (.tact c)
  | 0x48 => some (.trowred c)
  | 0x49 => some (.tsoftmax c)
  | _ => none

/-- Decode a command word; none for one that R80 refuses. -/
def decodeCommand (w : BitVec 256) : Option Instr :=
  if (cmdArgsOf w).legal then commandOf (w.extractLsb' 248 8).toNat (cmdArgsOf w) else none

/-- The command word of an opcode and its fields (R78). -/
def packCommand (cop : BitVec 8) (c : CmdArgs) : BitVec 256 :=
  cop ++ BitVec.ofBool c.rel ++ BitVec.ofBool c.qbar ++ c.ckind ++ c.csc ++ BitVec.ofBool c.bit240 ++ c.ctgt ++ c.ha ++ c.hb
    ++ c.hc ++ c.ops

/-- The command word of an engine command; none for every other instruction (R79). -/
def encodeCommand : Instr → Option (BitVec 256)
  | .add _ _ _ _ => none
  | .sub _ _ _ _ => none
  | .addi _ _ _ _ => none
  | .mul _ _ _ _ => none
  | .mulh _ _ _ _ => none
  | .mulhu _ _ _ _ => none
  | .div _ _ _ _ => none
  | .divu _ _ _ _ => none
  | .rem _ _ _ _ => none
  | .remu _ _ _ _ => none
  | .and _ _ _ _ => none
  | .or _ _ _ _ => none
  | .xor _ _ _ _ => none
  | .andn _ _ _ _ => none
  | .shl _ _ _ _ => none
  | .shr _ _ _ _ => none
  | .sar _ _ _ _ => none
  | .rot _ _ _ _ => none
  | .min _ _ _ _ => none
  | .max _ _ _ _ => none
  | .minu _ _ _ _ => none
  | .maxu _ _ _ _ => none
  | .abs _ _ _ => none
  | .clz _ _ _ => none
  | .ctz _ _ _ => none
  | .popc _ _ _ => none
  | .bext _ _ _ _ => none
  | .bins _ _ _ _ _ => none
  | .sext _ _ _ _ => none
  | .zext _ _ _ _ => none
  | .sel _ _ _ _ _ => none
  | .ldi _ _ _ => none
  | .ldih _ _ _ => none
  | .addpc _ _ _ => none
  | .fatset _ _ _ _ => none
  | .fatget _ _ _ => none
  | .andi _ _ _ _ => none
  | .ori _ _ _ _ => none
  | .xori _ _ _ _ => none
  | .shli _ _ _ _ => none
  | .shri _ _ _ _ => none
  | .sari _ _ _ _ => none
  | .cmp _ _ _ _ _ _ => none
  | .cmpi _ _ _ _ _ _ => none
  | .tst _ _ _ _ _ _ => none
  | .fcmp _ _ _ _ _ _ _ => none
  | .pset _ _ _ _ _ _ => none
  | .pmov _ _ _ _ => none
  | .pcnt _ _ _ => none
  | .br _ _ => none
  | .brl _ _ _ => none
  | .jr _ _ => none
  | .jrl _ _ _ => none
  | .loop _ _ _ => none
  | .waitInbox _ => none
  | .waitFull _ _ => none
  | .waitTime _ _ => none
  | .yield _ => none
  | .nop _ => none
  | .illegalOpcode _ _ => none
  | .vadd _ _ _ _ _ _ => none
  | .vsub _ _ _ _ _ _ => none
  | .vmul _ _ _ _ _ _ => none
  | .vmin _ _ _ _ _ _ => none
  | .vmax _ _ _ _ _ _ => none
  | .vand _ _ _ _ _ => none
  | .vor _ _ _ _ _ => none
  | .vxor _ _ _ _ _ => none
  | .vandn _ _ _ _ _ => none
  | .vshl _ _ _ _ _ => none
  | .vshr _ _ _ _ _ => none
  | .vsar _ _ _ _ _ => none
  | .vshuf _ _ _ _ _ _ => none
  | .vperm _ _ _ _ _ _ => none
  | .vsplat _ _ _ _ => none
  | .vext _ _ _ _ _ _ => none
  | .vins _ _ _ _ _ => none
  | .vcmp _ _ _ _ _ _ => none
  | .vfadd _ _ _ _ _ _ => none
  | .vfsub _ _ _ _ _ _ => none
  | .vfmul _ _ _ _ _ _ => none
  | .vfma _ _ _ _ _ _ _ => none
  | .vfmin _ _ _ _ _ => none
  | .vfmax _ _ _ _ _ => none
  | .vdot _ _ _ _ _ _ => none
  | .vcvt _ _ _ _ _ => none
  | .fadd _ _ _ _ _ _ => none
  | .fsub _ _ _ _ _ _ => none
  | .fmul _ _ _ _ _ _ => none
  | .ffma _ _ _ _ _ _ _ => none
  | .fdiv _ _ _ _ _ _ _ => none
  | .fsqrt _ _ _ _ _ _ => none
  | .fmin _ _ _ _ _ => none
  | .fmax _ _ _ _ _ => none
  | .fcvt _ _ _ _ _ => none
  | .fclass _ _ _ _ => none
  | .rcp _ _ _ _ _ => none
  | .rsq _ _ _ _ _ => none
  | .exp2 _ _ _ _ _ => none
  | .log2 _ _ _ _ _ => none
  | .sin _ _ _ _ _ => none
  | .cos _ _ _ _ _ => none
  | .tanh _ _ _ _ _ => none
  | .ld _ _ _ _ _ _ => none
  | .st _ _ _ _ _ => none
  | .ldv _ _ _ _ _ => none
  | .stv _ _ _ _ => none
  | .ldt _ _ _ _ _ _ => none
  | .stt _ _ _ _ _ => none
  | .ldAcq _ _ _ _ _ _ => none
  | .stRel _ _ _ _ _ _ => none
  | .amo _ _ _ _ _ _ _ _ _ => none
  | .fence _ _ _ => none
  | .pref _ _ _ _ => none
  | .clean _ _ _ _ => none
  | .inv _ _ _ _ => none
  | .discard _ _ _ _ => none
  | .send _ _ _ _ => none
  | .dep _ _ _ _ => none
  | .recv _ _ => none
  | .qred _ _ _ _ _ => none
  | .rget _ _ _ _ _ _ _ => none
  | .spawn _ _ _ _ => none
  | .quit _ => none
  | .quitDone _ => none
  | .mig _ _ => none
  | .self _ _ _ => none
  | .fset _ _ => none
  | .fclr _ _ => none
  | .evsnd _ _ _ _ _ => none
  | .evarm _ _ _ _ _ => none
  | .evstep _ _ _ _ => none
  | .evrdMem _ _ _ => none
  | .evrdStep _ _ _ => none
  | .evrdLate _ _ _ => none
  | .evwr _ _ _ _ => none
  | .evcfg _ _ _ _ => none
  | .evcfgClr _ _ _ _ => none
  | .fenceEv _ => none
  | .post _ _ _ _ _ => none
  | .postw _ _ _ _ => none
  | .talloc _ _ _ _ => none
  | .tfree _ _ _ => none
  | .tinfo _ _ _ => none
  | .trap _ _ _ => none
  | .resume _ _ _ => none
  | .csrr _ _ _ => none
  | .csrw _ _ _ _ => none
  | .csrs _ _ _ _ => none
  | .csrc _ _ _ _ => none
  | .tlbinvRange _ _ _ _ => none
  | .tlbinvAll _ _ => none
  | .evictL2 _ _ _ => none
  | .evictMem _ _ _ => none
  | .time _ _ => none
  | .bkpt _ => none
  | .launch _ _ _ => none
  | .cancelLaunch _ _ _ => none
  | .cancelJob _ _ _ => none
  | .maskclr _ => none
  | .tload c => some (packCommand 0x01 c)
  | .tstore c => some (packCommand 0x02 c)
  | .tcopy c => some (packCommand 0x03 c)
  | .tgather c => some (packCommand 0x04 c)
  | .tscadd c => some (packCommand 0x05 c)
  | .tfill c => some (packCommand 0x06 c)
  | .ttrans c => some (packCommand 0x07 c)
  | .pool c => some (packCommand 0x08 c)
  | .rowadd c => some (packCommand 0x09 c)
  | .evstream c => some (packCommand 0x0A c)
  | .mma c => some (packCommand 0x20 c)
  | .mmag c => some (packCommand 0x21 c)
  | .quant c => some (packCommand 0x40 c)
  | .dequant c => some (packCommand 0x41 c)
  | .tadd c => some (packCommand 0x42 c)
  | .tsub c => some (packCommand 0x43 c)
  | .tmul c => some (packCommand 0x44 c)
  | .tmax c => some (packCommand 0x45 c)
  | .tscale c => some (packCommand 0x46 c)
  | .tact c => some (packCommand 0x47 c)
  | .trowred c => some (packCommand 0x48 c)
  | .tsoftmax c => some (packCommand 0x49 c)
  | .commandAccept _ _ => none
  | .postRetry _ _ => none
  | .gangTicketGrant _ _ => none
  | .gangSliceStart _ _ => none
  | .gangSliceEnd _ _ => none
  | .rowCacheHalving _ => none
  | .lineWrite _ => none
  | .deferredFault _ => none
  | .loadRemoteHome _ => none
  | .poisonedData _ => none
  | .replayReissue => none
  | .sfuComplete _ => none
  | .sfuHoldExpire _ _ => none
  | .divideComplete _ => none
  | .reducerPop _ => none
  | .qredRestart => none
  | .fetchFault => none
  | .fetchArrive _ => none
  | .orderingComplete _ => none
  | .messageDelivery _ _ => none
  | .depositDelivery _ _ => none
  | .sendRetry _ _ => none
  | .timeWaitExpire _ => none
  | .rgetTimeout _ => none
  | .slotSelect _ _ _ => none
  | .claim _ _ _ _ => none
  | .swapLoad _ _ _ => none
  | .backlogFill _ => none
  | .arrivalAccept _ => none
  | .agingStep _ _ _ => none
  | .spawnRequest _ => none
  | .eventAccept _ _ => none
  | .stepClose _ => none
  | .groupClear _ => none
  | .eventMerge _ _ _ _ => none
  | .amoMerge _ _ => none
  | .tokenRefill _ _ => none
  | .switchPowerDown _ => none
  | .switchWake _ => none
  | .switchPowerUp _ => none
  | .bulkLanePowerDown _ => none
  | .linkCrcError _ => none
  | .laneRetire _ => none
  | .allLinksDown _ => none
  | .dusetLinkLoss _ _ => none
  | .dieReset _ _ => none
  | .dieDrainEnd _ => none
  | .dieDrainDeadline _ => none
  | .dieRejoin _ _ => none
  | .mapOutCluster _ => none
  | .retireHbmChannel _ _ => none
  | .readCounters _ => none
  | .readErrorRecords => none
  | .readBringupParameters => none
  | .setPowerLimit _ => none
  | .enrolKeyPair _ _ => none
  | .withdrawKeyPair _ _ => none
  | .attest _ => none
  | .submissionWrite _ _ _ => none
  | .startRequest _ _ _ => none
  | .hostHdmAccess _ _ => none
  | .trapRingWrite _ _ => none
  | .secverFuseWrite _ => none
  | .arrivalLimitWrite _ _ => none
  | .tenantWeightWrite _ _ => none
  | .correctedError _ _ _ => none
  | .recurringCorrectedError _ _ _ => none
  | .scrubUncorrectable _ => none
  | .powerAlarmRise _ => none
  | .powerAlarmClear _ => none
  | .coldReset => none
  | .timeBaseTick => none
  | .bootStage0 _ => none
  | .bootStage1 _ _ => none
  | .bootStage2 _ _ _ _ => none
  | .engineCommandEnd _ _ _ => none
  | .groupRequestAtBank _ => none
  | .handleTableRequest _ _ => none
  | .requestAtLineOwner _ => none
  | .rangeOperationEnd _ => none
  | .contextL1Fill _ _ _ => none
  | .bulkLaneWake _ => none
  | .bulkLanePowerUp _ => none
  | .linkPlaneDown _ _ => none

/-- What the decoder reads from an instruction of the opcode table whose bits are w: a 64-bit word, or the 256-bit command word
that the 64-bit registers of a quadruple hold, the lowest first (R54, R78). A word that is no instruction reads as
`illegalOpcode`, which traps. -/
def decodeTableWord (nbits w : Nat) : Option Instr :=
  if nbits ≤ 64 then some (decodeWord (BitVec.ofNat 64 w)) else decodeCommand (BitVec.ofNat 256 w)

end Sys2Proof
end

