-- ==== Sys2Proof/Config.lean ====
section
/-! DEFINITION. What is fixed for the machine, and the free values: constants without a body, of which nothing can be proved.
R4 leaves nothing to implementation choice; the free values stand where the spec states no value. -/

namespace Sys2Proof.Config

/-- The clusters of a die (R15). -/
def clustersPerDie : Nat := 48
/-- The clusters of a full package (R1). -/
def clusters : Nat := 192
/-- The ASIDs (R21). -/
def asids : Nat := 4096
/-- The entries of a cluster's send buffer (R167), and of a CXL port's (R347). -/
def sendEntries : Nat := 64
/-- The commands of one engine queue (R16). -/
def queueEntries : Nat := 32
/-- The entries of an SFU queue (R147). -/
def sfuEntries : Nat := 16
/-- The entries of a gang lane (R277). -/
def laneEntries : Nat := 8
/-- The lines of a context L1, of a context L2, of an arrival queue (R257, R16). -/
def l1Lines : Nat := 64
/-- The lines of a context L2 (R257). -/
def l2Lines : Nat := 2048
/-- The entries of a handle table (R271). -/
def handleEntries : Nat := 4096
/-- The granules of a Vat (R267). -/
def vatGranules : Nat := 1024
/-- The entries of a spawn backlog (R327). -/
def backlogEntries : Nat := 65536
/-- The launch slots of the package (R340). -/
def launchSlots : Nat := 4095
/-- The records of the error ring (R392). -/
def errorEntries : Nat := 4096
/-- The lines of the row cache in each slice of a die: four ways of 1,024 sets (R18, R373). -/
def rowCacheLines : Nat := 4096
/-- The pieces of an action at a bank that one step does; a longer action goes on in a step of its own, while the bank does nothing else
(R325; log entry 31). -/
def chainEvents : Nat := 65536
/-- The deadline of a die reset whose command gives none, in nanoseconds: 100 µs (R388). -/
def drainDefault : Nat := 100000
/-- The turns after which a waiting entry's class rises (R353). -/
def agingTurns : Nat := 4096

/-- The FP32 value of a TACT function whose real function has no value at -∞: GELU (code 4) and SILU (code 5). Free: the spec
states none (log entry 22). -/
opaque tactUnstated : Nat → BitVec 32

/-- Whether an AMO in flight toward a die was performed when the die was lost: R387 says that it is unknown. Applied to the
operation's number (log entry 23). -/
opaque lostAmoPerformed : Nat → Bool

/-- The home slice of a physical line of 128 bytes, modulo 64 within its die: R17 does not give the hash. Free (log entry 32). -/
opaque homeSlice : Nat → Nat

/-- Which of two CXL ports that are up carries the device's accesses to a byte of host memory: R396 does not say. Free (log entry 66). -/
opaque hostPort : Nat → Nat

/-- Whether a DISCARD at PKG or SYS takes a store that races with it, by the number of the store: R304 lets it survive in full or be discarded in full.
Free (log entry 65). -/
opaque discardTakes : Nat → Bool

/-- The structure code that a MEMORY record gives a queue: R390 counts the errors of queues, and R393 names no code for them. Free (log entry
67). -/
opaque queueStructure : Nat

/-- The HBM channels of a die: two stacks of 32, numbered from 0 (log entry 70). -/
def hbmChannels : Nat := 64

/-- The SHA-384 digest of an object by its size and bytes: R403 names the function and no value. Free (log entry 69). -/
opaque sha384 : Nat → (Nat → Byte) → BitVec 384

/-- The RSA signature of a device's report by its place among Neriup's answers and its contents: its salt is free (R95, R403; log entry 69). -/
opaque rsaSignature : Nat → List Nat → BitVec 3072

/-- The SLH-DSA signature of a device's report by its place among Neriup's answers and its contents (R95, R403; log entry 69). -/
opaque slhSignature : Nat → List Nat → BitVec 129792

/-- The error code with which Neriup refuses a command, by the reason: R402 gives no codes. Free (log entry 71). -/
opaque neriupCode : Nat → Nat

/-- The lanes of a link plane, by boundary × 2 + plane: the spec gives no number. Free (log entry 24). -/
opaque planeLanes : Nat → Nat

end Sys2Proof.Config
end

