-- ==== Sys2Proof/Machine/Memory.lean ====
section
/-! DEFINITION. Memory: bytes, live lines, poison, translation, homes, die copies (R149 to R163, R246, R285 to R305, R391). -/

namespace Sys2Proof.Machine

/-! ### The canonical form -/

/-- Memory in its one form: addresses strictly rising, and no entry equal to what an unlisted address reads as, which is 0. -/
def Memory.wf (m : List Host.Cell) : Bool := SMap.risingFrom 0 m && m.all fun c => c.2 != 0

/-- A byte of memory; an unlisted one reads as 0 (log entry 2). -/
def memByte (m : List Host.Cell) (a : Nat) : Byte := SMap.getD m a 0

/-- Write a byte of memory. -/
def memSet (m : List Host.Cell) (a : Nat) (b : Byte) : List Host.Cell := SMap.put m a b 0

/-! ### Places -/

/-- The die of a global cluster number (R10). -/
def dieOf (c : Nat) : Nat := c / 48
/-- The local number of a global cluster number (R10). -/
def localOf (c : Nat) : Nat := c % 48

/-- A die's state. -/
def State.die (s : State) (d : Nat) : DieState :=
  if h : d < 4 then s.fab.dies[d] else { present := false, lost := true, drain := none, linkLost := false }

/-- Whether a die is absent or lost (R3), or being quiesced, after which operations toward it end as R387 gives (R388). -/
def State.dieGone (s : State) (d : Nat) : Bool := let x := s.die d; !x.present || x.lost || x.drain.isSome

/-- Whether an operation of a given number was issued before the quiesce of a die that is draining now. -/
def DieState.spares (x : DieState) (seq : Nat) : Bool :=
  match x.drain with
  | some (_, q) => decide (seq < q)
  | none => false

/-- The machine as an operation of a given number sees its dies: one issued before the quiesce of a draining die may complete there
(R388). -/
def State.seenBy (s : State) (seq : Nat) : State :=
  { s with
    fab := { s.fab with dies := s.fab.dies.map fun x => if x.spares seq then { x with drain := none } else x }
    mgmt := { s.mgmt with
      ready := (List.range 4).foldl (fun m d => if (s.die d).spares seq then m ||| (0x3F#64 <<< (8 * d)) else m) s.mgmt.ready } }

/-- A state with the dies of another. -/
def State.withDies (s t : State) : State :=
  { s with fab := { s.fab with dies := t.fab.dies }, mgmt := { s.mgmt with ready := t.mgmt.ready } }

/-- Whether a global cluster number names no cluster that can act: beyond 191, on an absent or lost die, or mapped out (R394). -/
def State.clusterGone (s : State) (c : Nat) : Bool := decide (192 ≤ c) || s.dieGone (dieOf c) || s.mgmt.mapped.contains c

/-! ### The way between dies (R12, R377, R378) -/

/-- The narrow plane of a boundary, and the bulk plane (R377). -/
def narrow : Nat := 0
/-- The bulk plane. -/
def bulk : Nat := 1

/-- The two dies of a boundary: b and the next. -/
def boundaryDies (b : Nat) : Nat × Nat := (b, (b + 1) % 4)

/-- A die is live: present and not lost. -/
def State.live (s : State) (d : Nat) : Bool := (s.die d).present && !(s.die d).lost

/-- A plane is there, by boundary × 2 + plane: both of its dies are live, and it has not reported link-down. -/
def State.planeUp (s : State) (p : Nat) : Bool :=
  decide (p < 8) && s.live (boundaryDies (p / 2)).1 && s.live (boundaryDies (p / 2)).2 && !s.fab.planesDown.contains p

/-- The boundary between a die and the next one on a way: NBR_N is one up, NBR_E three (R375). -/
def boundaryOf (a b : Nat) : Nat := if (a + 1) % 4 = b then a else b

/-- The dies on the way from a die to another (R378): between opposite dies through the source's NBR_N when that is live and not being
quiesced (R388), and otherwise through its NBR_E. -/
def State.way (s : State) (src dst : Nat) : List Nat :=
  if src = dst then [src]
  else if (src + 2) % 4 = dst then
    let n := (src + 1) % 4
    [src, if s.live n && (s.die n).drain.isNone then n else (src + 3) % 4, dst]
  else [src, dst]

/-- A plane of every boundary on a way is up. -/
def State.wayUp (s : State) (plane : Nat) : List Nat → Bool
  | a :: b :: l => s.planeUp (2 * boundaryOf a b + plane) && s.wayUp plane (b :: l)
  | _ => true

/-- Traffic of a plane reaches a die from another, and its replies come back (R378); an operation toward a die that is gone, or from one,
ends for its loss and does not wait. -/
def State.reaches (s : State) (plane src dst : Nat) : Bool :=
  s.dieGone src || s.dieGone dst || (s.wayUp plane (s.way src dst) && s.wayUp plane (s.way dst src))

/-- Host physical memory (R396). -/
def isHostPa (pa : Nat) : Bool := decide (2 ^ 51 ≤ pa)

/-- The die of a physical address's home slice; none for host memory (R17). DESIGN CHOICE (log entry 5): every address below 2^51 is memory of its
home die, past the capacity of R1 and R15 as well; of those addresses the spec gives no outcome. -/
def State.homeDie (s : State) (pa : Nat) : Option Nat :=
  if isHostPa pa then none
  else some (((s.mem.homes.find? fun r => decide (r.1 ≤ pa && pa < r.2.1)).map fun r => r.2.2).getD 0)

/-- Whether the home of a physical address is on an absent or lost die. -/
def State.homeGone (s : State) (pa : Nat) : Bool :=
  match s.homeDie pa with
  | some d => s.dieGone d
  | none => false

/-- The die bits of a list of physical addresses, for the touched-dies mask (R151). -/
def State.diesOfPas (s : State) (pas : List Nat) : BitVec 4 :=
  pas.foldl (fun m pa => match s.homeDie pa with
    | some d => m ||| (1#4 <<< d)
    | none => m) 0

/-- A function of a die is ready (R397): 0 FABRIC, 1 HBM, 2 ISSUE, 3 CHURN, 4 VAT, 5 MATRIX, 6 LINKS. -/
def State.isReady (s : State) (die fn : Nat) : Bool := s.mgmt.ready.getLsbD (8 * die + fn)

/-- The port of a CXL link is up (R397). -/
def State.portUp (s : State) (port : Nat) : Bool := decide (port < 2) && s.mgmt.ready.getLsbD (32 + port)

/-- The issue units of a cluster run: it is there, and its die's ISSUE bit is set (R3, R388, R397). -/
def State.canIssue (s : State) (c : Nat) : Bool := !s.clusterGone c && s.isReady (dieOf c) 2

/-! ### Bytes, with live lines in their place (R246) -/

/-- The live line at a physical address. -/
def State.lineAt (s : State) (pa : Nat) : Option Line := SMap.get? s.ctx.lines (pa / 128)

/-- A physical address lies in a live line. -/
def State.inLive (s : State) (pa : Nat) : Bool := match s.lineAt pa with
  | some l => l.live
  | none => false

/-- One byte as the package sees it: a live line shows the contents its owner holds (R246). -/
def State.readByte (s : State) (pa : Nat) : Byte :=
  match s.lineAt pa with
  | some l => l.c.byte (pa % 128)
  | none => memByte s.mem.bytes pa

/-- Bytes at a list of physical addresses. -/
def State.readBytes (s : State) (pas : List Nat) : List Byte := pas.map s.readByte

/-- Little-endian value of bytes (R8). -/
def leNat : List Byte → Nat
  | [] => 0
  | b :: l => b.toNat + 256 * leNat l

/-- The n little-endian bytes of a number (R8). -/
def leBytes : Nat → Nat → List Byte
  | 0, _ => []
  | n + 1, x => BitVec.ofNat 8 x :: leBytes n (x / 256)

/-- n consecutive numbers from a. -/
def rangeFrom : Nat → Nat → List Nat
  | _, 0 => []
  | a, n + 1 => a :: rangeFrom (a + 1) n

/-- A little-endian number of n bytes at a physical address. -/
def State.readNat (s : State) (pa n : Nat) : Nat := leNat (s.readBytes (rangeFrom pa n))

/-- A 64-bit word at a physical address. -/
def State.readWord (s : State) (pa : Nat) : Word := BitVec.ofNat 64 (s.readNat pa 8)

/-- The byte written at an address by a list of address and byte pairs, the last one winning. -/
def lastWrite (w : List (Nat × Byte)) (pa : Nat) : Option Byte := w.foldl (fun r x => if x.1 = pa then some x.2 else r) none

/-- The words of a live line after the bytes of a write that fall into it. -/
def lineWords (c : Ctx) (key : Nat) (w : List (Nat × Byte)) (k : Nat) : Word :=
  BitVec.ofNat 64 (leNat ((List.range 8).map fun i => (lastWrite w (128 * key + 8 * k + i)).getD (c.byte (8 * k + i))))

/-- A line after a write: a live line takes the permitted part alone, and one that is not live is ordinary memory (R246). -/
def Line.afterWrite (l : Line) (new : Ctx) : Line := { l with c := if l.live then mergeHandler l.c new else new }

/-- Apply a write to the lines it touches, each as one action at the line's owner (R246). -/
def writeLines (w : List (Nat × Byte)) : SMap Line → SMap Line
  | [] => []
  | (k, l) :: m =>
    (if w.any (fun x => x.1 / 128 == k) then (k, l.afterWrite (.ofWords (lineWords l.c k w))) else (k, l))
      :: writeLines w m

/-- The 64-byte units that a write covers whole. -/
def fullUnits (pas : List Nat) : List Nat :=
  ((pas.map (· / 64)).dedup).filter fun u => (List.range 64).all fun i => pas.contains (64 * u + i)

/-- A unit of 64 bytes that a write covers whole loses its poison (R391). -/
def Mem.cleared (m : Mem) (pas : List Nat) : Mem :=
  if m.poison.isEmpty && m.wiped == 0 then m
  else
    let us := fullUnits pas
    { m with poison := m.poison.filter fun u => !us.contains u, clean := if m.wiped = 0 then [] else (m.clean ++ us).dedup }

/-- Write bytes at physical addresses: to live lines as R246 permits, to memory otherwise. -/
def State.writePairs (s : State) (w : List (Nat × Byte)) : State :=
  { s with
    ctx := { s.ctx with lines := writeLines w s.ctx.lines }
    mem := { (s.mem.cleared (w.map (·.1))) with
      bytes := w.foldl (fun m x => if (s.lineAt x.1).isSome then m else memSet m x.1 x.2) s.mem.bytes
      tags := if s.mem.tags.isEmpty then [] else w.foldl (fun t x => SMap.erase t x.1) s.mem.tags } }

/-- Write bytes at a list of physical addresses. -/
def State.writeBytes (s : State) (pas : List Nat) (bytes : List Byte) : State := s.writePairs (pas.zip bytes)

/-- Write a number of n bytes at a physical address. -/
def State.writeNat (s : State) (pa n x : Nat) : State := s.writeBytes (rangeFrom pa n) (leBytes n x)

/-- Whether a unit of 64 bytes is uncorrectable (R386, R391). -/
def State.unitBad (s : State) (u : Nat) : Bool :=
  s.mem.poison.contains u ||
    (s.mem.wiped != 0 && (match s.homeDie (64 * u) with
      | some d => s.mem.wiped.getLsbD d
      | none => false) && !s.mem.clean.contains u)

/-- Whether a byte is uncorrectable (R391). -/
def State.poisoned (s : State) (pas : List Nat) : Bool :=
  (!s.mem.poison.isEmpty || s.mem.wiped != 0) && pas.any fun pa => s.unitBad (pa / 64)

/-- Record the releases that a write carries (R305); a later atomic carries them on, whatever is written between (R297). -/
def State.tagBytes (s : State) (pas : List Nat) (t : List Tag) : State :=
  if t.isEmpty then s
  else { s with mem := { s.mem with
    tags := pas.foldl (fun m pa => SMap.set m pa t) s.mem.tags
    heads := pas.foldl (fun m pa => SMap.set m pa (SMap.getD m pa [] ++ t).dedup) s.mem.heads } }

/-- The releases that any write of some bytes has carried: an atomic carries them on (R297). -/
def State.headsAt (s : State) (pas : List Nat) : List Tag := (pas.flatMap fun pa => SMap.getD s.mem.heads pa []).dedup

/-! ### Translation (R26, R127, R150, R151, R288, R396) -/

/-- What an access does with a byte. -/
inductive AccMode where
  | read | write | exec
  deriving DecidableEq, Repr

/-- What translation finds wrong. -/
inductive AccFault where
  | translation
  | permission
  | attrFault
  /-- A TRV page whose HOME names no cluster that can take the access (R151). -/
  | dieLost
  /-- A TRV page of another cluster: the context migrates there (R151). -/
  | remote (dest : Nat)
  deriving DecidableEq, Repr

/-- The trap code of a fault (R236). -/
def AccFault.code : AccFault → BitVec 8
  | .translation => 0x10
  | .permission => 0x11
  | .attrFault => 0x12
  | .dieLost => 0x20
  | .remote _ => 0

/-- Whether a page translates an address of an ASID. -/
def Page.covers (p : Page) (asid : BitVec 12) (va : Nat) : Bool := p.asid == asid && decide (p.va ≤ va) && decide (va < p.va + p.size)

/-- The translation that a place uses: one its TLB still holds, or the page tables' (R230). -/
def State.findPage (s : State) (cluster : Nat) (asid : BitVec 12) (va : Nat) : Option Page :=
  match s.mem.stale.find? fun x => x.1 == cluster && x.2.covers asid va with
  | some x => some x.2
  | none => s.mem.pages.find? fun p => p.covers asid va

/-- Whether a page permits an access of a privilege level (R222, R288). -/
def Page.permits (p : Page) (m : AccMode) (level : Nat) : Bool :=
  match m with
  | .read => p.r
  | .write => p.w || (p.sw && decide (1 ≤ level))
  | .exec => p.x

/-- Who makes an access: a context, which a TRV page moves; a fetch, which never moves; an engine or a bank, which accesses TRV as
COH and PRV only at the page's home (R127, R196, R324). -/
inductive Agent where
  | context | fetch | engine
  deriving DecidableEq, Repr

/-- The attribute check of one page for a place (R151, R288, R396). -/
def State.attrCheck (s : State) (p : Page) (cluster pa : Nat) (ag : Agent) : Option AccFault :=
  if isHostPa pa && p.attr != .coh then some .attrFault
  else
    match p.attr, ag with
    | .coh, .context => none
    | .coh, .fetch => none
    | .coh, .engine => none
    | .swc, .context => none
    | .swc, .fetch => none
    | .swc, .engine => none
    | .prv, .context => if s.clusterGone p.home || p.home != cluster then some .attrFault else none
    | .prv, .fetch => none
    | .prv, .engine => if s.clusterGone p.home || p.home != cluster then some .attrFault else none
    | .trv, .context => if s.clusterGone p.home then some .dieLost else if p.home != cluster then some (.remote p.home) else none
    | .trv, .fetch => none
    | .trv, .engine => none

/-- Translate one byte. -/
def State.translate (s : State) (cluster : Nat) (asid : BitVec 12) (level : Nat) (ag : Agent) (m : AccMode) (va : Nat) :
    Except AccFault (Nat × Page) :=
  match s.findPage cluster asid va with
  | none => .error .translation
  | some p =>
    if p.permits m level then
      let pa := p.pa + (va - p.va)
      match s.attrCheck p cluster pa ag with
      | some f => .error f
      | none => .ok (pa, p)
    else .error .permission

/-- Translate n bytes from a virtual address, which wraps at 2^57; the fault comes with the address it was met at. The flags say which
bytes lie in SWC pages. -/
def State.transBytes (s : State) (cluster : Nat) (asid : BitVec 12) (level : Nat) (ag : Agent) (m : AccMode) (va : Nat) :
    Nat → Except (AccFault × Nat) (List Nat × List Bool)
  | 0 => .ok ([], [])
  | n + 1 =>
    match s.translate cluster asid level ag m (va % 2 ^ 57) with
    | .error f => .error (f, va % 2 ^ 57)
    | .ok (pa, p) =>
      match State.transBytes s cluster asid level ag m (va + 1) n with
      | .error e => .error e
      | .ok (l, m) => .ok (pa :: l, (p.attr == .swc) :: m)

/-! ### Die copies of SWC lines (R162, R289) -/

/-- The key of a die copy. -/
def copyKey (die line : Nat) : Nat := die * 2 ^ 45 + line

/-- The die copy through which an access to an SWC byte goes: none at the home die (R289). -/
def State.copyOf (s : State) (die pa : Nat) : Option Nat :=
  match s.homeDie pa with
  | some d => if d = die then none else some (copyKey die (pa / 128))
  | none => none

/-- A line's 128 bytes at its home slice. -/
def State.lineData (s : State) (line : Nat) : BitVec 1024 := BitVec.ofNat 1024 (s.readNat (128 * line) 128)

/-- The releases that the bytes of a line carry at its home slice, by their place in the line. -/
def State.lineTags (s : State) (line : Nat) : SMap (List Tag) :=
  if s.mem.tags.isEmpty then []
  else (List.range 128).filterMap fun i => (SMap.get? s.mem.tags (128 * line + i)).map fun t => (i, t)

/-- Which units of a line are uncorrectable at its home slice. -/
def State.lineBad (s : State) (line : Nat) : BitVec 2 := BitVec.ofBool (s.unitBad (2 * line + 1)) ++ BitVec.ofBool (s.unitBad (2 * line))

/-- Create the die copy of a line on first access, from the home slice (R289); poison comes with the data (R391). -/
def State.touchCopy (s : State) (key line : Nat) : State :=
  match SMap.get? s.mem.copies key with
  | some _ => s
  | none => { s with mem := { s.mem with
      copies := SMap.set s.mem.copies key { data := s.lineData line, dirty := 0, bad := s.lineBad line, tags := s.lineTags line } } }

/-- The copy through which an access of a die to a byte goes: none at the home slice, or when the byte is not in an SWC page (R289). -/
def State.viaCopy (s : State) (die : Nat) (swc : Bool) (pa : Nat) : Option Nat := if swc then s.copyOf die pa else none

/-- Bytes with their flags; flags that are missing are false. -/
def flagged : List Nat → List Bool → List (Nat × Bool)
  | [], _ => []
  | a :: l, [] => (a, false) :: flagged l []
  | a :: l, b :: m => (a, b) :: flagged l m

/-- The state after the die copies that an access to SWC bytes needs exist. -/
def State.touchCopies (s : State) (die : Nat) (swc : List Bool) (pas : List Nat) : State :=
  (flagged pas swc).foldl (fun t x => match t.viaCopy die x.2 x.1 with
    | some k => t.touchCopy k (x.1 / 128)
    | none => t) s

/-- A byte as a die reads it: through its die copy for SWC (R289). -/
def State.seenByte (s : State) (die : Nat) (swc : Bool) (pa : Nat) : Byte :=
  match (s.viaCopy die swc pa).bind (SMap.get? s.mem.copies) with
  | some c => (c.data >>> (8 * (pa % 128))).setWidth 8
  | none => s.readByte pa

/-- Bytes as a die reads them. -/
def State.seenBytes (s : State) (die : Nat) (swc : List Bool) (pas : List Nat) : List Byte :=
  (flagged pas swc).map fun x => s.seenByte die x.2 x.1

/-- Whether a byte as a die reads it is uncorrectable (R391). -/
def State.badByteAt (s : State) (die : Nat) (swc : Bool) (pa : Nat) : Bool :=
  match (s.viaCopy die swc pa).bind (SMap.get? s.mem.copies) with
  | some c => c.bad.getLsbD (pa / 64 % 2)
  | none => s.unitBad (pa / 64)

/-- Whether any of some bytes as a die reads them is uncorrectable. -/
def State.poisonedAt (s : State) (die : Nat) (swc : List Bool) (pas : List Nat) : Bool :=
  (flagged pas swc).any fun x => s.badByteAt die x.2 x.1

/-- The first of some bytes that is uncorrectable as a die reads it, or lies on a die that has gone. -/
def State.firstBad (s : State) (die : Nat) (swc : List Bool) (pas : List Nat) : Option Nat :=
  (flagged pas swc).findIdx? fun x => s.badByteAt die x.2 x.1 || s.homeGone x.1

/-- The releases that some bytes as a die reads them carry (R297). -/
def State.tagsAt (s : State) (die : Nat) (swc : List Bool) (pas : List Nat) : List Tag :=
  ((flagged pas swc).flatMap fun x => match (s.viaCopy die x.2 x.1).bind (SMap.get? s.mem.copies) with
    | some c => SMap.getD c.tags (x.1 % 128) []
    | none => SMap.getD s.mem.tags x.1 []).dedup

/-- Write one byte into a die copy and mark it dirty (R289), with the releases that the write carries. -/
def DieCopy.setByte (c : DieCopy) (off : Nat) (b : Byte) (t : List Tag) : DieCopy :=
  { c with
    data := (c.data &&& ~~~((255#1024) <<< (8 * off))) ||| ((b.setWidth 1024) <<< (8 * off))
    dirty := c.dirty ||| (1#128 <<< off)
    tags := SMap.put c.tags off t [] }

/-- A die copy after a write of some of its bytes: a unit that the write covers whole loses its poison (R391). -/
def DieCopy.write (c : DieCopy) (w : List (Nat × Byte)) (t : List Tag) : DieCopy :=
  let c := w.foldl (fun c x => c.setByte (x.1 % 128) x.2 t) c
  let full := (fullUnits (w.map (·.1))).foldl (fun (m : BitVec 2) u => m ||| (1#2 <<< (u % 2))) 0
  { c with bad := c.bad &&& ~~~full }

/-- Perform a write from a die, with the releases that it carries: into its die copies for SWC, else at the home slice (R289, R293). -/
def State.performWrite (s : State) (die : Nat) (swc : List Bool) (pas : List Nat) (bytes : List Byte) (t : List Tag) : State :=
  let w := (flagged pas swc).zip bytes
  let home := (w.filter fun x => (s.viaCopy die x.1.2 x.1.1).isNone).map fun x => (x.1.1, x.2)
  let s1 := (s.writePairs home).tagBytes (home.map (·.1)) t
  ((w.filterMap fun x => (s.viaCopy die x.1.2 x.1.1).map fun k => (k, x.1.1 / 128)).dedup).foldl (fun u k =>
    let u := u.touchCopy k.1 k.2
    match SMap.get? u.mem.copies k.1 with
    | some c =>
      let own := (w.filter fun x => s.viaCopy die x.1.2 x.1.1 == some k.1).map fun x => (x.1.1, x.2)
      { u with mem := { u.mem with copies := SMap.set u.mem.copies k.1 (c.write own t) } }
    | none => u) s1

/-- The pages that meet a range of an ASID. -/
def meetsPage (asid : BitVec 12) (lo hi : Nat) (p : Page) : Bool := p.asid == asid && decide (p.va < hi) && decide (lo < p.va + p.size)

/-- A unit of 64 bytes of memory becomes uncorrectable (R391). -/
def State.poisonUnit (s : State) (u : Nat) : State :=
  { s with mem := { s.mem with
      poison := if s.mem.poison.contains u then s.mem.poison else s.mem.poison ++ [u]
      clean := s.mem.clean.filter fun x => x != u } }

/-- Drop a die copy without any write-back (R162). -/
def State.dropCopy (s : State) (key : Nat) : State := { s with mem := { s.mem with copies := SMap.erase s.mem.copies key } }

end Sys2Proof.Machine
end

