-- ==== Sys2Proof/Machine/Ops.lean ====
section
/-! DEFINITION. The shared operations on the machine: lines and slots, error records, send buffers, context caches, run lists,
backlog rings, pools, reductions, and the taking of a trap with the return from it (R223 to R263, R336 to R355, R392). -/

namespace Sys2Proof.Machine

/-- One step's outcome. -/
abbrev Out := Host.Outcome State Fault Refusal

/-! ### The issue unit's clock (R63, R249, R253) -/

/-- The cycle at issue is that of slot sl (R253). -/
def State.slotCycle (s : State) (sl : Nat) : Bool := s.sched.cycle % 8 == sl

/-- The cycle at issue lies in the off-cycle window of slot sl (R63, R249). -/
def State.offCycle (s : State) (sl : Nat) : Bool := decide (4 ≤ (s.sched.cycle + 8 - sl) % 8)

/-! ### Fields -/

/-- The time base of a die (R14). -/
def State.timeAt (s : State) (d : Nat) : Word := if h : d < 4 then s.time[d] else 0

/-- The larger of two times. -/
def maxTime (a b : Word) : Word := if a.ult b then b else a

/-- What TIME returns to a context: the larger of its die's time base and its time floor (R232). -/
def State.timeOf (s : State) (c : Ctx) : Word := maxTime (s.timeAt c.dieNum) c.floor

/-- A context after an acquire of a release that carries time t (R305). -/
def Ctx.acquireTime (c : Ctx) (t : Word) : Ctx := { c with floor := maxTime c.floor (t + 1) }

/-- The control registers of an ASID. -/
def State.asidRegs (s : State) (a : BitVec 12) : AsidRegs := SMap.getD s.asids a.toNat AsidRegs.reset

/-- Set the control registers of an ASID. -/
def State.setAsid (s : State) (a : BitVec 12) (r : AsidRegs) : State := { s with asids := SMap.set s.asids a.toNat r }

/-- UNDELIV_COUNT increases by n (R168). -/
def State.addUndeliv (s : State) (a : BitVec 12) (n : Nat) : State :=
  s.setAsid a { s.asidRegs a with undeliv := (s.asidRegs a).undeliv + BitVec.ofNat 64 n }

/-- EV_REFUSED increases by n (R214). -/
def State.addRefused (s : State) (a : BitVec 12) (n : Nat) : State :=
  s.setAsid a { s.asidRegs a with refused := (s.asidRegs a).refused + BitVec.ofNat 64 n }

/-- Set one live line. -/
def State.setLine (s : State) (key : Nat) (l : Line) : State := { s with ctx := { s.ctx with lines := SMap.set s.ctx.lines key l } }

/-- A slot. -/
def slotKey (c u sl : Nat) : Nat := c * 32 + u * 8 + sl

/-- The record of a slot. -/
def State.slot (s : State) (c u sl : Nat) : SlotRec := SMap.getD s.ctx.slots (slotKey c u sl) SlotRec.empty

/-- Set the record of a slot. -/
def State.setSlot (s : State) (c u sl : Nat) (r : SlotRec) : State :=
  { s with ctx := { s.ctx with slots := SMap.set s.ctx.slots (slotKey c u sl) r } }

/-- The next operation's number. -/
def State.nextSeq (s : State) : State := { s with sched := { s.sched with seq := s.sched.seq + 1 } }

/-- A number as a word. -/
def w64 (n : Nat) : Word := BitVec.ofNat 64 n

/-- A virtual address as a word. -/
def vaWord (a : VAddr) : Word := a.setWidth 64

/-- The name of a context: its physical line and its generation, which no later context of the line has. -/
def ctxName (key : Nat) (l : Line) : Nat := key * 2 ^ 14 + l.c.gen.toNat

/-- The name of the context of a line. -/
def State.nameOf (s : State) (key : Nat) : Nat := match SMap.get? s.ctx.lines key with
  | some l => ctxName key l
  | none => key * 2 ^ 14

/-- The line number of no line: requests whose context has gone name it. -/
def noLine : Nat := 2 ^ 64

/-! ### Error records (R392, R393) -/

/-- Write one error record and give Neriup its copy (R392). Before bring-up sets ERRBASE there is no ring. -/
def State.writeError (s : State) (ws : List Word) : State :=
  let s := { s with mgmt := { s.mgmt with errCopies := s.mgmt.errCopies ++ [ws] } }
  let b := s.mgmt.errBase
  if !s.mgmt.based ∨ s.homeGone b then s
  else
    let head := s.readWord b
    if head - s.readWord (b + 8) = w64 Config.errorEntries then s.writeNat (b + 16) 8 ((s.readWord (b + 16)) + 1).toNat
    else
      let at_ := b + 64 + 64 * (head.toNat % Config.errorEntries)
      let s := s.writeBytes (rangeFrom at_ 64) (ws.flatMap fun w => leBytes 8 w.toNat)
      s.writeNat b 8 (head + 1).toNat

/-- A MEMORY record with the die of its home slice (R393). -/
def State.memoryErrorAt (s : State) (cause : Nat) (asid : BitVec 12) (handle pc va : Word) (pa home structure_ die : Nat) : State :=
  s.writeError [w64 (1 + cause * 2 ^ 8 + asid.toNat * 2 ^ 16 + home * 2 ^ 28), handle, pc, va, w64 (pa / 64 * 64), w64 structure_,
    s.timeAt die, 0]

/-- A MEMORY record (R393). -/
def State.memoryError (s : State) (cause : Nat) (asid : BitVec 12) (handle pc va : Word) (pa structure_ die : Nat) : State :=
  s.memoryErrorAt cause asid handle pc va pa ((s.homeDie pa).getD 0) structure_ die

/-- An uncorrectable unit that a write-back brings home: it makes its unit there so, and a record of cause 2 says that it was found (R391, R393). -/
def State.bringBad (s : State) (die line h : Nat) : State := (s.poisonUnit (2 * line + h)).memoryError 2 0 0 0 0 (128 * line + 64 * h) 1 die

/-- Write the dirty bytes of a die copy to the home slice, with the releases that they carry, and drop it when asked (R162, R289): a unit
that is uncorrectable and has dirty bytes makes its unit there so (R391). -/
def State.writeBack (s : State) (key : Nat) (drop : Bool) : State :=
  match SMap.get? s.mem.copies key with
  | none => s
  | some c =>
    let line := key % 2 ^ 45
    let offs := (List.range 128).filter fun i => c.dirty.getLsbD i
    let t := s.writeBytes (offs.map fun i => 128 * line + i) (offs.map fun i => (c.data >>> (8 * i)).setWidth 8)
    let t := if c.tags.isEmpty then t else offs.foldl (fun u i => u.tagBytes [128 * line + i] (SMap.getD c.tags i [])) t
    let t := ([0, 1].filter fun h => c.bad.getLsbD h && offs.any fun i => i / 64 == h).foldl (fun u h => u.bringBad (key / 2 ^ 45) line h) t
    { t with mem := { t.mem with
        copies := if drop then SMap.erase t.mem.copies key else SMap.set t.mem.copies key { c with dirty := 0 } } }

/-- A LINK record: the bits above the cause, and the lanes that remain (R393). -/
def State.linkError (s : State) (cause bits lanes die : Nat) : State :=
  s.writeError [w64 (4 + cause * 2 ^ 8 + bits), w64 lanes, 0, 0, 0, 0, s.timeAt die, 0]

/-- A DIE record (R393). -/
def State.dieError (s : State) (event die ended lost writer : Nat) : State :=
  s.writeError [w64 (5 + event * 2 ^ 8 + die * 2 ^ 16), w64 ended, w64 lost, 0, 0, 0, s.timeAt writer, 0]

/-- A HOST record (R393). -/
def State.hostError (s : State) (cause : Nat) (asid : BitVec 12) (handle w0 : Word) (die : Nat) : State :=
  s.writeError [w64 (6 + cause * 2 ^ 8 + asid.toNat * 2 ^ 16), handle, w0, 0, 0, 0, s.timeAt die, 0]

/-! ### Send buffers (R167, R179, R214, R347) -/

/-- The entries of a send buffer. -/
def State.sendsOf (s : State) (buf : Nat) : List SendEntry := SMap.getD s.fl.sends buf []

/-- Set the entries of a send buffer. -/
def State.setSends (s : State) (buf : Nat) (l : List SendEntry) : State := { s with fl := { s.fl with sends := SMap.put s.fl.sends buf l [] } }

/-- Whether an entry of a send buffer is free. -/
def State.sendFree (s : State) (buf : Nat) : Bool := decide ((s.sendsOf buf).length < Config.sendEntries)

/-- Put a request into a send buffer; it takes the next operation number as its name. -/
def State.pushSend (s : State) (buf : Nat) (what : SendWhat) (line : Option Nat) (asid : BitVec 12) (pc : VAddr) (tags : List Tag) : State :=
  let e : SendEntry :=
    { id := s.sched.seq, what := what, line := line, asid := asid, pc := pc, tags := tags, hold := none, merged := [] }
  (s.setSends buf (s.sendsOf buf ++ [e])).nextSeq

/-- Whether a context has a request that is not acknowledged (R167, R179, R214). -/
def State.unacked (s : State) (key : Nat) : Bool := s.fl.sends.any fun b => b.2.any fun e => e.line == some key

/-- A request of a context that counts as one of its writes for a fence: a SEND or DEP (R160). -/
def SendWhat.isSend : SendWhat → Bool
  | .msg _ _ _ _ _ _ .context => true
  | .dep _ _ _ => true
  | .notice _ _ _ _ => true
  | _ => false

/-- The die of a send buffer: a cluster's, or that of CXL port 0 or 1 (R347). -/
def bufDie (buf : Nat) : Nat := if buf = 192 then 0 else if buf = 193 then 2 else dieOf buf

/-! ### Run lists and backlog rings (R259, R352, R353) -/

/-- A run list of a cluster. -/
def State.runList (s : State) (c cls : Nat) : List RunEntry := SMap.getD s.ctx.run (c * 4 + cls) []

/-- Set a run list. -/
def State.setRun (s : State) (c cls : Nat) (l : List RunEntry) : State :=
  { s with ctx := { s.ctx with run := SMap.put s.ctx.run (c * 4 + cls) l [] } }

/-- The effective class of an entry (R353). -/
def effClass (cls : BitVec 2) (age : Nat) : Nat := min 3 (cls.toNat + age / Config.agingTurns)

/-- The age of an entry in a fabric cycle: it increases by 1 for each turn, eight cycles of the issue units' clock, that the entry spends in a
list (R9, R253, R353). -/
def RunEntry.ageAt (e : RunEntry) (cycle : Nat) : Nat := e.age + (cycle / 8 - e.from_ / 8)

/-- A list after an entry: behind those that enter no later than it does. -/
def enterRun (l : List RunEntry) (e : RunEntry) : List RunEntry :=
  (l.filter fun x => decide (x.from_ ≤ e.from_)) ++ e :: l.filter fun x => decide (e.from_ < x.from_)

/-- A line enters the tail of the list of its effective class, in the given cycle or at once. -/
def State.runAdd (s : State) (c key : Nat) (cls : BitVec 2) (age from_ : Nat) : State :=
  let k := effClass cls age
  s.setRun c k (enterRun (s.runList c k) { line := key, age := age, from_ := max s.sched.cycle from_ })

/-- A line leaves every run list. -/
def State.runDrop (s : State) (key : Nat) : State :=
  { s with ctx := { s.ctx with run := s.ctx.run.filterMap fun e =>
      let l := e.2.filter fun x => x.line != key
      if l.isEmpty then none else some (e.1, l) } }

/-- The physical address of a cluster's record (R352). -/
def State.clusterRecord (s : State) (c : Nat) : Nat := s.mgmt.ptBase + 32 * 4096 * 192 + 32 * c

/-- The capacity, base, head and tail of a backlog ring (R352). -/
def State.ring (s : State) (c : Nat) : Nat × Nat × BitVec 32 × BitVec 32 :=
  let r := s.clusterRecord c
  (s.readNat (r + 8) 4, s.readNat r 8 % 2 ^ 57 / 8 * 8, BitVec.ofNat 32 (s.readNat (r + 16) 4), BitVec.ofNat 32 (s.readNat (r + 24) 4))

/-- The entries of a backlog ring, as many as its capacity admits. -/
def State.ringCount (s : State) (c : Nat) : Nat := let (_, _, head, tail) := s.ring c; (tail - head).toNat

/-- The handle at the head of a backlog ring. -/
def State.ringHead (s : State) (c : Nat) : Word :=
  let (cap, base, head, _) := s.ring c
  s.readWord (base + 8 * (head.toNat % cap))

/-- The lines behind the entries of a backlog ring (R259). -/
def State.ringKeys (s : State) (c : Nat) : List Nat := SMap.getD s.ctx.rings c []

/-- Set the lines behind the entries of a backlog ring. -/
def State.setRingKeys (s : State) (c : Nat) (l : List Nat) : State := { s with ctx := { s.ctx with rings := SMap.put s.ctx.rings c l [] } }

/-- Append the handle of a line to a backlog ring that has room. -/
def State.ringPut (s : State) (c key : Nat) (h : Word) : State :=
  let (cap, base, _, tail) := s.ring c
  ((s.writeNat (base + 8 * (tail.toNat % cap)) 8 h.toNat).writeNat (s.clusterRecord c + 24) 4 (tail + 1).toNat).setRingKeys c
    (s.ringKeys c ++ [key])

/-- Remove the head of a backlog ring. -/
def State.ringTake (s : State) (c : Nat) : State :=
  let (_, _, head, _) := s.ring c
  (s.writeNat (s.clusterRecord c + 16) 4 (head + 1).toNat).setRingKeys c ((s.ringKeys c).drop 1)

/-- The line of a READY line in memory is appended to the backlog ring of its current cluster, unless it is listed (R259); a full
ring makes its home slice hold the append (R352). -/
def State.ringAppend (s : State) (key : Nat) (l : Line) : State :=
  if l.c.st.queued then s.setLine key l
  else
    let c := l.c.here
    let (cap, _, head, tail) := s.ring c
    let held := SMap.getD s.ctx.heldAppends c []
    if (tail - head).toNat = cap ∨ held ≠ [] then
      let s := (s.setLine key l)
      let s := { s with ctx := { s.ctx with heldAppends := SMap.set s.ctx.heldAppends c (held.filter (· != key) ++ [key]) } }
      if held = [] then s.memoryError 7 0 0 0 0 0 0 (dieOf c) else s
    else (s.ringPut c key l.handle).setLine key { l with c := { l.c with st := { l.c.st with queued := true } } }

/-- Make the held appends that a ring has room for, in order (R352); the list bounds them. -/
def State.heldAppend (s : State) (c : Nat) : List Nat → State
  | [] => s
  | key :: rest =>
    let (cap, _, head, tail) := s.ring c
    if (tail - head).toNat = cap then s
    else
      let t := { s with ctx := { s.ctx with heldAppends := SMap.put s.ctx.heldAppends c rest [] } }
      match SMap.get? t.ctx.lines key with
      | some l =>
        if l.place = .memory ∧ l.c.st.state = .ready ∧ l.c.here = c ∧ !l.c.st.queued then
          State.heldAppend ((t.ringPut c key l.handle).setLine key { l with c := { l.c with st := { l.c.st with queued := true } } }) c rest
        else State.heldAppend t c rest
      | none => State.heldAppend t c rest

/-- A line has become READY: it joins the list or the ring of its place (R259, R353). A line that holds its slot joins neither: it
issues at the slot's next turn (R254). -/
def State.enterReady (s : State) (key : Nat) (l : Line) (age : Nat) : State :=
  match l.place with
  | .slot _ _ _ => s.setLine key l
  | .l1 c _ => (s.setLine key l).runAdd c key l.c.st.cls age l.out
  | .l2 c => (s.setLine key l).runAdd c key l.c.st.cls age l.out
  | .arrival c => (s.setLine key l).runAdd c key l.c.st.cls age l.out
  | .transit _ => s.setLine key l
  | .toSlot _ _ _ => s.setLine key l
  | .toL1 _ _ _ => s.setLine key l
  | .memory => s.ringAppend key l

/-- A line in a state of its own choosing: the state field alone changes. -/
def Line.withState (l : Line) (x : CState) : Line := { l with c := { l.c with st := { l.c.st with state := x } } }

/-- A WAITING line becomes READY. -/
def State.wake (s : State) (key : Nat) (l : Line) : State := s.enterReady key (l.withState .ready) 0

/-- Whether the condition of a wait holds that a change of the line itself can make hold (R122, R247). -/
def Line.waitOver (l : Line) : Bool :=
  l.c.st.state == .waiting &&
    (if l.c.waitKind = 1 then l.c.st.full &&& l.watch == l.watch
     else if l.c.waitKind = 2 then l.c.inboxCount != 0
     else if l.c.waitKind = 8 then l.c.st.pend &&& l.watch == 0
     else false)

/-- The releases of the deposits that stand in some registers (R301). -/
def Line.depTags (l : Line) (regs : BitVec 8) : List Tag :=
  l.deps.flatMap fun x => if regs.getLsbD x.1 && l.c.reg (regOf x.1) == x.2.1 then x.2.2 else []

/-- A line whose context has read some registers: it has heard the releases of the deposits in them (R301). -/
def Line.hearRegs (l : Line) (regs : BitVec 8) : Line := { l with heard := (l.heard ++ l.depTags regs).dedup }

/-- The end of the turn that runs for slot sl (R63). -/
def State.turnEnd (s : State) (sl : Nat) : Nat := s.sched.cycle + 8 - (s.sched.cycle + 8 - sl) % 8

/-- The turn in which a line in a slot issued last has not ended. -/
def State.inTurn (s : State) (l : Line) : Bool := match l.place with
  | .slot c u sl => decide (s.sched.cycle < (s.slot c u sl).turn + 7) && decide ((s.slot c u sl).seq ≤ l.issued)
  | _ => false

/-- The wait object of a WAIT for full registers is the lowest that is empty at the end of the turn (R121, R122). -/
def State.rewait (s : State) (l : Line) : Line :=
  if l.c.st.state = .waiting ∧ l.c.waitKind = 1 ∧ s.inTurn l then
    { l with c := { l.c with waitObj := BitVec.ofNat 60 (lowestReg (l.watch &&& ~~~l.c.st.full)) } }
  else l

/-- A line after a change at its owner: the change and the wake are one action (R122). A context that waited for deposits has met them
(R301). -/
def State.settle (s : State) (key : Nat) (l : Line) : State :=
  if l.waitOver then s.wake key (if l.c.waitKind = 1 then l.hearRegs l.watch else l) else s.setLine key (s.rewait l)

/-! ### Reductions that stop (R171) -/

/-- The code of a kind of addition in QKIND (R171). -/
def redKindCode : RedKind → BitVec 2
  | .i64 => 1 | .f64 => 2 | .f32 => 3

/-- The bits of two registers. -/
def twoRegs (a b : Nat) : BitVec 8 := regMask (regOf a) ||| regMask (regOf b)

/-- A context departs: a reduction that runs for it stops, its partial sum and count go into the line, and the status word records it
(R171). -/
def State.stopReduction (s : State) (key : Nat) (l : Line) : State × Line :=
  match s.fl.reds.find? fun r => r.line == key with
  | none => (s, l)
  | some r =>
    let c := (l.c.setReg (regOf r.dreg) r.acc).setReg (regOf r.areg) (w64 r.cnt)
    let st := { c.st with
      pend := c.st.pend &&& ~~~(twoRegs r.dreg r.areg), qkind := redKindCode r.kind, qacc := BitVec.ofNat 3 r.dreg, qcnt := BitVec.ofNat 3 r.areg }
    ({ s with fl := { s.fl with reds := s.fl.reds.filter fun r => r.line != key } },
     { l with c := { c with st := st }, redo := false, qred := (r.pc, r.word) })

/-! ### The context caches (R257, R258) -/

/-- The cluster in whose slots or caches a line is. -/
def Place.cluster? : Place → Option Nat
  | .slot c _ _ => some c
  | .l1 c _ => some c
  | .l2 c => some c
  | .arrival c => some c
  | .transit _ => none
  | .toSlot _ _ _ => none
  | .toL1 c _ _ => some c
  | .memory => none

/-- Whether a place is in an issue unit's context L1: a line in a slot holds its place there (R257). -/
def Place.inL1 (c u : Nat) : Place → Bool
  | .slot c' u' _ => c' == c && u' == u
  | .l1 c' u' => c' == c && u' == u
  | _ => false

/-- The lines of an issue unit's context L1. -/
def State.l1Count (s : State) (c u : Nat) : Nat :=
  (s.ctx.lines.filter fun x => x.2.place.inL1 c u).length + (s.ctx.resid.filter fun x => x.2.1.inL1 c u).length

/-- The lines of a cluster's context L2. -/
def State.l2Count (s : State) (c : Nat) : Nat :=
  (s.ctx.lines.filter fun x => x.2.place == .l2 c).length + (s.ctx.resid.filter fun x => x.2.1 == .l2 c).length

/-- The lines of a cluster's arrival queue. -/
def State.arrivals (s : State) (c : Nat) : Nat := (s.ctx.lines.filter fun x => x.2.place == .arrival c).length

/-- The order of the wait kinds in R257. -/
def waitRank (k : BitVec 4) : Nat := ([5, 2, 9, 3, 1, 4, 10, 7, 8].findIdx? (· == k.toNat)).getD 9

/-- The rank of a live line as a victim (R257); none for a line that is none. -/
def Line.victimRank (l : Line) : Option Nat :=
  if l.c.st.valid then none
  else match l.c.st.state with
    | .trapped | .parked => some 1
    | .waiting => some (2 + waitRank l.c.waitKind)
    | .ready => some 20
    | _ => none

/-- The smaller of two candidates: rank, then least recently issued (R257); DESIGN CHOICE (log entry 78): of two that are equal, the lower physical line. -/
def betterVictim (a b : Nat × Nat × Nat) : Bool :=
  decide (a.1 < b.1) || (a.1 == b.1 && (decide (a.2.1 < b.2.1) || (a.2.1 == b.2.1 && decide (a.2.2 < b.2.2))))

/-- The best of a list of candidates. -/
def bestVictim (l : List (Nat × Nat × Nat)) : Option Nat :=
  (l.foldl (fun r x => match r with
    | none => some x
    | some y => if betterVictim x y then some x else some y) none).map fun x => x.2.2

/-- The victim that a cache chooses among the lines of a place; `free` says which live lines may leave (R258). -/
def State.victim (s : State) (inPlace : Place → Bool) (free : Nat → Line → Bool) : Option Nat :=
  bestVictim
    ((s.ctx.resid.filterMap fun x => if inPlace x.2.1 then some (0, x.2.2, x.1) else none) ++
     (s.ctx.lines.filterMap fun x =>
        if inPlace x.2.place && free x.1 x.2 then (x.2.victimRank).map fun r => (r, x.2.issued, x.1) else none))

/-- A line leaves a cache for memory, through its home slice. -/
def State.toMemory (s : State) (key : Nat) : State :=
  match SMap.get? s.ctx.lines key with
  | some l =>
    let s := s.runDrop key
    let l := { l with place := .memory }
    if l.c.st.state = .ready then s.ringAppend key l else s.setLine key l
  | none => { s with ctx := { s.ctx with resid := SMap.erase s.ctx.resid key } }

/-- A line moves from a context L1 to its cluster's context L2; a reduction that still runs for it stops (R171). -/
def State.toL2 (s : State) (key c : Nat) : State :=
  match SMap.get? s.ctx.lines key with
  | some l =>
    let (s, l) := s.stopReduction key l
    s.setLine key { l with place := .l2 c }
  | none =>
    match SMap.get? s.ctx.resid key with
    | some r => { s with ctx := { s.ctx with resid := SMap.set s.ctx.resid key (.l2 c, r.2) } }
    | none => s

/-- A free place in a context L2, a victim making one where needed; READY victims only where allowed (R257 to R260). -/
def State.roomL2 (s : State) (c : Nat) (ready : Bool) : Option State :=
  if s.l2Count c < Config.l2Lines then some s
  else (s.victim (· == .l2 c) fun k l => !s.unacked k && (ready || l.c.st.state != .ready)).map s.toMemory

/-- A free place in an issue unit's context L1 (R257). -/
def State.roomL1 (s : State) (c u : Nat) : Option State :=
  if s.l1Count c u < Config.l1Lines then some s
  else
    match s.victim (· == .l1 c u) fun _ _ => true with
    | none => none
    | some k => (s.roomL2 c true).map fun t => t.toL2 k c

/-! ### Slots, departure (R249 to R261) -/

/-- A line leaves its slot, if it holds one, for its issue unit's context L1 (R249, R254). -/
def State.freeSlot (s : State) (l : Line) : State × Line :=
  match l.place with
  | .slot c u sl =>
    (s.setSlot c u sl { s.slot c u sl with line := none, freed := s.sched.cycle + 1 },
     { l with place := .l1 c u, out := s.turnEnd sl, c := { l.c with st := { l.c.st with valid := false } } })
  | _ => (s, l)

/-- Also forget a claim that was under way for the line. -/
def State.unclaim (s : State) (key : Nat) (l : Line) : State × Line :=
  let slots := s.ctx.slots.map fun x => if x.2.coming == some key then (x.1, { x.2 with coming := none, swap := none }) else x
  ({ s with ctx := { s.ctx with slots := slots } }, { l with c := { l.c with st := { l.c.st with valid := false } } })

/-- A line gives up its slot keeping its state; a context that waits with kind 8 and whose reduction stops waits for its inbox instead,
and is READY at once when it holds a message (R171). The line is returned, not stored. -/
def State.leaveSlot (s : State) (key : Nat) (l : Line) : State × Line :=
  let red := s.fl.reds.any fun r => r.line == key
  let (s, l) := s.stopReduction key l
  let l := if red && l.c.st.state == .waiting && l.c.waitKind == 8 then { l with c := { l.c with waitKind := 2, waitObj := 0 } } else l
  let (s, l) := s.freeSlot l
  (s, if l.waitOver then l.withState .ready else l)

/-- A line that is WAITING leaves its slot for its context L1, its last turn there having ended; it joins a run list when the departure makes it
READY. -/
def State.evictSlot (s : State) (key : Nat) (l : Line) : State :=
  let (s, l) := s.leaveSlot key l
  let l := { l with out := s.sched.cycle }
  if l.c.st.state = .ready then s.enterReady key l 0 else s.setLine key l

/-- A line becomes IN_TRANSIT toward a cluster, with kind 6 and the given object (R151, R152, R176, R261). -/
def State.depart (s : State) (key : Nat) (l : Line) (dest : Nat) (obj : BitVec 60) : State :=
  let (s, l) := s.stopReduction key l
  let (s, l) := s.freeSlot l
  let s := s.runDrop key
  let l := l.withState .inTransit
  s.setLine key { l with place := .transit dest, goTo := none, c := { l.c with waitKind := 6, waitObj := obj } }

/-- A line that waits for its acknowledgements leaves once it has them; a CANCEL comes first (R250). -/
def State.tryDepart (s : State) (key : Nat) : State :=
  match SMap.get? s.ctx.lines key with
  | some l =>
    match l.goTo with
    | some (dest, obj) => if s.unacked key ∨ l.cancelled then s else s.depart key l dest obj
    | none => s
  | none => s

/-- A line leaves its cluster now, or once its requests are acknowledged (R167, R261). -/
def State.leaveFor (s : State) (key : Nat) (l : Line) (dest : Nat) (obj : BitVec 60) : State :=
  if s.unacked key then s.setLine key { l with goTo := some (dest, obj) } else s.depart key l dest obj

/-- Contexts of a cluster that wait for a free send-buffer entry become READY (R167). -/
def State.wakeSenders (s : State) (buf : Nat) : State :=
  s.ctx.lines.foldl (fun t x =>
    match SMap.get? t.ctx.lines x.1 with
    | some l => if l.c.st.state = .waiting ∧ l.c.waitKind = 4 ∧ l.watch = 0 ∧ l.c.here = buf then t.wake x.1 l else t
    | none => t) s

/-- An entry is freed: its sender may leave or retire, and a waiting sender of the cluster is woken (R167, R175). -/
def State.freeEntry (s : State) (buf id : Nat) : State :=
  let line := ((s.sendsOf buf).find? fun e => e.id == id).bind (·.line)
  let s := s.setSends buf ((s.sendsOf buf).filter fun e => e.id != id)
  let s := s.wakeSenders buf
  match line with
  | none => s
  | some key =>
    let s := s.tryDepart key
    match SMap.get? s.ctx.lines key with
    | some l => if l.c.st.state = .waiting ∧ l.c.waitKind = 4 ∧ l.watch ≠ 0 ∧ !s.unacked key then s.wake key l else s
    | none => s

/-! ### Traps (R236 to R239) and the return from one (R224) -/

/-- A trap to be taken: its code, the PC word and the wait object it leaves (none for a zero wait word), and what its record says. -/
structure TrapInfo where
  code : BitVec 8
  pc : VAddr
  obj : Option (BitVec 60)
  /-- The address of the faulting instruction (offset 0x10). -/
  at_ : VAddr
  /-- The source address (offset 0x18). -/
  src : VAddr
  va : Word
  word : Word
  detail : Word
  deriving DecidableEq, Repr

/-- The trap codes whose record gives a faulting virtual address, or a bad target (R238). -/
def trapHasVa (code : BitVec 8) : Bool := (code.toNat == 4) || (code.toNat == 5) || (code.toNat == 7) || (decide (0x10 ≤ code.toNat && code.toNat ≤ 0x16))

/-- The 64 bytes of a trap record as eight words (R238). -/
def trapRecord (l : Line) (t : TrapInfo) (kind : BitVec 4) (time : Word) : List Word :=
  [l.handle,
   w64 (t.code.toNat + kind.toNat * 2 ^ 8 + l.c.asid.toNat * 2 ^ 16 + l.c.launch.toNat * 2 ^ 32),
   vaWord t.at_, vaWord t.src, if trapHasVa t.code then t.va else 0,
   if 0x13 ≤ t.code.toNat ∧ t.code.toNat ≤ 0x15 then 0 else t.word, t.detail, time]

/-- The trap ring is full or absent (R228). -/
def AsidRegs.ringFull (r : AsidRegs) : Bool := r.ringSize == 0 || (r.ringHead - r.ringTail).toNat == 2 ^ r.ringSize.toNat

/-- The address of trap record j (R228). -/
def AsidRegs.recordVa (r : AsidRegs) (j : Nat) : Nat := r.ringBase.toNat * 2 ^ 12 + 64 * (j % 2 ^ r.ringSize.toNat)

/-- Where a device write to an ASID's memory lands: a COH page that the ASID can write, without uncorrectable data (R164, R228, R237). -/
def State.deviceDest (s : State) (cluster : Nat) (asid : BitVec 12) (va n : Nat) : Option (List Nat) :=
  match s.transBytes cluster asid 1 .engine .write va n with
  | .ok (pas, _) =>
    let coh := (List.range n).all fun i => match s.findPage cluster asid ((va + i) % 2 ^ 57) with
      | some p => p.attr == .coh
      | none => false
    if coh && !s.poisoned pas && !(pas.any s.homeGone) then some pas else none
  | .error _ => none

/-- Write the trap record, or count it as not written (R237). The index, or none. -/
def State.writeTrapRecord (s : State) (l : Line) (ws : List Word) : State × Option (BitVec 32 × Nat) :=
  let r := s.asidRegs l.c.asid
  let missed := s.setAsid l.c.asid { r with ringOver := r.ringOver + 1 }
  if r.ringFull then (missed, none)
  else
    let va := r.recordVa r.ringHead.toNat
    match s.deviceDest l.c.here l.c.asid va 64 with
    | none => (missed, none)
    | some pas =>
      ((s.writeBytes pas (ws.flatMap fun w => leBytes 8 w.toNat)).setAsid l.c.asid { r with ringHead := r.ringHead + 1 },
       some (r.ringHead, va))

/-- Send the trap notice, or count it as undeliverable when there is no handler (R237, R239). -/
def State.sendTrapNotice (s : State) (l : Line) (code : BitVec 8) (rec : Option (BitVec 32 × Nat)) (time : Word) : State :=
  let h := (s.asidRegs l.c.asid).handler
  if h = 0 then s.addUndeliv l.c.asid 1
  else
    let w1 := match rec with
      | some (j, _) => w64 j.toNat
      | none => 0xFFFFFFFF
    let w2 := match rec with
      | some (_, va) => w64 (va + 0x10)
      | none => 0
    s.pushSend l.c.here (.msg h l.handle w1 w2 (w64 (0xF * 2 ^ 60 + 4 * 2 ^ 56 + code.toNat)) 4 .trapNotice) none l.c.asid 0
      [{ time := time, scope := .pkg, cluster := l.c.here, auto := true, who := none, seq := 0 }]

/-- The place of a line that is trapped on its way between places: it stays with its home slice, to which one on its way within a cluster
goes (R248; log entry 77). -/
def Place.settled : Place → Place
  | .transit _ => .memory
  | .toSlot _ _ _ => .memory
  | .toL1 _ _ _ => .memory
  | p => p

/-- TRAP TAKEN (R237): the context becomes TRAPPED with its code, PC word and wait word, its slot is freed, its record is written and its
notice sent. A replay marker that has not been used yet stays for the RESUME (R153). -/
def State.takeTrap (s : State) (key : Nat) (l : Line) (t : TrapInfo) : State :=
  let (s, l) := s.stopReduction key l
  let (s, l) := s.freeSlot l
  let (s, l) := s.unclaim key l
  let s := s.runDrop key
  let obj := match t.obj with
    | some o => some o
    | none => if l.c.marker then some l.c.waitObj else l.reissue.map markerObj
  let time := s.timeOf l.c
  let c := { l.c with
    pc := t.pc, waitKind := (if obj.isSome then 15 else 0), waitObj := obj.getD 0, floor := time
    st := { l.c.st with state := .trapped, trapcode := t.code } }
  let l := { l with c := c, place := l.place.settled, goTo := none, reissue := none }
  let s := s.setLine key l
  let (s, rec) := s.writeTrapRecord l (trapRecord l t l.c.waitKind time)
  s.sendTrapNotice l t.code rec time

/-- RESUME at the target's owner (R224): a TRAPPED line becomes READY; a zero replay marker is dropped, another is kept. Its next issue
acquires the RESUME (R296). -/
def Line.resumed (l : Line) (time : Word) : Line :=
  let keep := !(l.c.waitKind == 15 && !l.c.waitObj.getLsbD 0)
  { l with onIssue := some time, c := { l.c with
      waitKind := (if keep then l.c.waitKind else 0), waitObj := (if keep then l.c.waitObj else 0)
      st := { l.c.st with trapcode := 0, state := .ready } } }

/-- Since when POWER has been below 95% of LIMIT, after a change of either (R404). -/
def Mgmt.recalm (m : Mgmt) (cycle : Nat) : Mgmt :=
  { m with calm := if 100 * m.power.toNat < 95 * m.limit.toNat then some (m.calm.getD cycle) else none }

/-- The fabric cycles of 1 ms (R9). -/
def millisecond : Nat := 2000000

/-- The alarm stands, and the 1 ms average has stayed below 95% of LIMIT for 1 ms (R404; log entry 72). -/
def Mgmt.mayClear (m : Mgmt) (cycle : Nat) : Bool := m.alarm && m.calm.any fun t => decide (t + millisecond ≤ cycle)

/-- What stops a fetch, by its trap code (R128, R391): of a host page that is not COH, the attribute fault (R396; log entry 11). -/
def AccFault.fetchCode : AccFault → BitVec 8
  | .permission => 0x14
  | .attrFault => 0x12
  | _ => 0x13

/-- The word at an address, as a context fetches it (R127): or the code of the fetch trap. -/
def State.fetch (s : State) (c : Ctx) (at_ : VAddr) : Except (BitVec 8) Word :=
  match s.transBytes c.here c.asid c.level .fetch .exec at_.toNat 8 with
  | .error (f, _) => .error f.fetchCode
  | .ok (pas, swc) =>
    if s.poisonedAt c.dieNum swc pas || pas.any s.homeGone then .error 0x15
    else .ok (w64 (leNat (s.seenBytes c.dieNum swc pas)))

/-- An access that the loss of a die has ended: its address, its word, and whether it is to be replayed (R387). -/
structure EndedAccess where
  pc : VAddr
  word : Word
  marker : Bool
  deriving DecidableEq, Repr

/-- The trap of a lost die (R387): the PC word holds the next instruction to issue. The record names that instruction, or the access that the
loss has ended, which a load's replay marker names too (R238). DESIGN CHOICE (log entry 78): where the next instruction's word cannot be fetched, offset 0x28
of the record holds 0. -/
def State.dieLostTrap (s : State) (l : Line) (e : Option EndedAccess) : TrapInfo :=
  let at_ := e.elim l.c.pc (·.pc)
  let word := match e with
    | some x => x.word
    | none => match s.fetch l.c l.c.pc with
      | .ok w => w
      | .error _ => 0
  { code := 0x20, pc := l.c.pc, obj := e.bind fun x => if x.marker then some (markerObj x.pc) else none, at_ := at_, src := at_, va := 0
    word := word, detail := 0 }

/-- A context that waits for an ordering or a range operation has not completed that instruction: it is the next to issue again
(R162, R387). -/
def State.rewind (s : State) (key : Nat) (l : Line) : State × Line :=
  let pc := ((s.fl.orders.find? fun r => r.line == key).map (·.pc)).or ((s.fl.ranges.find? fun r => r.line == key).map (·.pc))
  if l.c.st.state = .waiting then
    match pc with
    | some a =>
      ({ s with fl := { s.fl with orders := s.fl.orders.filter fun r => r.line != key, ranges := s.fl.ranges.filter fun r => r.line != key } },
       { l with c := { l.c with pc := a } })
    | none => (s, l)
  else (s, l)

/-- A context that has touched a lost die is trapped (R387), for an access that the loss has ended where there is one. -/
def State.trapLostAt (s : State) (key : Nat) (l : Line) (e : Option EndedAccess) : State :=
  let (s, l) := s.rewind key { l with lost := 0 }
  s.takeTrap key l (s.dieLostTrap l e)

/-- A context that has touched a lost die is trapped (R387). -/
def State.trapLost (s : State) (key : Nat) (l : Line) : State := s.trapLostAt key l none

/-- The first action at a line after a fence of a die that it has touched applies the loss (R387). -/
def State.applyLoss (s : State) (key : Nat) : State :=
  match SMap.get? s.ctx.lines key with
  | some l =>
    if l.lost &&& l.c.st.dies ≠ 0 then s.trapLost key l
    else if l.lost ≠ 0 then s.setLine key { l with lost := 0 } else s
  | none => s

/-! ### Pools (R349 to R351) -/

/-- The physical address of a pool entry (R349). -/
def State.poolEntry (s : State) (c : Nat) (a : BitVec 12) : Nat := s.mgmt.ptBase + 32 * (4096 * c + a.toNat)

/-- TOP of a pool that is in use. -/
def State.poolTop (s : State) (c : Nat) (a : BitVec 12) : Nat :=
  let e := s.poolEntry c a
  if s.mgmt.based && (s.readWord e).getLsbD 63 then s.readNat (e + 24) 4 else 0

/-- The physical bytes of entry k of a pool's stack. -/
def State.stackEntry (s : State) (c : Nat) (a : BitVec 12) (k : Nat) : Option (List Nat) :=
  let base := s.readNat (s.poolEntry c a) 8 % 2 ^ 57 / 8 * 8
  match s.transBytes c a 1 .engine .read (base + 8 * k) 8 with
  | .ok (pas, _) => some pas
  | .error _ => none

/-- The physical line that a line number of an ASID names. -/
def State.lineKey (s : State) (c : Nat) (a : BitVec 12) (lnum : Nat) : Option Nat :=
  match s.translate c a 1 .engine .read (lnum * 128 % 2 ^ 57) with
  | .ok (pa, _) => some (pa / 128)
  | .error _ => none

/-- The line on top of a pool's stack, with its physical line number; none when the pool is empty or its top names no line that a
context could be made of. -/
def State.poolPeek (s : State) (c : Nat) (a : BitVec 12) : Option (Nat × Nat) :=
  let top := s.poolTop c a
  if top = 0 then none
  else
    match s.stackEntry c a (top - 1) with
    | none => none
    | some pas =>
      let lnum := leNat (s.readBytes pas) % 2 ^ 50
      match s.lineKey c a lnum with
      | none => none
      | some key => if (SMap.get? s.ctx.lines key).isSome ∨ s.homeGone (128 * key) then none else some (lnum, key)

/-- The pool after its top has been taken. -/
def State.poolPop (s : State) (c : Nat) (a : BitVec 12) : State :=
  s.writeNat (s.poolEntry c a + 24) 4 (s.poolTop c a - 1)

/-- What a new context starts with (R174, R243, R244, R342, R348). -/
structure NewCtx where
  regs : List Word
  pc : VAddr
  cls : BitVec 2
  priv : BitVec 2
  roam : Bool
  asid : BitVec 12
  launch : BitVec 32
  floor : Word
  dies : BitVec 4
  onIssue : Option Word
  after : Option (Nat × Nat)
  deriving DecidableEq, Repr

/-- The next generation of a line: 1 follows 16,383 (R252). -/
def nextGen (g : BitVec 14) : BitVec 14 := if g = 16383 then 1 else g + 1

/-- The line of a new context at a cluster, over the contents that its line had (R243, R244). DESIGN CHOICE (log entry 10): no instruction precedes
its first word, whose source address (R128) is the entry PC. -/
def newLine (old : Ctx) (n : NewCtx) (lnum : Nat) (c : Nat) (place : Place) (issued : Nat) : Line :=
  let st := { Status.zero with
    state := .ready, dies := n.dies, cls := n.cls, priv := n.priv, die := BitVec.ofNat 2 (dieOf c), cluster := BitVec.ofNat 6 (localOf c), roam := n.roam }
  let g : Vector Word 8 := Vector.ofFn fun r => n.regs.getD r.val 0
  { (Line.fresh { Ctx.zero with
      g := g, pc := n.pc, st := st, gen := nextGen old.gen, asid := n.asid, launch := n.launch, inboxBase := old.inboxBase, floor := n.floor }
      (BitVec.ofNat 50 lnum) place) with issued := issued, src := n.pc, onIssue := n.onIssue, after := n.after }

/-- The sixteen words of memory at a line. -/
def State.memLine (s : State) (key : Nat) : Ctx := .ofWords fun k => s.readWord (128 * key + 8 * k)

/-- A line is accepted at a cluster, in the first of the three places of R260, and becomes READY there. -/
def State.acceptAt (s : State) (key : Nat) (l : Line) (c : Nat) : State :=
  let l := l.withState .ready
  let st := { l.c.st with die := BitVec.ofNat 2 (dieOf c), cluster := BitVec.ofNat 6 (localOf c) }
  let l := { l with moved := s.sched.seq, c := { l.c with st := st } }
  if s.arrivals c < SMap.getD s.ctx.limits c 64 then s.enterReady key { l with place := .arrival c } 0
  else
    match s.roomL2 c false with
    | some t => t.enterReady key { l with place := .l2 c } 0
    | none => s.enterReady key { l with place := .memory } 0

/-- Take a line from a pool and make a context of it (R350): none when the pool is empty. -/
def State.createFrom (s : State) (c : Nat) (a : BitVec 12) (n : NewCtx) : Option (State × Line) :=
  match s.poolPeek c a with
  | none => none
  | some (lnum, key) =>
    let s := s.poolPop c a
    let old := s.memLine key
    let s1 := { s with ctx := { s.ctx with resid := SMap.erase s.ctx.resid key } }
    match SMap.get? s.ctx.resid key with
    | none =>
      let l := newLine old n lnum c .memory 0
      some (s1.enterReady key l 0, l)
    | some (p, t) =>
      let l := newLine old n lnum c p t
      let here := (match p with
        | .l1 c' _ => c' == c
        | .l2 c' => c' == c
        | _ => false)
      if here then some (s1.enterReady key l 0, l) else some (s1.acceptAt key l c, l)

/-- What a spawn request makes at a cluster: a context that a fire or the host starts acquires at its first issue what they released
(R296, R348), and one that a fire starts has touched its own die and the bank's (R327). -/
def SpawnReq.newCtx (r : SpawnReq) (c : Nat) : NewCtx :=
  { dies := if r.origin = .fire then r.dies ||| (1#4 <<< dieOf c) else r.dies, regs := r.regs, pc := r.entry, cls := r.cls, priv := r.priv, roam := r.roam, asid := r.asid, launch := r.launch, floor := r.floor
    onIssue := if r.origin = .launch then none else some r.floor, after := none }

/-- The spawn backlog of a cluster. -/
def State.backlog (s : State) (c : Nat) : List SpawnReq := SMap.getD s.launch.backlogs c []

/-- Set the spawn backlog of a cluster. -/
def State.setBacklog (s : State) (c : Nat) (l : List SpawnReq) : State :=
  { s with launch := { s.launch with backlogs := SMap.put s.launch.backlogs c l [] } }

/-- A line that has been pushed onto a pool serves one request: the spawn backlog, then a context that waits on the cluster, then one
that waits on any cluster (R351). Nothing is created at a cluster that has gone (R387). -/
def State.servePool (s : State) (c : Nat) (a : BitVec 12) : State :=
  if s.clusterGone c then s
  else match (s.backlog c).findIdx? fun r => r.asid == a with
  | some k =>
    match nth? (s.backlog c) k with
    | none => s
    | some r =>
      match s.createFrom c a (r.newCtx c) with
      | some (t, _) => t.setBacklog c (removeAt k (t.backlog c))
      | none => s
  | none =>
    let mine := fun (x : Nat × Nat) (who : Nat) => x.2 == who && (match SMap.get? s.ctx.lines x.1 with
      | some l => l.c.asid == a && l.c.st.state == .waiting && l.c.waitKind == 5
      | none => false)
    match (s.ctx.spawnWait.find? fun x => mine x c).or (s.ctx.spawnWait.find? fun x => mine x 255) with
    | none => s
    | some x =>
      let s := { s with ctx := { s.ctx with spawnWait := s.ctx.spawnWait.filter fun y => y != x } }
      match SMap.get? s.ctx.lines x.1 with
      | some l => s.wake x.1 l
      | none => s

/-- Requests waiting for a pool are served, one for each of n lines pushed onto it (R351). -/
def State.servePools (s : State) (c : Nat) (a : BitVec 12) : Nat → State
  | 0 => s
  | n + 1 => if s.poolTop c a = 0 then s else (s.servePool c a).servePools c a n

/-- A write to pool entries serves what waits for them: one request for each line that it has pushed (R349 to R351). -/
def State.servePushes (s old : State) (pas : List Nat) : State :=
  let lo := s.mgmt.ptBase
  if !s.mgmt.based then s
  else
    ((pas.filter fun a => decide (lo ≤ a) && decide (a < lo + 32 * Config.asids * Config.clusters)).map fun a => (a - lo) / 32).dedup.foldl
      (fun t k =>
        let (c, a) := (k / Config.asids, BitVec.ofNat 12 (k % Config.asids))
        t.servePools c a (t.poolTop c a - old.poolTop c a)) s

/-- A RETIRED line is pushed onto the pool of its ASID at its current cluster (R350); a full stack or an unused pool leaves it out. -/
def State.pushPool (s : State) (c : Nat) (a : BitVec 12) (lnum : Nat) : State :=
  let e := s.poolEntry c a
  if s.mgmt.based ∧ (s.readWord e).getLsbD 63 = true ∧ s.readNat (e + 24) 4 < s.readNat (e + 16) 4 then
    match s.stackEntry c a (s.readNat (e + 24) 4) with
    | some pas => ((s.writeBytes pas (leBytes 8 lnum)).writeNat (e + 24) 4 (s.readNat (e + 24) 4 + 1)).servePool c a
    | none => s
  else s

/-! ### The group table (R312, R313) -/

/-- The physical address of a group's entry in the group table. -/
def State.groupEntry (s : State) (gk : Nat) : Nat := s.mgmt.gtBase + 8 * gk

/-- The ASID that a group is reserved to, as its table entry says; none before bring-up sets the table's base. -/
def State.groupOwner (s : State) (gk : Nat) : Option (BitVec 12) :=
  if !s.mgmt.based then none
  else
    let w := s.readWord (s.groupEntry gk)
    if w.getLsbD 63 then some (w.setWidth 12) else none

/-- A group of a bank. -/
def State.group (s : State) (gk : Nat) : Group := SMap.getD s.groups gk Group.reset

/-- Set a group. -/
def State.setGroup (s : State) (gk : Nat) (g : Group) : State := { s with groups := SMap.set s.groups gk g }

/-- A bank that finds its copy of an entry out of date clears the group first (R313). -/
def State.syncGroup (s : State) (gk : Nat) : State :=
  if (s.group gk).owner = s.groupOwner gk then s else s.setGroup gk { Group.reset with owner := s.groupOwner gk }

/-- Before a further store to the table is performed, the clears of the earlier ones are made (R313). -/
def State.syncTable (s : State) (pas : List Nat) : State :=
  let lo := s.mgmt.gtBase
  if !s.mgmt.based then s
  else
    ((pas.filter fun a => decide (lo ≤ a) && decide (a < lo + 8 * 256 * Config.clusters)).map fun a => (a - lo) / 8).dedup.foldl
      (fun t gk => t.syncGroup gk) s

/-- A write to entries of the group table waits: the bank of one of them is in an action that has not come to its end, and a clear falls before it or after
it (R313, R319, R325). -/
def State.tableHeld (s : State) (pas : List Nat) : Bool :=
  let lo := s.mgmt.gtBase
  s.mgmt.based && !s.chains.isEmpty && pas.any fun a =>
    decide (lo ≤ a) && decide (a < lo + 8 * 256 * Config.clusters) && !(SMap.getD s.chains ((a - lo) / 8 / 256) []).isEmpty

/-! ### Events that the device sends, and CANCEL (R343, R346) -/

/-- An event that the device sends for a launch: a value, step now, release set. -/
def nowEvent (addr : BitVec 32) (value : Int) (asid : BitVec 12) (time : Word) : Ev :=
  { addr := addr, value := BitVec.ofInt 48 value, step := BitVec.allOnes 32, asid := asid, arm := false, rel := true, count := 1, time := time }

/-- The event address of member 0 of a group. -/
def groupAddr (gk : Nat) : BitVec 32 :=
  BitVec.ofNat 32 (dieOf (gk / 256) * 2 ^ 30 + localOf (gk / 256) * 2 ^ 24 + gk % 256 * 2 ^ 8)

/-- Send an event of the device through a cluster's send buffer. -/
def State.sendEvent (s : State) (c : Nat) (e : Ev) (src : EvSrc) (line : Option Nat) : State :=
  s.pushSend c (.event e src) line e.asid 0 []

/-- A context of a launch (R340): its ASID and launch slot. -/
def Line.ofLaunch (l : Line) (asid : BitVec 12) (slot : Nat) : Bool := l.c.asid == asid && l.c.launch.toNat % 4096 == slot

/-- A CANCEL goes on (R346): a launch whose contexts have all retired and whose commands have all been discarded is sent its last
event. -/
def State.cancelOne (s : State) (r : CancelReq) : State × CancelReq :=
  let busy := fun (slot : Nat) =>
    (s.ctx.lines.any fun x => x.1 != r.line && x.2.cancelled && x.2.ofLaunch r.asid slot) ||
      (s.fl.sends.any fun b => b.2.any fun e => e.void && e.asid == r.asid && (e.line.bind fun k => SMap.get? s.ctx.lines k).any (·.ofLaunch r.asid slot)) ||
      s.eng.queues.any fun q => q.2.any fun e => e.cancelled && e.asid == r.asid && e.slot.toNat == slot
  let ready := r.retiring.filter fun x => !busy x
  let time := s.timeAt (dieOf r.cluster)
  (ready.foldl (fun t slot => match SMap.get? t.launch.table slot with
      | some x => t.sendEvent r.cluster (nowEvent (groupAddr x.group) (-0x40000000) r.asid time) .device none
      | none => t) s,
   { r with retiring := r.retiring.filter busy, firing := r.firing ++ ready })

/-- Every CANCEL goes on as far as it can. -/
def State.cancelProgress (s : State) : State :=
  s.fl.cancels.foldl (fun t r =>
    if r.retiring.isEmpty then t
    else
      let (u, r') := t.cancelOne r
      { u with fl := { u.fl with cancels := u.fl.cancels.map fun x => if x.seq = r.seq then r' else x } }) s

/-! ### Retirement (R175, R250) -/

/-- Operations in flight no longer name a line that has retired. -/
def Flight.orphan (f : Flight) (key : Nat) : Flight :=
  let re := fun n => if n = key then noLine else n
  { f with
    orders := f.orders.filter fun r => r.line != key
    ranges := f.ranges.filter fun r => r.line != key
    reds := f.reds.filter fun r => r.line != key
    owners := f.owners.map fun r => { r with line := re r.line }
    banks := f.banks.map fun r => { r with line := re r.line }
    handles := f.handles.map fun r => { r with line := re r.line }
    launches := f.launches.map fun r => { r with line := re r.line }
    cancels := f.cancels.map fun r => { r with line := re r.line }
    sends := f.sends.map fun b => (b.1, b.2.map fun e => { e with line := if e.line = some key then none else e.line }) }

/-- A queued or running POSTW no longer names a line that has retired. -/
def Engines.orphan (g : Engines) (key : Nat) : Engines :=
  let fix := fun (e : QEntry) => { e with poster := match e.poster with
    | some (k, d) => some (if k = key then noLine else k, d)
    | none => none }
  { g with
    queues := g.queues.map fun q => (q.1, q.2.map fix)
    running := g.running.map fun q => (q.1, q.2.map fun r => { r with e := fix r.e }) }

/-- What a bank still has to do no longer names a line that has retired. -/
def BankWork.orphan (key : Nat) : BankWork → BankWork
  | .answer line d v => .answer (if line = key then noLine else line) d v
  | w => w

/-- The line becomes RETIRED: its slot is freed, its contents are ordinary memory again, and it is pushed onto its pool (R250, R252,
R350). -/
def State.retire (s : State) (key : Nat) (l : Line) : State :=
  let (s, l) := s.freeSlot l
  let (s, l) := s.unclaim key l
  let l := l.withState .retired
  let s := s.runDrop key
  let s := { s with
    fl := s.fl.orphan key
    eng := s.eng.orphan key
    chains := s.chains.map fun (x : Nat × List BankWork) => (x.1, x.2.map (BankWork.orphan key))
    ctx := { s.ctx with
      lines := SMap.erase s.ctx.lines key
      resid := match l.place with
        | .l1 c u => SMap.set s.ctx.resid key (.l1 c u, l.issued)
        | .l2 c => SMap.set s.ctx.resid key (.l2 c, l.issued)
        | _ => s.ctx.resid
      spawnWait := s.ctx.spawnWait.filter fun x => x.1 != key } }
  let s := s.writeBytes (rangeFrom (128 * key) 128) ((List.range 128).map l.c.byte)
  (s.pushPool l.c.here l.c.asid l.lnum.toNat).cancelProgress

/-- Every operation of a line that is lost goes with it. -/
def Flight.forget (f : Flight) (key : Nat) : Flight :=
  { f.orphan key with
    pend := f.pend.filter fun r => r.line != key
    sfu := f.sfu.map fun q => (q.1, { q.2 with queue := q.2.queue.map fun r => { r with line := if r.line = key then noLine else r.line } })
    divs := f.divs.filter fun r => r.line != key
    cancels := f.cancels.filter fun r => r.line != key }

/-- A context line is lost (R386, R391): nothing holds it any longer, and its memory reads as poisoned. -/
def State.loseLine (s : State) (key : Nat) : State :=
  let s := s.runDrop key
  let free := fun (x : Option Nat) => if x = some key then none else x
  { s with
    fl := s.fl.forget key
    eng := s.eng.orphan key
    ctx := { s.ctx with
      lines := SMap.erase s.ctx.lines key
      slots := s.ctx.slots.map fun x => (x.1, { x.2 with line := free x.2.line, coming := free x.2.coming, asking := free x.2.asking, swap := if x.2.coming = some key then none else x.2.swap })
      spawnWait := s.ctx.spawnWait.filter fun x => x.1 != key }
    mem := { s.mem with
      poison := (s.mem.poison.filter fun u => u != 2 * key && u != 2 * key + 1) ++ [2 * key, 2 * key + 1] } }

/-- A line whose data is uncorrectable, in memory or in a context cache, is lost when a claim or a fill meets it, and a record names it (R391,
R393). -/
def State.meetPoison (s : State) (key : Nat) : State :=
  match SMap.get? s.ctx.lines key with
  | some l =>
    if s.poisoned (rangeFrom (128 * key) 128) then
      (s.loseLine key).memoryError 3 l.c.asid l.handle 0 0 (128 * key) (if l.place.cluster?.isSome then 2 else 0) (dieOf l.c.here)
    else s
  | none => s

/-- Whether a cancelled context can retire now (R82, R250). -/
def Line.mayRetire (l : Line) : Bool := l.cancelled && l.c.st.pend == 0

/-- A context that is in the middle of an instruction that it waits for. -/
def Line.midway (l : Line) : Bool := l.c.st.state == .waiting && (l.c.waitKind == 3 || l.c.waitKind == 10)

/-- A cancelled context that stands at an instruction boundary, and not at issue, retires once its pending bits are clear (R250). -/
def State.reap (s : State) (key : Nat) : State :=
  match SMap.get? s.ctx.lines key with
  | some l => if l.mayRetire ∧ !l.midway ∧ l.c.st.state ≠ .running then s.retire key l else s
  | none => s

end Sys2Proof.Machine
end

