-- ==== Sys2Proof/Machine/Gate.lean ====
section
/-! DEFINITION. The issue of an instruction word: what stands before it at the context's boundary, the checks of R60, suppression
(R126), takes (R62) and lookahead (R65 to R69). Every meaning of an instruction word is `issue` of its head and its effect. -/

namespace Sys2Proof.Machine

/-- The latency classes (R64). -/
inductive Latency where
  | short | long | wait
  deriving DecidableEq, Repr

/-- The profiles (R97). -/
inductive Profile where
  | base | v1 | e1 | n1
  deriving DecidableEq, Repr

/-- What the issue of a word needs to know of it. -/
structure Head where
  /-- The instruction word, for the trap record (R238). -/
  word : Word
  g : Guard
  /-- The number of lanes (R58). -/
  lanes : Nat
  /-- The register whose value modulo the number of lanes is the one lane that guards the instruction (R135). -/
  pick : Option Reg
  cls : Latency
  la : BitVec 4
  /-- The registers it names (R68). -/
  names : BitVec 8
  /-- The registers it takes (R62). -/
  takes : BitVec 8
  /-- What it names when it is re-issued by a replay marker, where that differs (R153). -/
  again : Option (BitVec 8)
  profile : Profile
  /-- The least privilege (R222). -/
  level : Nat
  /-- The detail of an illegal encoding, if it is one (R238). -/
  bad : Option Nat
  deriving DecidableEq, Repr

/-- The head of a short scalar base instruction that names and takes the given registers. -/
def headOf (i : Instr) (g : Guard) (names takes : BitVec 8) : Head :=
  { word := (encodeWord i).getD 0, g := g, lanes := 1, pick := none, cls := .short, la := 0, names := names, takes := takes, again := none,
    profile := .base, level := 0, bad := none }

/-- As `headOf` for class W. -/
def headWait (i : Instr) (g : Guard) (names takes : BitVec 8) : Head := { headOf i g names takes with cls := .wait }

/-- As `headOf` for class L. -/
def headLong (i : Instr) (g : Guard) (la : BitVec 4) (names takes : BitVec 8) : Head :=
  { headOf i g names takes with cls := .long, la := la }

/-- The answer of the issue checks: no context is at issue; the turn ends in this state; or the instruction has its effect on the line
`l` (advanced past the instruction) of the context with the sources in `l0`. -/
inductive Gate where
  | noContext
  | stop (s : State)
  | run (s : State) (key : Nat) (l0 l : Line)

/-- The replay marker is taken: the marked instruction issues next (R153). -/
def Line.takeMarker (l : Line) : Line := { l with reissue := some l.c.markerPc, c := { l.c with waitKind := 0, waitObj := 0 } }

/-- The wait word holds a replay marker, and nothing that comes before the marked instruction stands at the context's boundary (R153). -/
def Line.replays (l : Line) : Bool :=
  l.c.marker && l.lost &&& l.c.st.dies == 0 && l.goTo.isNone && l.fault.isNone && !l.cancelled && l.c.st.qkind == 0 && !l.redo

/-- The context whose issue cycle this is: the line in the current slot, when it is RUNNING, or READY in its slot (R250), and the
cluster's issue units run. A slot whose swap has begun issues nothing (R254). -/
def State.atIssue (s : State) : Option (Nat × Line) :=
  match s.sched.cur with
  | none => none
  | some (c, u, sl) =>
    match if s.canIssue c && (s.slot c u sl).swap.isNone then (s.slot c u sl).line else none with
    | none => none
    | some key =>
      match SMap.get? s.ctx.lines key with
      | some l => if l.c.st.state = .running ∨ l.c.st.state = .ready then some (key, l.withState .running) else none
      | none => none

/-- The context whose issue cycle this is, with the marker taken of one that re-issues a marked instruction first, in this turn (R153, R254). -/
def State.issuing (s : State) : Option (Nat × Line) := s.atIssue.map fun x => (x.1, if x.2.replays then x.2.takeMarker else x.2)

/-- The issue unit of the slot at issue. -/
def State.issueUnit (s : State) : Nat := match s.sched.cur with
  | some (_, u, _) => u
  | none => 0

/-- The instruction address that issues next: the PC, or the marked instruction (R153). -/
def Line.at_ (l : Line) : VAddr := l.reissue.getD l.c.pc

/-- The profile bit is set in the ASID's PROFILE_MASK (R97, R227). -/
def AsidRegs.has (r : AsidRegs) : Profile → Bool
  | .base => true
  | .v1 => r.profile.getLsbD 1
  | .e1 => r.profile.getLsbD 2
  | .n1 => r.profile.getLsbD 3

/-- At least one lane is active, or the one lane that guards the instruction is (R57, R59, R135). -/
def Ctx.anyActive (c : Ctx) (h : Head) : Bool :=
  match h.pick with
  | none => (List.range h.lanes).any fun i => c.active h.g i
  | some r => c.active h.g ((c.reg r).toNat % h.lanes)

/-- A wait begins: the line keeps its slot (R247, R250). -/
def Line.waits (l : Line) (kind : BitVec 4) (obj : BitVec 60) (watch : BitVec 8) : Line :=
  { l with c := { l.c with waitKind := kind, waitObj := obj, st := { l.c.st with state := .waiting } }, watch := watch }

/-- Lookahead remaining after an issue (R65, R66, R67). -/
def nextRem (h : Head) (again : Bool) (rem : BitVec 4) : BitVec 4 :=
  let a := if again then 0 else h.la
  match h.cls with
  | .long => if rem = 0 then a else if (rem - 1).ult a then rem - 1 else a
  | _ => if rem = 0 then 0 else rem - 1

/-- The line after the issue of a word, before its effect: the PC is past it, or where it was for a re-issued one (R153), the taken full
bits are clear, the window has moved on, and the wait word is cleared (R245). -/
def Line.advance (l : Line) (h : Head) (takes : BitVec 8) (seq : Nat) : Line :=
  let again := l.reissue.isSome
  { l with
    issued := seq
    src := if again then l.src else l.c.pc
    jumped := if again then l.jumped else false
    reissue := none
    onIssue := none
    after := none
    heard := (l.hearRegs (if again then h.again.getD h.names else h.names)).heard
    c := { l.c with
      floor := match l.onIssue with
        | some t => maxTime l.c.floor (t + 1)
        | none => l.c.floor
      pc := if again then l.c.pc else l.c.pc + 8
      waitKind := 0, waitObj := 0
      st := { l.c.st with
        full := if again then l.c.st.full else l.c.st.full &&& ~~~takes
        larem := nextRem h again l.c.st.larem } } }

/-- A precise trap of the instruction at issue (R129, R153, R236, R238). -/
def issueTrap (s : State) (key : Nat) (l : Line) (word : Word) (code : BitVec 8) (detail : Nat) (va : Word) : State :=
  s.takeTrap key l
    { code := code, pc := l.c.pc, obj := l.reissue.map markerObj, at_ := l.at_
      src := if l.jumped && l.reissue.isNone then l.src else l.at_
      va := va, word := word, detail := w64 detail }

/-- A deferred fault or a deferred TRV access is acted on at an instruction boundary (R152, R154, R387, R407). -/
def State.takeDeferred (s : State) (key : Nat) (l : Line) (d : Deferred) : State :=
  let l := { l with fault := none }
  match d.dest with
  | some c => s.leaveFor key l c (markerObj d.pc)
  | none => s.takeTrap key l { code := d.code, pc := l.c.pc, obj := d.obj, at_ := d.pc, src := d.pc, va := vaWord d.va, word := d.word,
                               detail := d.detail }

/-- The stopped reduction of a context restarts before anything else issues (R172). -/
def State.restartReduction (s : State) (key : Nat) (l : Line) : State :=
  let st := l.c.st
  let d := st.qacc.toNat
  let a := st.qcnt.toNat
  let kind : RedKind := if st.qkind = 1 then .i64 else if st.qkind = 2 then .f64 else .f32
  let r : Reduction :=
    { line := key, kind := kind, acc := l.c.reg (regOf d), cnt := (l.c.reg (regOf a)).toNat, dreg := d, areg := a, pc := l.qred.1
      word := l.qred.2, seq := s.sched.seq }
  let l := { l with
    redo := true
    c := { l.c with st := { st with pend := st.pend ||| twoRegs d a, qkind := 0, qacc := 0, qcnt := 0 } } }
  ({ s with fl := { s.fl with reds := s.fl.reds ++ [r] } }.setLine key l).nextSeq

/-- The registers of the reduction that runs for a line. -/
def State.redRegs (s : State) (key : Nat) : BitVec 8 :=
  match s.fl.reds.find? fun r => r.line == key with
  | some r => twoRegs r.dreg r.areg
  | none => 0

/-- What a parent did before its SPAWN is not all performed yet (R174). -/
def State.parentBusy (s : State) (a : Option (Nat × Nat)) : Bool :=
  match a with
  | none => false
  | some (p, q) =>
    (s.mem.stores.any fun x => x.who == p && decide (x.seq < q)) ||
    (s.fl.pend.any fun x => s.nameOf x.line == p && decide (x.seq < q) && x.what matches .access _) ||
    (s.fl.sends.any fun b => b.2.any fun e => e.line.any (fun k => s.nameOf k == p) && decide (e.id < q) && e.what.isSend) ||
    (s.fl.reds.any fun r => s.nameOf r.line == p && decide (r.seq < q)) ||
    s.fl.owners.any fun r => s.nameOf r.line == p && decide (r.seq < q) && r.what matches .rget _ _ _

/-- What stands before any instruction at the context's boundary: a CANCEL that it has seen, the loss of a die, the parent's earlier accesses, a departure
under way, a deferred fault, a stopped reduction, a replay marker, pending results after a window (R69, R152, R153, R172, R174, R234, R250, R387). -/
def boundary (s : State) (key : Nat) (l : Line) : Option State :=
  if l.cancelled ∧ l.marked ≠ s.sched.cycle + 1 then
    let (s, l) := s.stopReduction key l
    some (if l.c.st.pend = 0 then s.retire key l else s.setLine key (l.waits 8 0 0xFF))
  else if l.lost &&& l.c.st.dies ≠ 0 then some (s.trapLost key l)
  else if s.parentBusy l.after then some (s.setLine key l)
  else if l.goTo.isSome then some ((s.setLine key l).tryDepart key)
  else match l.fault with
  | some d => some (s.takeDeferred key l d)
  | none =>
    if l.c.st.qkind ≠ 0 then some (s.restartReduction key l)
    else if l.redo then some (s.setLine key ((if l.c.marker then l.takeMarker else l).waits 8 0 (s.redRegs key)))
    else if l.c.marker then some (s.setLine key l.takeMarker)
    else if l.reissue.isNone ∧ l.c.st.larem = 0 ∧ l.c.st.pend ≠ 0 then some (s.setLine key (l.waits 8 0 0xFF))
    else none

/-- The registers that the instruction takes at this issue: a re-issued one takes nothing (R153). -/
def Head.takesNow (h : Head) (l : Line) : BitVec 8 := if l.reissue.isSome then 0 else h.takes

/-- The registers that the instruction names at this issue. -/
def Head.namesNow (h : Head) (l : Line) : BitVec 8 := if l.reissue.isSome then h.again.getD h.names else h.names

/-- The three checks of R60 in their order: the code and the detail of the first that fails. DESIGN CHOICE (log entry 76): a word that fails a
condition of R71 and is of a profile outside the mask as well reports the condition. -/
def checks (h : Head) (r : AsidRegs) (l : Line) : Option (BitVec 8 × Nat) :=
  match h.bad with
  | some d => some (0x01, d)
  | none =>
    if !r.has h.profile then some (0x01, 7)
    else if l.c.level < h.level then some (0x02, 0)
    else if l.c.st.larem ≠ 0 ∧ h.namesNow l &&& l.c.st.pend ≠ 0 then some (0x03, 0)
    else none

/-- The issue of an instruction word by a context. DESIGN CHOICE (log entry 78): the profile, privilege and lookahead checks come before the wait for
empty taken registers (R60). -/
def gateLine (h : Head) (s : State) (key : Nat) (l : Line) : Gate :=
  match boundary s key l with
  | some t => .stop t
  | none =>
    match checks h (s.asidRegs l.c.asid) l with
    | some (code, detail) => .stop (issueTrap s key l h.word code detail 0)
    | none =>
      let takes := h.takesNow l
      if !l.c.anyActive h then .stop (s.setLine key (l.advance h 0 s.sched.seq)).nextSeq
      else if l.c.st.full &&& takes ≠ takes then
        .stop (s.setLine key (l.waits 1 (BitVec.ofNat 60 (lowestReg (takes &&& ~~~l.c.st.full))) takes))
      else .run s.nextSeq key l (l.advance h takes s.sched.seq)

/-- The issue of an instruction word by the context at issue. -/
def gate (h : Head) (s : State) : Gate :=
  match s.issuing with
  | none => .noContext
  | some (key, l) => gateLine h s key l

/-- Issue a word and, when it passes, apply its effect. -/
def issue (h : Head) (s : State) (f : State → Nat → Line → Line → Out) : Out :=
  match gate h s with
  | .noContext => .refused .noContext
  | .stop t => .next t
  | .run t key l0 l => f t key l0 l

/-- Issue a word whose effect is a change of its own line's registers: from the sources in the first context, on the second. -/
def issueReg (h : Head) (s : State) (f : Ctx → Ctx → Ctx) : Out :=
  issue h s fun t key l0 l => .next (t.setLine key { l with c := f l0.c l.c })

/-- The turn is idle: the context stays RUNNING and tries again (R147, R150, R179). -/
def idleTurn (s : State) (key : Nat) (l0 : Line) : Out := .next (s.setLine key l0)

/-- The context waits at the instruction, which issues again once it is woken. -/
def waitAt (s : State) (key : Nat) (l0 : Line) (kind : BitVec 4) (obj : BitVec 60) (watch : BitVec 8) : Out :=
  .next (s.setLine key (l0.waits kind obj watch))

/-- The context waits past the instruction. -/
def waitPast (s : State) (key : Nat) (l : Line) (kind : BitVec 4) (obj : BitVec 60) (watch : BitVec 8) : Out :=
  .next (s.settle key (l.waits kind obj watch))

/-- A precise trap of the instruction as an outcome. -/
def trapOut (h : Head) (s : State) (key : Nat) (l0 : Line) (code : BitVec 8) (va : Word) : Out :=
  .next (issueTrap s key l0 h.word code 0 va)

/-- The dies in the mask are touched (R23). -/
def Line.touch (l : Line) (dies : BitVec 4) : Line := { l with c := { l.c with st := { l.c.st with dies := l.c.st.dies ||| dies } } }

/-- The bit of a die in a touched-dies mask. -/
def dieBit (d : Nat) : BitVec 4 := 1#4 <<< d

end Sys2Proof.Machine
end

