-- ==== Sys2Proof/Machine/Operands.lean ====
section
/-! DEFINITION. Operand forms: sources and destinations of each shape, lanes of a register pair, effective addresses (R56, R58, R149). -/

namespace Sys2Proof.Machine

/-! ### The registers an instruction names and takes -/

/-- Names of a one-source scalar instruction. -/
def names2 (d : Reg) (a : Src) : BitVec 8 := regMask d ||| a.nameMask
/-- Names of a two-source scalar instruction. -/
def names3 (d : Reg) (a b : Src) : BitVec 8 := regMask d ||| a.nameMask ||| b.nameMask
/-- Takes of two sources. -/
def takes2 (a b : Src) : BitVec 8 := a.takeMask ||| b.takeMask
/-- Names of a pair source. -/
def pairName (a : Src) : BitVec 8 := pairMask a.reg

/-! ### Lanes (R58) -/

/-- The width of an element code (R58). -/
def elemBits : ElemSize → Nat
  | .i8 => 8 | .i16 => 16 | .i32 => 32 | .i64 => 64

/-- Lane i of a pair value, of w bits. -/
def laneOf (v : BitVec 128) (w i : Nat) : Nat := (v >>> (w * i)).toNat % 2 ^ w

/-- A pair value with lane i replaced. -/
def setLaneOf (v : BitVec 128) (w i x : Nat) : BitVec 128 :=
  (v &&& ~~~(BitVec.ofNat 128 (2 ^ w - 1) <<< (w * i))) ||| (BitVec.ofNat 128 (x % 2 ^ w) <<< (w * i))

/-- A pair value with each active lane of the first L replaced (R59). -/
def mapLanes (L w : Nat) (active : Nat → Bool) (old : BitVec 128) (f : Nat → Nat) : BitVec 128 :=
  (List.range L).foldl (fun v i => if active i then setLaneOf v w i (f i) else v) old

/-- The lane format of a vector float instruction (R137). -/
def vfloatFormat : VFloat → FpFormat
  | .f16 => fp16 | .bf16 => bf16 | .f32 => fp32

/-- The format of a scalar float instruction (R141). -/
def scalarFormat : FScalar → FpFormat
  | .f32 => fp32 | .f64 => fp64

/-- A scalar float operand: the low 32 bits for FP32 (R130). -/
def floatOperand (f : FScalar) (x : Word) : Nat :=
  match f with
  | .f32 => x.toNat % 2 ^ 32
  | .f64 => x.toNat

/-! ### Shapes of instruction -/

/-- A scalar instruction of one source. -/
def unaryOp (i : Instr) (g : Guard) (d : Reg) (a : Src) (f : Word → Word) (s : State) : Out :=
  issueReg (headOf i g (names2 d a) a.takeMask) s fun x c => c.setReg d (f (x.src a))

/-- A scalar instruction of two sources. -/
def binaryOp (i : Instr) (g : Guard) (d : Reg) (a b : Src) (f : Word → Word → Word) (s : State) : Out :=
  issueReg (headOf i g (names3 d a b) (takes2 a b)) s fun x c => c.setReg d (f (x.src a) (x.src b))

/-- A scalar instruction of three sources. -/
def ternaryOp (i : Instr) (g : Guard) (d : Reg) (a b cc : Src) (f : Word → Word → Word → Word) (s : State) : Out :=
  issueReg (headOf i g (names3 d a b ||| cc.nameMask) (takes2 a b ||| cc.takeMask)) s fun x c =>
    c.setReg d (f (x.src a) (x.src b) (x.src cc))

/-- The head of a vector instruction of L lanes. -/
def headVec (i : Instr) (g : Guard) (L : Nat) (names takes : BitVec 8) : Head :=
  { headOf i g names takes with lanes := L, profile := .v1 }

/-- A vector instruction of two pair sources: lane by lane of w bits (R131, R132, R137). -/
def vectorOp (i : Instr) (g : Guard) (w : Nat) (d : Reg) (a b : Src) (f : Nat → Nat → Nat) (s : State) : Out :=
  issueReg (headVec i g (128 / w) (pairMask d ||| pairName a ||| pairName b) (a.takePair ||| b.takePair)) s fun x c =>
    c.setPair d (mapLanes (128 / w) w (x.active g) (c.pair d) fun k => f (laneOf (x.pair a.reg) w k) (laneOf (x.pair b.reg) w k))

/-- A vector instruction of three pair sources. -/
def vectorOp3 (i : Instr) (g : Guard) (w : Nat) (d : Reg) (a b cc : Src) (f : Nat → BitVec 128 → BitVec 128 → BitVec 128 → Nat) (s : State) :
    Out :=
  issueReg (headVec i g (128 / w) (pairMask d ||| pairName a ||| pairName b ||| pairName cc) (a.takePair ||| b.takePair ||| cc.takePair)) s
    fun x c => c.setPair d (mapLanes (128 / w) w (x.active g) (c.pair d) fun k => f k (x.pair a.reg) (x.pair b.reg) (x.pair cc.reg))

/-! ### Addresses -/

/-- va := (ga[56:0] + SignExt(OFF, 15)) mod 2^57 (R149). -/
def effAddr (ga : Word) (off : BitVec 15) : VAddr := ga.setWidth 57 + off.signExtend 57

/-- Target(w) of R116: PC + SignExt(OFF, 32) × 8, modulo 2^57. -/
def codeTarget (pc : VAddr) (off : BitVec 32) : VAddr := pc + off.signExtend 57 * 8

end Sys2Proof.Machine
end

