-- ==== Sys2Proof/Machine/Access.lean ====
section
/-! DEFINITION. Memory accesses in flight and their performance, and results that land in lines (R81, R149 to R159, R285 to R305). -/

namespace Sys2Proof.Machine

/-! ### Scopes and times -/

/-- Whether an instance of a scope that holds one place holds another (R285): places are clusters, and 192 and 193 the host's ports. No
instance of CTX is one of places. -/
def scopeHolds (sc : Scope) (a b : Nat) : Bool :=
  match sc with
  | .ctx => false
  | .cl => a == b && decide (a < 192)
  | .die => dieOf a == dieOf b && decide (a < 192) && decide (b < 192)
  | .pkg => decide (a < 192) && decide (b < 192)
  | .sys => true

/-- Whether an instance of a scope holds a release and a context that issues at a place (R285, R286): one of CTX holds one context alone,
wherever it is. -/
def Tag.within (t : Tag) (sc : Scope) (place who : Nat) : Bool :=
  if sc = .ctx then t.who == some who else scopeHolds sc t.cluster place

/-- Whether a release synchronises with an acquire that a context makes at a scope and a place (R286, R297). -/
def Tag.syncs (t : Tag) (sc : Scope) (place who : Nat) : Bool := t.within t.scope place who && t.within sc place who

/-- A context after an acquire at a scope and a place that meets these releases (R305). -/
def acquireTags (c : Ctx) (sc : Scope) (place who : Nat) (tags : List Tag) : Ctx :=
  tags.foldl (fun c t => if t.syncs sc place who then c.acquireTime t.time else c) c

/-- An access of a context that stands before one of its operations is not performed yet. -/
def State.openBefore (s : State) (who seq : Nat) : Bool :=
  (s.mem.stores.any fun x => x.who == who && decide (x.seq < seq)) ||
    s.fl.pend.any fun p => s.nameOf p.line == who && decide (p.seq < seq) && p.what matches .access _

/-- What a release stands behind is not all performed yet. -/
def State.tagOpen (s : State) (t : Tag) : Bool := match t.who with
  | some who => s.openBefore who t.seq
  | none => false

/-- A release at this scope is itself performed only after its context's earlier accesses, for every agent: PKG, SYS, and DIE on a package
of one die (R287). At CTX, CL and DIE an acquire that synchronises with it waits for them instead (R286; log entry 30). -/
def State.eager (s : State) (sc : Scope) : Bool :=
  sc == .pkg || sc == .sys || (sc == .die && ((List.range 4).filter fun d => (s.die d).present).length == 1)

/-- A write that carries these releases may be performed (R295). -/
def State.tagsReady (s : State) (tags : List Tag) : Bool := tags.all fun t => !s.eager t.scope || !s.tagOpen t

/-- An acquire of a context at a scope and a place that meets these releases may be performed (R295 to R297). -/
def State.heardReady (s : State) (sc : Scope) (place who : Nat) (tags : List Tag) : Bool :=
  tags.all fun t => !t.syncs sc place who || !s.tagOpen t

/-- The address of the head slot of an inbox ring (R164). -/
def Ctx.headSlot (c : Ctx) : Nat := c.inboxBase.toNat * 512 + 32 * c.inboxHead.toNat

/-- An inbox without its head message (R170). -/
def Ctx.popInbox (c : Ctx) : Ctx := { c with inboxHead := c.inboxHead + 1, inboxCount := c.inboxCount - 1 }

/-- A line after a message that carries these releases is taken: those of the device's messages are acquired (R296), those of plain
sends wait for a FENCE with acquire (R301). -/
def Line.hear (l : Line) (tags : List Tag) : Line :=
  { l with
    c := acquireTags l.c .sys l.c.here 0 (tags.filter (·.auto))
    heard := (l.heard ++ tags.filter (!·.auto)).dedup }

/-- A line after an acquire at a scope and a place that meets these releases: those that it does not synchronise with stay for a later one
(R296, R297). -/
def Line.acquire (l : Line) (sc : Scope) (place who : Nat) (tags : List Tag) : Line :=
  { l with c := acquireTags l.c sc place who tags, heard := tags.filter fun t => !t.syncs sc place who }

/-! ### Results that land in a line (R81) -/

/-- A register after a masked write. -/
def Ctx.writeMasked (c : Ctx) (w : RegWrite) : Ctx := c.setReg (regOf w.1) ((c.reg (regOf w.1) &&& ~~~w.2.2) ||| (w.2.1 &&& w.2.2))

/-- A line after a result: registers, predicates, pending bits. -/
def Line.land (l : Line) (writes : List RegWrite) (clear : BitVec 8) (pred : Option (BitVec 2 × Bool)) : Line :=
  let c := writes.foldl Ctx.writeMasked l.c
  let c := match pred with
    | some (k, v) => (c.setPred (pairLo k) (if v then 0xFFFF else 0)).setPred (pairHi k) (if v then 0 else 0xFFFF)
    | none => c
  { l with c := { c with st := { c.st with pend := c.st.pend &&& ~~~clear } } }

/-- A line after a change by a result: a cancelled context whose results are in retires, a wait that is over ends (R82, R122). -/
def State.afterResult (s : State) (key : Nat) (l : Line) (wake : Bool) : State :=
  if l.mayRetire ∧ l.c.st.state ≠ .running ∧ (wake ∨ !l.midway) then s.retire key l
  else if wake ∧ l.c.st.state = .waiting ∧ l.c.waitKind = 3 then s.wake key l
  else s.settle key l

/-- LineWrite of R81: a result lands in its line, wherever that lives; `wake` also ends a wait of kind 3. -/
def State.lineWrite (s : State) (key : Nat) (writes : List RegWrite) (clear : BitVec 8) (pred : Option (BitVec 2 × Bool)) (wake : Bool)
    (tag : Option Tag) : State :=
  let s := s.applyLoss key
  match SMap.get? s.ctx.lines key with
  | none => s
  | some l =>
    let l := match tag with
      | some t => { l with c := l.c.acquireTime t.time }
      | none => l
    s.afterResult key (l.land writes clear pred) wake

/-- An answer to an operation that the context waits for with kind 3: gd, and the wake (R247). -/
def State.answer (s : State) (key d : Nat) (v : Word) : State := s.lineWrite key [(d, v, BitVec.allOnes 64)] 0 none true none

/-- A fault of an operation in flight becomes known (R152, R154, R250, R407): a RUNNING or WAITING context stops at once, which is an
instruction boundary, unless the instruction that it waits for has not completed (kinds 3 and 10); it then stops, like any other, when
it next issues. A TRAPPED one is not trapped again for poison, and one that a CANCEL has marked retires instead (R250). -/
def State.deliverFault (s : State) (key : Nat) (d : Deferred) : State :=
  match SMap.get? s.ctx.lines key with
  | none => s
  | some l =>
    if l.cancelled then s.reap key
    else match l.c.st.state with
    | .running => s.takeDeferred key l d
    | .waiting =>
      if l.c.waitKind = 3 ∨ l.c.waitKind = 10 then s.setLine key { l with fault := l.fault.or (some d) } else s.takeDeferred key l d
    | .trapped => if d.code = 0x16 then s else s.setLine key { l with fault := l.fault.or (some d) }
    | _ => s.setLine key { l with fault := l.fault.or (some d) }

/-! ### Accesses -/

/-- The bytes of a width code (R75). -/
def loadBytes : LoadWidth → Nat
  | .u8 | .s8 => 1
  | .u16 | .s16 => 2
  | .u32 | .s32 => 4
  | .u64 => 8

/-- The bytes of a store width (R75). -/
def storeBytes : StoreWidth → Nat
  | .b8 => 1 | .b16 => 2 | .b32 => 4 | .b64 => 8

/-- The bytes that an access reads. -/
def AccessKind.len : AccessKind → Nat
  | .ld w => loadBytes w
  | .acq w => loadBytes w
  | .ldv => 16
  | .ldt fmt _ => if fmt = 10 then 3 else fmtBytes fmt
  | .amo _ wide _ _ => if wide then 8 else 4

/-- A loaded value extended as its width code says (R75). -/
def extendLoad (w : LoadWidth) (x : Nat) : Word :=
  match w with
  | .s8 => BitVec.ofInt 64 (bitsInt 8 x)
  | .s16 => BitVec.ofInt 64 (bitsInt 16 x)
  | .s32 => BitVec.ofInt 64 (bitsInt 32 x)
  | _ => w64 x

/-- What LDT gives for an element's bits (R158). -/
def ldtValue (fmt x : Nat) : Word :=
  match fmt with
  | 1 => BitVec.ofInt 64 (bitsInt 8 x)
  | 2 => BitVec.ofInt 64 (bitsInt 16 x)
  | 3 => BitVec.ofInt 64 (bitsInt 32 x)
  | 4 => w64 x
  | 7 => w64 x
  | 8 => w64 x
  | 11 => w64 x
  | _ => w64 (fp32.round .rne (fmtDecode fmt x))

/-- The new memory word of an AMO (R159), w bits wide. -/
def amoNew (op : AmoOp) (w : Nat) (x b cmp : Nat) : Nat :=
  match op with
  | .add => (x + b) % 2 ^ w
  | .min => if bitsInt w x ≤ bitsInt w b then x else b
  | .max => if bitsInt w b ≤ bitsInt w x then x else b
  | .minu => min x b
  | .maxu => max x b
  | .and => x &&& b
  | .or => x ||| b
  | .xor => x ^^^ b
  | .swp => b
  | .cas => if x = cmp then b else x

/-- The register value of an AMO's old word (R159). -/
def amoResult (op : AmoOp) (wide : Bool) (x : Nat) : Word :=
  if wide then w64 x
  else match op with
    | .minu | .maxu => w64 x
    | _ => BitVec.ofInt 64 (bitsInt 32 x)

/-- The register writes that an access delivers for the bytes it read, its destination being d. -/
def accessWrites (k : AccessKind) (d x : Nat) : List RegWrite :=
  let one := fun v => [(d, v, BitVec.allOnes 64)]
  match k with
  | .ld w => one (extendLoad w x)
  | .acq w => one (extendLoad w x)
  | .ldv => [(d, w64 (x % 2 ^ 64), BitVec.allOnes 64), (d + 1, w64 (x / 2 ^ 64), BitVec.allOnes 64)]
  | .ldt fmt pos => one (ldtValue fmt (if fmt = 10 then x / 2 ^ (6 * pos) % 64 else x))
  | .amo op wide _ _ => one (amoResult op wide x)

/-- The replay address of an access (R152). -/
def replayAddr (a : Access) : Word :=
  match a.kind with
  | .ldt fmt pos => w64 (fmt * 2 ^ 60 + (if fmt = 10 then pos else 0) * 2 ^ 57) ||| vaWord a.va
  | _ => vaWord a.va

/-- Whether two lists of addresses meet. -/
def overlaps (a b : List Nat) : Bool := a.any fun x => b.contains x

/-- The access of a result in flight. -/
def Pending.access? (p : Pending) : Option Access :=
  match p.what with
  | .access a => some a
  | .value _ _ => none

/-- The physical bytes of an access, none of them before it is translated. -/
def Access.bytes (a : Access) : List Nat := a.pas.getD []

/-- Translate an access of a context. -/
def State.transAccess (s : State) (a : Access) (m : AccMode) : Except (AccFault × Nat) (List Nat × List Bool) :=
  s.transBytes a.cluster a.asid (if a.priv = 1 then 1 else if a.priv = 3 then 3 else 0) .context m a.va.toNat a.kind.len

/-- A reduction of a context runs that stands before one of its operations: it may take an engine completion, which it acquires (R296). -/
def State.reducing (s : State) (who seq : Nat) : Bool := s.fl.reds.any fun r => s.nameOf r.line == who && decide (r.seq < seq)

/-- Earlier operations of the same context that must be performed first: accesses to overlapping bytes (R156), and a reduction (R296; log entry
15). -/
def State.mustWait (s : State) (who seq : Nat) (pas : List Nat) (stores : Bool) : Bool :=
  s.reducing who seq ||
  (stores && s.mem.stores.any fun x => x.who == who && decide (x.seq < seq) && overlaps x.pas pas) ||
  s.fl.pend.any fun p => s.nameOf p.line == who && decide (p.seq < seq) && (match p.access? with
    | some a => overlaps a.bytes pas
    | none => false)

/-- A byte as a load of a context sees it: its own latest earlier store to it that is still on its way, or memory (R156). -/
def State.loadByte (s : State) (who seq die : Nat) (swc : Bool) (pa : Nat) : Byte :=
  s.mem.stores.foldl (fun b x =>
    if x.who = who ∧ x.seq < seq then
      match x.pas.findIdx? (· == pa) with
      | some k => let m := x.mask.getD k 0; (b &&& ~~~m) ||| (x.bytes.getD k 0 &&& m)
      | none => b
    else b) (s.seenByte die swc pa)

/-- The operand of an AMO request and of those merged into it, in order (R382). -/
def Access.sum (a : Access) (w : Nat) : Nat := (a.merged.foldl (fun n x => n + x.2.toNat % 2 ^ w) 0)

/-- The value that each merged request receives: the old word and the operands before its own (R382). -/
def mergedReplies (w x : Nat) : Nat → List (Nat × Word) → List (Nat × Nat)
  | _, [] => []
  | acc, (id, b) :: l => (id, (x + acc) % 2 ^ w) :: mergedReplies w x (acc + b.toNat % 2 ^ w) l

/-- A pending result becomes a plain value. -/
def settlePending (id : Nat) (op : AmoOp) (wide : Bool) (x : Nat) (p : Pending) : Pending :=
  if p.seq = id then
    let d := lowestReg p.clear
    { p with what := .value [(d, amoResult op wide x, BitVec.allOnes 64)] none }
  else p

/-- Whether a request has been merged into another (R382). -/
def State.isMerged (s : State) (seq : Nat) : Bool := s.fl.pend.any fun p => match p.access? with
  | some a => a.merged.any fun x => x.1 == seq
  | none => false

/-- A context reads its own stores to SWC bytes after it has moved to another die (R156, R300): the copies into which they went there, and that
of its die now, are written back and dropped before its next access to the line. -/
def State.bringHome (s : State) (who die : Nat) (swc : List Bool) (pas : List Nat) : State :=
  if s.mem.wrote.isEmpty then s
  else
    let lines := ((flagged pas swc).filterMap fun x => if x.2 then some (x.1 / 128) else none).dedup
    lines.foldl (fun t line =>
      let from_ := (SMap.getD t.mem.wrote line []).filter fun x => x.1 == who && x.2 != die
      if from_.isEmpty then t
      else
        let t := ((from_.map (·.2)) ++ [die]).foldl (fun u d => u.writeBack (copyKey d line) true) t
        { t with mem := { t.mem with
            wrote := SMap.put t.mem.wrote line ((SMap.getD t.mem.wrote line []).filter fun x => !(x.1 == who && x.2 != die)) [] } }) s

/-- Whether an access can be performed now: translated, its data good, its home reachable, its order kept. A load of a live line reads
its owner, where the context's own earlier stores have then been applied as far as R246 permits. -/
def State.canPerform (s : State) (p : Pending) (a : Access) : Bool :=
  match a.pas with
  | none => false
  | some pas =>
    let who := s.nameOf p.line
    !(s.bringHome who (dieOf a.cluster) a.swc pas).poisonedAt (dieOf a.cluster) a.swc pas && !(pas.any (s.seenBy p.seq).homeGone) && !s.isMerged p.seq &&
    (match a.kind with
     | .amo _ _ _ _ => !s.mustWait who p.seq pas true && s.tagsReady a.tags && !s.tableHeld pas
     | _ => !s.mustWait who p.seq pas (pas.any s.inLive)) &&
    (!a.acq || s.heardReady a.scope a.cluster who (s.tagsAt (dieOf a.cluster) a.swc pas))

/-- The die copies of a die of some SWC bytes are written back and dropped: an AMO is performed at the home slice (R159), where the
accesses of its die then meet it (R289; log entry 64). -/
def State.giveUpCopies (s : State) (die : Nat) (swc : List Bool) (pas : List Nat) : State :=
  (((flagged pas swc).filterMap fun x => s.viaCopy die x.2 x.1).dedup).foldl (fun t k => t.writeBack k true) s

/-- A context's store has gone into the copies of a die. -/
def State.wroteThere (s : State) (who die : Nat) (swc : List Bool) (pas : List Nat) : State :=
  let lines := ((flagged pas swc).filterMap fun x => (s.viaCopy die x.2 x.1).map fun _ => x.1 / 128).dedup
  { s with mem := { s.mem with
      wrote := lines.foldl (fun m line => SMap.set m line (SMap.getD m line [] ++ [(who, die)]).dedup) s.mem.wrote } }

/-- Perform an access: its value is fixed, an AMO writes its word in the same action, and the result lands (R155 to R159). An AMO's write
carries on the releases of the writes before it in its location's coherence order (R297). -/
def State.performAccess (s : State) (p : Pending) (a : Access) : State :=
  let pas := a.bytes
  let s := s.syncTable pas
  let die := dieOf a.cluster
  let who := s.nameOf p.line
  let d := lowestReg p.clear
  let note := fun (tags : List Tag) (t : State) => match SMap.get? t.ctx.lines p.line with
    | some l => t.setLine p.line (if a.acq then { l.acquire a.scope a.cluster who tags with
        heard := (l.heard ++ (l.acquire a.scope a.cluster who tags).heard).dedup } else { l with heard := (l.heard ++ tags).dedup })
    | none => t
  match a.kind with
  | .amo op wide b cmp =>
    let s := ((s.syncTable pas).bringHome who die a.swc pas).giveUpCopies die a.swc pas
    let tags := s.tagsAt die [] pas
    let w := if wide then 64 else 32
    let x := leNat (s.readBytes pas)
    let n := if a.merged.isEmpty then amoNew op w x (b.toNat % 2 ^ w) (cmp.toNat % 2 ^ w) else (x + b.toNat % 2 ^ w + a.sum w) % 2 ^ w
    let t := ((s.writeBytes pas (leBytes (w / 8) n)).tagBytes pas (s.headsAt pas ++ a.tags).dedup).servePushes s pas
    let replies := mergedReplies w x (b.toNat % 2 ^ w) a.merged
    let t := { t with fl := { t.fl with pend := replies.foldl (fun l r => l.map (settlePending r.1 op wide r.2)) t.fl.pend } }
    (note tags t).lineWrite p.line (accessWrites a.kind d x) p.clear none p.wake none
  | k =>
    let s := (s.bringHome who die a.swc pas).touchCopies die a.swc pas
    let x := leNat ((flagged pas a.swc).map fun y => s.loadByte who p.seq die y.2 y.1)
    (note (s.tagsAt die a.swc pas) s).lineWrite p.line (accessWrites k d x) p.clear none p.wake none

/-- The destination of an access that delivers no data receives the replay address, and its pending bits clear (R152). DESIGN CHOICE (log entry 7): where
that clears the last pending bit of a context that waits with kind 8, the context is READY first (R250), and its deferred fault is taken at its next boundary. -/
def State.replayInstead (s : State) (p : Pending) (a : Access) : State :=
  s.lineWrite p.line [(lowestReg p.clear, replayAddr a, BitVec.allOnes 64)] p.clear none p.wake none

/-- Remove the k-th result in flight. -/
def State.dropPend (s : State) (k : Nat) : State := { s with fl := { s.fl with pend := removeAt k s.fl.pend } }

/-- The merged bytes of a store over what stands there. -/
def maskedBytes (old : List Byte) (x : Store) : List Byte :=
  (old.zip (x.bytes.zip x.mask)).map fun y => (y.1 &&& ~~~y.2.2) ||| (y.2.1 &&& y.2.2)

/-- Whether a store can be performed now: in program order with the context's earlier accesses to its bytes, and after those that a
release it carries stands behind (R156, R295). -/
def State.canDrain (s : State) (x : Store) : Bool := !s.mustWait x.who x.seq x.pas true && s.tagsReady x.tags && !s.tableHeld x.pas

/-- Perform a store: at its home slice, or in its die's copy of an SWC line; a write toward a lost home is dropped (R289, R293, R387). -/
def State.performStore (s : State) (x : Store) : State :=
  if x.pas.any (s.seenBy x.seq).homeGone then s
  else
    let die := dieOf x.cluster
    let s := ((s.syncTable x.pas).bringHome x.who die x.swc x.pas).touchCopies die x.swc x.pas
    let old := s.seenBytes die x.swc x.pas
    ((s.performWrite die x.swc x.pas (maskedBytes old x) x.tags).wroteThere x.who die x.swc x.pas).servePushes s x.pas

/-- No link plane between a context's die and the memory of a range is down, nor, for host memory, every CXL port (R19, R377, R397): where one is, an
instruction that reads there in the turn in which it issues takes an idle turn (log entry 66). -/
def State.inReach (s : State) (c : Ctx) (va n : Nat) : Bool :=
  match s.transBytes c.here c.asid c.level .engine .read (va % 2 ^ 57) n with
  | .ok (pas, _) => pas.all fun pa => match s.homeDie pa with
    | some d => s.reaches bulk c.dieNum d
    | none => s.portUp 0 || s.portUp 1
  | .error _ => true

/-- An earlier access keeps a new access of the context from being made: an acquire (R159, R296), or one made before the context came to
its cluster (R300). -/
def State.orderBusy (s : State) (key : Nat) (l : Line) : Bool :=
  (s.fl.pend.any fun p => p.line == key && (match p.access? with
    | some a => a.acq || decide (p.seq < l.moved)
    | none => false)) ||
  s.mem.stores.any fun x => x.who == ctxName key l && decide (x.seq < l.moved)

/-- An earlier access keeps a memory-access instruction from issuing: a load that is not translated also does (R150). -/
def State.memBusy (s : State) (key : Nat) (l : Line) : Bool :=
  (s.fl.pend.any fun p => p.line == key && (match p.access? with
    | some a => a.pas.isNone
    | none => false)) || s.orderBusy key l

end Sys2Proof.Machine
end

