-- ==== Sys2Proof/Machine/MemorySteps.lean ====
section
/-! DEFINITION. The device's steps that perform accesses, orderings, range operations, divides, special functions and reductions
(R81, R142, R147, R152 to R154, R160, R162, R171, R407). -/

namespace Sys2Proof.Machine

/-- A step of the device that cannot happen in this state. -/
def notNow (what : String) : Out := .refused (.notEnabled what)

/-- What stops an access that has not delivered its data (R150, R151, R387). -/
inductive Blocked where
  | fault (f : AccFault) (va : Nat)
  | lost
  deriving DecidableEq, Repr

/-- The fault, remote home or lost home that an access has met. -/
def State.blockedBy (s : State) (a : Access) : Option Blocked :=
  match a.pas with
  | some pas => if pas.any s.homeGone then some .lost else none
  | none =>
    match s.transAccess a .read with
    | .error (f, va) => some (.fault f va)
    | .ok _ => none

/-- The access with its translation, where it has become available. -/
def State.translated (s : State) (a : Access) : Access :=
  match a.pas with
  | some _ => a
  | none =>
    match s.transAccess a .read with
    | .ok (pas, swc) => { a with pas := some pas, swc := swc }
    | .error _ => a

/-- LINE_WRITE (R81, R155 to R159): the k-th result in flight lands in its line, an access being performed. -/
def execLineWrite (k : Nat) (s : State) : Out :=
  match nth? s.fl.pend k with
  | none => notNow "LINE_WRITE"
  | some p =>
    match p.what with
    | .value w pred => .next ((s.dropPend k).lineWrite p.line w p.clear pred p.wake p.tag)
    | .access a =>
      let a := s.translated a
      if s.canPerform p a then
        let s := match SMap.get? s.ctx.lines p.line with
          | some l => s.setLine p.line (l.touch (s.diesOfPas a.bytes))
          | none => s
        .next ((s.dropPend k).performAccess p a)
      else notNow "LINE_WRITE"

/-- The deferred trap of an access. -/
def accessTrap (a : Access) (code : BitVec 8) (marker : Bool) (va : Nat) (detail : Word) : Deferred :=
  { code := code, obj := if marker then some (markerObj a.pc) else none, va := BitVec.ofNat 57 va, pc := a.pc, word := a.word
    detail := detail, dest := none }

/-- DEFERRED_FAULT (R152, R387): a load in flight has met a translation, permission or attribute fault, or an access a lost home. -/
def execDeferredFault (k : Nat) (s : State) : Out :=
  match nth? s.fl.pend k with
  | none => notNow "DEFERRED_FAULT"
  | some p =>
    match p.what with
    | .value _ _ => notNow "DEFERRED_FAULT"
    | .access a =>
      let done : Deferred → Out := fun d => .next (((s.dropPend k).replayInstead p a).deliverFault p.line d)
      match (s.seenBy p.seq).blockedBy a with
      | some (.fault (.remote _) _) => notNow "DEFERRED_FAULT"
      | some (.fault f va) => done (accessTrap a f.code true va (if f.code = 0x20 then 0 else 1))
      | some .lost =>
        match a.kind with
        | .amo _ _ _ _ | .acq _ =>
          let h := match SMap.get? s.ctx.lines p.line with
            | some l => l.handle
            | none => 0
          let pa := a.bytes.headD 0
          let t := (s.dropPend k).memoryError 6 a.asid h (vaWord a.pc) (vaWord a.va) pa 0 (dieOf a.cluster)
          .next ((t.replayInstead p a).deliverFault p.line (accessTrap a 0x20 false a.va.toNat 0))
        | _ => done (accessTrap a 0x20 true a.va.toNat 0)
      | none => notNow "DEFERRED_FAULT"

/-- LOAD_REMOTE_HOME (R152): the context of a load whose page is a TRV page of another cluster travels there with a replay marker. -/
def execLoadRemoteHome (k : Nat) (s : State) : Out :=
  match nth? s.fl.pend k with
  | none => notNow "LOAD_REMOTE_HOME"
  | some p =>
    match p.what with
    | .value _ _ => notNow "LOAD_REMOTE_HOME"
    | .access a =>
      match (s.seenBy p.seq).blockedBy a with
      | some (.fault (.remote c) _) =>
        .next (((s.dropPend k).replayInstead p a).deliverFault p.line { accessTrap a 0 true a.va.toNat 0 with dest := some c })
      | _ => notNow "LOAD_REMOTE_HOME"

/-- POISONED_DATA (R154): a load or atomic whose data is uncorrectable leaves its replay address, and an error record names it. -/
def execPoisonedData (k : Nat) (s : State) : Out :=
  match nth? s.fl.pend k with
  | none => notNow "POISONED_DATA"
  | some p =>
    match p.what with
    | .value _ _ => notNow "POISONED_DATA"
    | .access a =>
      let a := s.translated a
      let s := s.bringHome (s.nameOf p.line) (dieOf a.cluster) a.swc a.bytes
      if s.poisonedAt (dieOf a.cluster) a.swc a.bytes then
        let h := match SMap.get? s.ctx.lines p.line with
          | some l => l.handle
          | none => 0
        let pa := (((flagged a.bytes a.swc).find? fun x => s.badByteAt (dieOf a.cluster) x.2 x.1).map (·.1)).getD 0
        let t := (s.dropPend k).memoryError 1 a.asid h (vaWord a.pc) (vaWord a.va) pa 0 (dieOf a.cluster)
        .next ((t.replayInstead p a).deliverFault p.line (accessTrap a 0x16 false a.va.toNat 0))
      else notNow "POISONED_DATA"

/-- AMO_MERGE (R382): two AMO.ADD requests without ordering to one word become one. -/
def execAmoMerge (k1 k2 : Nat) (s : State) : Out :=
  match nth? s.fl.pend k1, nth? s.fl.pend k2 with
  | some p, some q =>
    match p.access?, q.access? with
    | some a, some b =>
      match a.kind, b.kind with
      | .amo .add wa x _, .amo .add wb y _ =>
        let small := fun (v : Word) => decide (-(2 ^ 40) ≤ v.toInt) && decide (v.toInt < 2 ^ 40)
        let plain := fun (z : Access) => !z.acq && !z.rel
        if k1 ≠ k2 ∧ wa = wb ∧ a.pas = b.pas ∧ a.pas.isSome ∧ a.asid = b.asid ∧ plain a ∧ plain b ∧ !(a.bytes.any isHostPa) ∧
            (!wa ∨ (small x ∧ small y ∧ (a.merged ++ b.merged).all fun m => small m.2)) ∧ !s.isMerged p.seq ∧ !s.isMerged q.seq ∧
            a.merged.length + b.merged.length + 2 ≤ 64 ∧
            !(s.mustWait (s.nameOf q.line) q.seq b.bytes true) ∧ !(s.mustWait (s.nameOf p.line) p.seq a.bytes true) ∧ s.tagsReady b.tags then
          let a' := { a with merged := a.merged ++ (q.seq, y) :: b.merged, tags := a.tags ++ b.tags }
          let b' := { b with merged := [] }
          let set := fun (i : Nat) (z : Access) (l : List Pending) => modifyAt (fun (r : Pending) => { r with what := .access z }) i l
          .next { s with fl := { s.fl with pend := set k2 b' (set k1 a' s.fl.pend) } }
        else notNow "AMO_MERGE"
      | _, _ => notNow "AMO_MERGE"
    | _, _ => notNow "AMO_MERGE"
  | _, _ => notNow "AMO_MERGE"

/-! ### Divides, special functions -/

/-- DIVIDE_COMPLETE (R142). -/
def execDivideComplete (k : Nat) (s : State) : Out :=
  match nth? s.fl.divs k with
  | none => notNow "DIVIDE_COMPLETE"
  | some r =>
    .next ({ s with fl := { s.fl with divs := removeAt k s.fl.divs } }.lineWrite r.line [(r.d, r.value, BitVec.allOnes 64)]
      (regMask (regOf r.d)) none false none)

/-- The unit that comes first in the rotation among those recorded as refused (R147): the rotation moves on every cycle; log entry 63
starts it at unit 0 in cycle 0, and upwards. -/
def firstRefused (cycle : Nat) (refused : List Nat) : Option Nat :=
  ((List.range 4).map fun i => (cycle + i) % 4).find? fun u => refused.contains u

/-- SFU_COMPLETE (R81, R147): the request at the head of a cluster's SFU queue completes, whatever has become of its context. Its result is on its way to
the line, and its entry is free, held for the recorded unit that comes first in the rotation. -/
def execSfuComplete (c : Nat) (s : State) : Out :=
  let q := SMap.getD s.fl.sfu c Sfu.reset
  match q.queue with
  | [] => notNow "SFU_COMPLETE"
  | r :: rest =>
    let held := match firstRefused s.sched.cycle q.refused with
      | some u => q.held ++ [(u, s.sched.cycle)]
      | none => q.held
    let p : Pending := { line := r.line, clear := r.clear, what := .value r.writes none, wake := false, tag := none, seq := r.seq }
    .next { s with fl := { s.fl with sfu := SMap.set s.fl.sfu c { q with queue := rest, held := held }, pend := s.fl.pend ++ [p] } }

/-- SFU_HOLD_EXPIRE (R147): a held entry that its unit has not taken within the 8 cycles after it freed is released to the rotation: it is
free to the request of any unit, and the record of its unit stays (log entry 63). -/
def execSfuHoldExpire (c k : Nat) (s : State) : Out :=
  let q := SMap.getD s.fl.sfu c Sfu.reset
  match nth? q.held k with
  | some (_, t) =>
    if t + 8 < s.sched.cycle then .next { s with fl := { s.fl with sfu := SMap.set s.fl.sfu c { q with held := removeAt k q.held } } }
    else notNow "SFU_HOLD_EXPIRE"
  | none => notNow "SFU_HOLD_EXPIRE"

/-! ### Reductions (R171, R172, R407) -/

/-- One addition of a reduction (R171). -/
def reduceAdd (kind : RedKind) (acc w0 : Word) : Word :=
  match kind with
  | .i64 => acc + w0
  | .f64 => w64 (fp64.add .rne acc.toNat w0.toNat)
  | .f32 =>
    let lane := fun (i : Nat) => fp32.add .rne (acc.toNat / 2 ^ (32 * i) % 2 ^ 32) (w0.toNat / 2 ^ (32 * i) % 2 ^ 32)
    w64 (lane 0 + lane 1 * 2 ^ 32)

/-- The reduction ends: both registers are written and their pending bits clear (R171). -/
def State.endReduction (s : State) (r : Reduction) : State :=
  let s := { s with fl := { s.fl with reds := s.fl.reds.filter fun x => x.line != r.line } }
  let s := match SMap.get? s.ctx.lines r.line with
    | some l => s.setLine r.line { l with redo := false }
    | none => s
  s.lineWrite r.line [(r.dreg, r.acc, BitVec.allOnes 64), (r.areg, w64 r.cnt, BitVec.allOnes 64)] (twoRegs r.dreg r.areg) none false none

/-- REDUCER_POP (R171, R407): a running reduction pops one message, writes back when its count is 0, or stops at a fault of its ring. -/
def execReducerPop (k : Nat) (s : State) : Out :=
  match nth? s.fl.reds k with
  | none => notNow "REDUCER_POP"
  | some r =>
    match SMap.get? s.ctx.lines r.line with
    | none => notNow "REDUCER_POP"
    | some l =>
      if r.cnt = 0 then .next (s.endReduction r)
      else if l.c.inboxCount = 0 ∨ !s.inReach l.c l.c.headSlot 32 then notNow "REDUCER_POP"
      else
        let va := l.c.headSlot
        let stop : BitVec 8 → Nat → Word → State → Out := fun code x detail t =>
          let (t, l) := t.stopReduction r.line l
          .next ((t.setLine r.line l).deliverFault r.line
            { code := code, obj := some 0, va := BitVec.ofNat 57 x, pc := r.pc, word := r.word, detail := detail, dest := none })
        match s.transBytes l.c.here l.c.asid l.c.level .engine .read va 32 with
        | .error (f, x) => stop f.code x 1 s
        | .ok (pas, _) =>
          if s.poisoned pas then stop 0x16 va 0 (s.memoryError 1 l.c.asid l.handle (vaWord r.pc) (w64 va) (pas.headD 0) 0 l.c.dieNum)
          else
            let acc := reduceAdd r.kind r.acc (w64 (leNat (s.readBytes (pas.take 8))))
            let l := { l with c := l.c.popInbox }.hear (s.tagsAt l.c.dieNum [] (pas.take 1))
            let r' := { r with acc := acc, cnt := r.cnt - 1 }
            let s := { s with fl := { s.fl with reds := modifyAt (fun _ => r') k s.fl.reds } }
            let s := s.setLine r.line l
            .next (if r'.cnt = 0 then s.endReduction r' else s)

/-! ### Orderings (R160, R215, R230, R235) -/

/-- An event that a context sent (R215). -/
def SendWhat.isEvent : SendWhat → Bool
  | .event _ .context => true
  | _ => false

/-- Every earlier read of a context has its value (R160). DEDUCED (log entry 30): a QRED that has been stopped has none to wait for. -/
def State.readsDone (s : State) (line seq : Nat) : Bool :=
  !(s.fl.pend.any fun p => p.line == line && decide (p.seq < seq) && p.access?.isSome) &&
  !(s.fl.reds.any fun r => r.line == line && decide (r.seq < seq)) &&
  !(s.fl.owners.any fun r => r.line == line && decide (r.seq < seq) && (match r.what with
    | .rget _ _ _ => true
    | _ => false))

/-- Every earlier write of a context is performed (R160). -/
def State.writesDone (s : State) (line seq : Nat) : Bool :=
  !(s.mem.stores.any fun x => x.who == s.nameOf line && decide (x.seq < seq)) &&
  !(s.fl.pend.any fun p => p.line == line && decide (p.seq < seq) && (match p.access? with
    | some a => match a.kind with
      | .amo _ _ _ _ => true
      | _ => false
    | none => false)) &&
  !(s.fl.ranges.any fun r => r.line == line && decide (r.seq < seq)) &&
  !(s.fl.sends.any fun b => b.2.any fun e => e.line == some line && decide (e.id < seq) && e.what.isSend)

/-- Whether a cluster lies in the instance of a scope around another (R230, R304). -/
def inScope (sc : Scope) (here c : Nat) : Bool :=
  match sc with
  | .ctx => c == here
  | .cl => c == here
  | .die => dieOf c == dieOf here
  | .pkg => true
  | .sys => true

/-- The old translations that remain after a TLBINV (R230). -/
def dropStale (l : List (Nat × Page)) (sc : Scope) (here : Nat) (asid : BitVec 12) (lo hi : Nat) : List (Nat × Page) :=
  l.filter fun x => !(inScope sc here x.1 && x.2.asid == asid && decide (x.2.va < hi) && decide (lo < x.2.va + x.2.size))

/-- The releases that a fence with acquire meets stand behind accesses that are performed (R295, R296). -/
def State.heardAll (s : State) (r : OrderReq) (sc : Scope) : Bool := match SMap.get? s.ctx.lines r.line with
  | some l => s.heardReady sc r.cluster (ctxName r.line l) l.heard
  | none => true

/-- What an ordering waits for. -/
def State.orderDone (s : State) (r : OrderReq) : Bool :=
  match r.kind with
  | .fence ord sc =>
    (ord == .release || (s.readsDone r.line r.seq && s.heardAll r sc)) && (ord == .acquire || s.writesDone r.line r.seq)
  | .fenceEv => !(s.fl.sends.any fun b => b.2.any fun e => e.line == some r.line && decide (e.id < r.seq) && e.what.isEvent)
  | .tlbinv _ _ _ => s.writesDone r.line r.seq
  | .maskclr => s.readsDone r.line r.seq && s.heardAll r .pkg && s.writesDone r.line r.seq && !s.unacked r.line &&
      (match SMap.get? s.ctx.lines r.line with
       | some l => l.c.st.pend == 0
       | none => true)

/-- An operation that a context waits for with a kind has completed: the context is woken, or retires if a CANCEL has marked it (R250). -/
def State.afterWait (s : State) (key : Nat) (l : Line) (kind : BitVec 4) : State :=
  if l.c.st.state = .waiting ∧ l.c.waitKind = kind then (if l.mayRetire then s.retire key l else s.wake key l) else s.setLine key l

/-- ORDERING_COMPLETE (R160, R215, R230, R235): the k-th ordering in flight completes, and its context is woken. -/
def execOrderingComplete (k : Nat) (s : State) : Out :=
  match nth? s.fl.orders k with
  | none => notNow "ORDERING_COMPLETE"
  | some r =>
    if s.orderDone r then
      let s := { s with fl := { s.fl with orders := removeAt k s.fl.orders } }
      let s := match r.kind with
        | .tlbinv sc lo hi => { s with mem := { s.mem with stale := dropStale s.mem.stale sc r.cluster r.asid lo hi } }
        | _ => s
      let s := s.applyLoss r.line
      match SMap.get? s.ctx.lines r.line with
      | none => .next s
      | some l =>
        let l := match r.kind with
          | .fence ord sc => if ord = .release then l else l.acquire sc r.cluster (ctxName r.line l) l.heard
          | .maskclr =>
            let l := l.acquire .pkg r.cluster (ctxName r.line l) l.heard
            { l with c := { l.c with st := { l.c.st with dies := dieBit l.c.dieNum } } }
          | _ => l
        let kind : BitVec 4 := if r.kind = .fenceEv then 3 else 10
        .next (s.afterWait r.line l kind)
    else notNow "ORDERING_COMPLETE"

/-! ### Range operations (R162, R163, R304) -/

/-- The die copies of lines in a physical range that a range operation reaches (R304). -/
def State.copiesIn (s : State) (sc : Scope) (die lo hi : Nat) : List Nat :=
  (s.mem.copies.map (·.1)).filter fun k =>
    let line := k % 2 ^ 45
    decide (lo / 128 ≤ line) && decide (128 * line < hi) &&
      (match sc with
       | .ctx => false
       | .cl => false
       | .die => k / 2 ^ 45 == die
       | .pkg => true
       | .sys => true)

/-- A store on its way into a physical range, whole, that a DISCARD at PKG or SYS takes: one that races with it, since its own context's have been performed
(R304). -/
def Store.discarded (x : Store) (sc : Scope) (lo hi : Nat) : Bool :=
  (sc == .pkg || sc == .sys) && x.pas.all (fun pa => decide (lo ≤ pa) && decide (pa < hi)) && Config.discardTakes x.seq

/-- A range operation on a physical range. DESIGN CHOICE (log entry 65): after a DISCARD the home keeps what it held, which R163 allows. -/
def State.rangeAct (s : State) (kind : RangeKind) (sc : Scope) (die lo hi : Nat) : State :=
  let t := (s.copiesIn sc die lo hi).foldl (fun t k => match kind with
    | .clean => t.writeBack k false
    | .inv => t.writeBack k true
    | .discard => t.dropCopy k) s
  if kind = .discard then { t with mem := { t.mem with stores := t.mem.stores.filter fun x => !x.discarded sc lo hi } } else t

/-- A range operation page by page: the state, where it stopped, and the fault it met there. -/
def State.rangeRun (s : State) (r : RangeReq) (asid : BitVec 12) (level hi : Nat) : Nat → Nat → State × Nat × BitVec 4 × Option AccFault
  | 0, va => (s, va, 0, none)
  | fuel + 1, va =>
    if hi ≤ va then (s, va, 0, none)
    else
      match s.translate r.cluster asid level .engine (if r.kind = .discard then .write else .read) va with
      | .error f => (s, va, 0, some f)
      | .ok (pa, p) =>
        let stop := min hi (p.va + p.size)
        let t := s.rangeAct r.kind r.scope (dieOf r.cluster) pa (pa + (stop - va))
        let (t, x, dies, f) := State.rangeRun t r asid level hi fuel stop
        (t, x, dies ||| s.diesOfPas [pa, pa + (stop - va) - 1], f)

/-- A translation that a range operation of CLEAN or INV needs: the page mapped, whatever it permits (R162). -/
def State.openPages (s : State) (kind : RangeKind) : State :=
  if kind = .discard then s
  else { s with mem := { s.mem with
    pages := s.mem.pages.map fun p => { p with r := true }, stale := s.mem.stale.map fun x => (x.1, { x.2 with r := true }) } }

/-- RANGE_OPERATION_END (R162): the k-th range operation finishes its range, or reaches a page that faults; ga and gb name the part not
yet done. -/
def execRangeOperationEnd (k : Nat) (s : State) : Out :=
  match nth? s.fl.ranges k with
  | none => notNow "RANGE_OPERATION_END"
  | some r =>
    if s.openBefore (s.nameOf r.line) r.seq then notNow "RANGE_OPERATION_END"
    else
      let s := { s with fl := { s.fl with ranges := removeAt k s.fl.ranges } }
      match SMap.get? s.ctx.lines r.line with
      | none => .next s
      | some l =>
        let start := (l.c.reg (regOf r.areg)).toNat % 2 ^ 57
        let hi := start + (l.c.reg (regOf r.breg)).toNat
        let fuel := s.mem.pages.length + s.mem.stale.length + 1
        let (t, va, dies, f) := (s.openPages r.kind).rangeRun r l.c.asid l.c.level hi fuel start
        let t := { t with mem := { t.mem with pages := s.mem.pages, stale := s.mem.stale } }
        let t := t.lineWrite r.line [(r.areg, w64 (va % 2 ^ 57), BitVec.allOnes 64), (r.breg, w64 (hi - va), BitVec.allOnes 64)] 0 none false none
        match SMap.get? t.ctx.lines r.line with
        | none => .next t
        | some l =>
          let l' := l.touch dies
          match f with
          | none => .next (t.afterWait r.line l' 10)
          | some f =>
            if l'.c.st.state = .waiting ∧ l'.c.waitKind = 10 then
              .next (t.takeTrap r.line l' { code := f.code, pc := r.pc, obj := none, at_ := r.pc, src := r.pc, va := w64 va, word := r.word, detail := 0 })
            else .next (t.setLine r.line l')

end Sys2Proof.Machine
end

