-- ==== Sys2Proof/Machine/Delivery.lean ====
section
/-! DEFINITION. Requests that name a context by its handle: where they go, and what each finds there (R81, R167 to R169, R173, R224,
R231, R357), with the error records of engine completions and of the Churn (R284, R329). -/

namespace Sys2Proof.Machine

/-! ### Error records -/

/-- An ENGINE record (R283, R284): `delivery` is 0, 1 for an undeliverable message with its reason, or 2 for a refused event. -/
def State.engineError (s : State) (i : CmdInfo) (delivery reason die : Nat) : State :=
  s.writeError
    [w64 (2 + i.status * 2 ^ 8 + i.flags.toNat * 2 ^ 16 + i.asid.toNat * 2 ^ 24 + i.ckind.toNat * 2 ^ 36 + i.cop.toNat * 2 ^ 40),
     w64 (i.home.toNat + i.cluster * 2 ^ 32), w64 (i.seq.toNat + i.queue * 2 ^ 32), i.ctgt, i.w0, w64 (delivery + reason * 2 ^ 2),
     s.timeAt die, 0]

/-- A Churn record (R329). -/
def State.eventError (s : State) (cause : Nat) (asid : BitVec 12) (addr step : BitVec 32) (va : Word) (v : BitVec 32) (die : Nat) : State :=
  s.writeError
    [w64 (3 + cause * 2 ^ 8 + asid.toNat * 2 ^ 16), w64 (addr.toNat + step.toNat * 2 ^ 32), va, v.signExtend 64, s.timeAt die, 0, 0, 0]

/-! ### The line that a handle names (R169) -/

/-- What a request finds at the line that its handle names: the first check of R169 that fails, or the line. -/
inductive Target where
  | lost
  | notLine
  | stale
  | dead
  | line (key : Nat) (l : Line) (live : Bool)

/-- The die that owns a line (R248); its home slice's for a line in memory or crossing the Armature. -/
def Place.ownerDie : Place → Option Nat
  | .slot c _ _ => some (dieOf c)
  | .l1 c _ => some (dieOf c)
  | .l2 c => some (dieOf c)
  | .arrival c => some (dieOf c)
  | .transit _ => none
  | .toSlot _ _ _ => none
  | .toL1 c _ _ => some (dieOf c)
  | .memory => none

/-- A line of memory taken as the context line that its words describe (R169); it is not live (R246). -/
def State.asLine (s : State) (key : Nat) (lnum : BitVec 50) : Line :=
  let c := s.memLine key
  { Line.fresh c lnum .memory with
    live := false
    watch := if c.waitKind = 1 then regMask (regOf c.waitObj.toNat) else if c.waitKind = 8 then 0xFF else 0 }

/-- The physical address that a handle's line number translates to, with its page. -/
def State.handlePage (s : State) (cluster : Nat) (asid : BitVec 12) (h : Word) : Option (Nat × Page) :=
  (s.findPage cluster asid (handleVa h)).map fun p => (p.pa + (handleVa h - p.va), p)

/-- The checks of R169, in its order, for a request that a cluster sends. -/
def State.target (s : State) (cluster : Nat) (asid : BitVec 12) (h : Word) : Target :=
  match s.handlePage cluster asid h with
  | none => .notLine
  | some (pa, p) =>
    let key := pa / 128
    let live := SMap.get? s.ctx.lines key
    let ownerGone := match live.bind fun l => l.place.ownerDie with
      | some d => s.dieGone d
      | none => false
    if s.homeGone pa || ownerGone || (live.isNone && s.poisoned (rangeFrom (128 * key) 128)) then .lost
    else if p.attr == .prv || p.attr == .swc then .notLine
    else
      let l := live.getD (s.asLine key (h.extractLsb' 0 50))
      if l.c.asid != asid then .notLine
      else if l.c.gen != handleGen h then .stale
      else if l.c.st.state == .free || l.c.st.state == .retired then .dead
      else .line key l live.isSome

/-- The bit of the home die of the line that a handle names (R165, R166). -/
def State.handleDie (s : State) (cluster : Nat) (asid : BitVec 12) (h : Word) : BitVec 4 :=
  match s.handlePage cluster asid h with
  | some (pa, _) => s.diesOfPas [pa]
  | none => 0

/-- A line after a change at its owner: one that nothing holds yet stays in memory alone unless it becomes READY. -/
def State.settleAt (s : State) (key : Nat) (l : Line) (live : Bool) : State :=
  if live then s.settle key l
  else if l.waitOver then s.wake key l
  else s.writeBytes (rangeFrom (128 * key) 128) ((List.range 128).map l.c.byte)

/-! ### Ports (R380) -/

/-- The injection port of a send buffer: a cluster's own, or port 52 of the die of a CXL port (R347, R380). -/
def portOf (buf : Nat) : Nat := if buf = 192 then 52 else if buf = 193 then 2 * 64 + 52 else dieOf buf * 64 + localOf buf

/-! ### Entries of a send buffer (R167) -/

/-- The handle that an entry's request names. -/
def SendWhat.handle? : SendWhat → Option Word
  | .msg h _ _ _ _ _ _ => some h
  | .dep h _ _ => some h
  | .notice h _ _ _ => some h
  | .event _ _ => none
  | .post _ _ _ => none

/-- A message that the device generates (R164, R347). -/
def SendWhat.isDevice : SendWhat → Bool
  | .msg _ _ _ _ _ _ .context => false
  | .msg _ _ _ _ _ _ _ => true
  | _ => false

/-- An earlier entry that must be acknowledged first: of the same context to the same handle, or of the device to the same handle. -/
def earlierFor (e x : SendEntry) : Bool :=
  x.what.handle? == e.what.handle? && x.what.isDevice == e.what.isDevice && (e.what.isDevice || x.line == e.line)

/-- An entry may be offered: it is not held back after a NACK, no earlier entry goes before it, and what the releases that it carries
stand behind is performed (R295). -/
def State.mayOffer (s : State) (l : List SendEntry) (k : Nat) (e : SendEntry) : Bool :=
  e.hold.isNone && !((l.take k).any (earlierFor e)) && s.tagsReady e.tags

/-- Change an entry of a send buffer. -/
def State.setEntry (s : State) (buf id : Nat) (f : SendEntry → SendEntry) : State :=
  s.setSends buf ((s.sendsOf buf).map fun e => if e.id = id then f e else e)

/-- A NACK: the entry keeps the request and offers it again no sooner than 64 fabric cycles later. -/
def State.nack (s : State) (buf id : Nat) : State := s.setEntry buf id fun e => { e with hold := some (s.sched.cycle + 64) }

/-- The reason code of R168. -/
def Target.reason : Target → Nat
  | .stale => 1
  | .dead => 2
  | .lost => 3
  | .notLine => 5
  | .line _ _ _ => 4

/-- An undeliverable request: it is counted, and reported as its sender has it reported (R168, R184, R237, R326, R347). -/
def State.undeliverable (s : State) (buf : Nat) (e : SendEntry) (reason : Nat) : State :=
  let s := s.addUndeliv e.asid 1
  let die := bufDie buf
  let kind := fun (n : Nat) => w64 (0xF * 2 ^ 60 + 1 * 2 ^ 56 + reason * 2 ^ 48 + n)
  match e.what with
  | .msg h w0 _ _ _ n src =>
    match src with
    | .context => s.setEntry buf e.id fun x => { x with what := .notice h w0 (vaWord e.pc) (kind ((n - 1) * 2 ^ 8)), tags := [] }
    | .completion i => (s.engineError i 1 reason die).freeEntry buf e.id
    | .wakeFire addr v step => (s.eventError 3 e.asid addr step h v die).freeEntry buf e.id
    | .submission => (s.hostError 2 e.asid h w0 die).freeEntry buf e.id
    | _ => s.freeEntry buf e.id
  | .dep h m v => s.setEntry buf e.id fun x => { x with what := .notice h v (vaWord e.pc) (kind (1 * 2 ^ 40 + m)), tags := [] }
  | _ => s.freeEntry buf e.id

/-- The address of the slot that the next message of an inbox takes (R164, R167). -/
def Ctx.tailSlot (c : Ctx) : Nat := c.inboxBase.toNat * 512 + 32 * ((c.inboxHead.toNat + c.inboxCount.toNat) % 16)

/-- Append a message to an inbox: none when its ring cannot take it. -/
def State.append (s : State) (key : Nat) (l : Line) (live : Bool) (ws : List Word) (tags : List Tag) : Option State :=
  match s.deviceDest l.c.here l.c.asid l.c.tailSlot 32 with
  | none => none
  | some pas =>
    let s := (s.writeBytes pas (ws.flatMap fun w => leBytes 8 w.toNat)).tagBytes pas tags
    some (s.settleAt key { l with c := { l.c with inboxCount := l.c.inboxCount + 1 } } live)

/-- A loss of a die that a request meets at the line it names is applied first (R387). -/
def State.applyLossAt (s : State) (cluster : Nat) (asid : BitVec 12) (h : Word) : State :=
  match s.handlePage cluster asid h with
  | some (pa, _) => s.applyLoss (pa / 128)
  | none => s

/-- The notice of a trap of code DIE_LOST (R239): a handler that is trapped receives none (R389). -/
def SendWhat.lossNotice : SendWhat → Bool
  | .msg _ _ _ _ w3 _ .trapNotice => w3.setWidth 8 == 0x20#8
  | _ => false

/-- A message reaches its target's owner (R81, R164, R167, R168, R389). -/
def State.offerMessage (s : State) (buf : Nat) (e : SendEntry) (h : Word) (ws : List Word) : State :=
  let s := s.applyLossAt buf e.asid h
  match (s.seenBy e.id).target (min buf 191) e.asid h with
  | .line key l live =>
    if e.what.lossNotice && l.c.st.state == .trapped then (s.addUndeliv e.asid 1).freeEntry buf e.id
    else if 16 ≤ l.c.inboxCount.toNat then s.nack buf e.id
    else match s.append key l live ws e.tags with
      | some t => t.freeEntry buf e.id
      | none => s.undeliverable buf e 4
  | t => s.undeliverable buf e t.reason

/-- A deposit reaches its target's owner (R81, R166): a landed value may be what a take waits for. Its releases stand with the value until
the context reads it (R301). -/
def State.offerDeposit (s : State) (buf : Nat) (e : SendEntry) (h : Word) (m : Nat) (v : Word) : State :=
  let s := s.applyLossAt buf e.asid h
  match (s.seenBy e.id).target (min buf 191) e.asid h with
  | .line key l live =>
    if l.c.st.full.getLsbD m then s.nack buf e.id
    else
      let c := l.c.setReg (regOf m) v
      let l := { l with c := { c with st := { c.st with full := c.st.full ||| regMask (regOf m) } } }
      let l := { l with deps := (l.deps.filter fun x => x.1 != m) ++ if e.tags.isEmpty then [] else [(m, v, e.tags)] }
      (s.settleAt key l live).freeEntry buf e.id
  | t => s.undeliverable buf e t.reason

/-- An undeliverable notice reaches its sender's own inbox: a ring that cannot take it drops it, and the request counts twice (R168). -/
def State.offerNotice (s : State) (buf : Nat) (e : SendEntry) (ws : List Word) : State :=
  match e.line with
  | none => s.freeEntry buf e.id
  | some key =>
    match SMap.get? s.ctx.lines key with
    | none => s.freeEntry buf e.id
    | some l =>
      if 16 ≤ l.c.inboxCount.toNat then s.nack buf e.id
      else match s.append key l true ws [] with
        | some t => t.freeEntry buf e.id
        | none => (s.addUndeliv e.asid 1).freeEntry buf e.id

/-- MESSAGE_DELIVERY (R164, R167, R168): entry k of a send buffer, a message or a notice, reaches its target's owner. -/
def execMessageDelivery (buf k : Nat) (s : State) : Out :=
  match nth? (s.sendsOf buf) k with
  | none => notNow "MESSAGE_DELIVERY"
  | some e =>
    if s.mayOffer (s.sendsOf buf) k e then
      match e.what with
      | .msg h w0 w1 w2 w3 _ _ => .next (s.offerMessage buf e h [w0, w1, w2, w3])
      | .notice w0 w1 w2 w3 => .next (s.offerNotice buf e [w0, w1, w2, w3])
      | _ => notNow "MESSAGE_DELIVERY"
    else notNow "MESSAGE_DELIVERY"

/-- DEPOSIT_DELIVERY (R81, R166, R167): entry k of a send buffer, a deposit, reaches its target's owner. -/
def execDepositDelivery (buf k : Nat) (s : State) : Out :=
  match nth? (s.sendsOf buf) k with
  | none => notNow "DEPOSIT_DELIVERY"
  | some e =>
    if s.mayOffer (s.sendsOf buf) k e then
      match e.what with
      | .dep h m v => .next (s.offerDeposit buf e h m v)
      | _ => notNow "DEPOSIT_DELIVERY"
    else notNow "DEPOSIT_DELIVERY"

/-- An entry that was refused may be offered again, 64 fabric cycles after its NACK. -/
def retry (buf k : Nat) (posts : Bool) (what : String) (s : State) : Out :=
  match nth? (s.sendsOf buf) k with
  | none => notNow what
  | some e =>
    let post := match e.what with
      | .post _ _ _ => true
      | _ => false
    match e.hold with
    | some t => if post = posts ∧ t ≤ s.sched.cycle then .next (s.setEntry buf e.id fun x => { x with hold := none }) else notNow what
    | none => notNow what

/-- SEND_RETRY (R167). -/
def execSendRetry (buf k : Nat) (s : State) : Out := retry buf k false "SEND_RETRY" s

/-- POST_RETRY (R179). -/
def execPostRetry (buf k : Nat) (s : State) : Out := retry buf k true "POST_RETRY" s

/-! ### Requests at a line's owner (R173, R224, R231) -/

/-- An RGET is answered: its reply, on its way to the line, will write gd and the pair together (R173). -/
def State.answerRget (s : State) (r : OwnerReq) (pk : BitVec 2) (v : Word) (ok : Bool) : State :=
  let p : Pending :=
    { line := r.line, clear := regMask (regOf r.d), what := .value [(r.d, v, BitVec.allOnes 64)] (some (pk, ok)), wake := false, tag := none
      seq := r.seq }
  { s with fl := { s.fl with pend := s.fl.pend ++ [p] } }

/-- The context of a line has read a value that carries these releases (R301). -/
def State.hearAt (s : State) (key : Nat) (tags : List Tag) : State :=
  if tags.isEmpty then s
  else match SMap.get? s.ctx.lines key with
    | some l => s.setLine key { l with heard := (l.heard ++ tags).dedup }
    | none => s

/-- An RGET waits at its target's owner, where it arrived at this tick (R173). -/
def OwnerReq.waitsAt (r : OwnerReq) (now : Nat) : OwnerReq :=
  match r.what, r.until_ with
  | .rget _ _ ticks, none => { r with until_ := some (now + ticks) }
  | _, _ => r

/-- RESUME at the target's owner (R224): the status, and the state after it. -/
def State.resumeAt (s : State) (r : OwnerReq) : State × Nat :=
  match (s.seenBy r.seq).target (r.die * 48) r.asid r.handle with
  | .lost => (s, 3)
  | .line key l _ =>
    if l.c.st.state = .trapped then
      let time := match SMap.get? s.ctx.lines r.line with
        | some q => q.c.floor
        | none => 0
      (s.enterReady key (l.resumed time) 0, 0)
    else (s, 1)
  | _ => (s, 2)

/-- The level of a place that EVICT compares (R231): 0 in an issue unit or, by log entry 45, an arrival queue; 1 in the context L2; 2 in memory. -/
def Place.level : Place → Nat
  | .slot _ _ _ => 0
  | .l1 _ _ => 0
  | .toSlot _ _ _ => 0
  | .toL1 _ _ _ => 0
  | .arrival _ => 0
  | .l2 _ => 1
  | .transit _ => 1
  | .memory => 2

/-- Move a line to its cluster's context L2, where a place is free or may be made free (R231, R258): none while there is none. -/
def State.evictToL2 (s : State) (key : Nat) (l : Line) : Option State :=
  match s.roomL2 l.c.here (l.c.st.state == .ready || l.c.st.state == .running) with
  | none => none
  | some t =>
    match SMap.get? t.ctx.lines key with
    | none => none
    | some l =>
      let run := l.c.st.state == .running
      let (t, l) := t.leaveSlot key (if run then l.withState .ready else l)
      let (t, l) := t.unclaim key l
      let ready := l.c.st.state == .ready
      let listed := t.ctx.run.any fun x => x.2.any fun y => y.line == key
      let l := { l with place := .l2 l.c.here }
      some ((if ready && !listed then t.enterReady key l 0 else t.setLine key l).reap key)

/-- Move a line to memory (R231). -/
def State.evictToMemory (s : State) (key : Nat) (l : Line) : State :=
  let run := l.c.st.state == .running
  let (s, l) := s.leaveSlot key (if run then l.withState .ready else l)
  let (s, l) := s.unclaim key l
  ((s.setLine key l).toMemory key).reap key

/-- EVICT at the target's owner (R231): none while the line cannot leave yet. -/
def State.evictAt (s : State) (cluster : Nat) (asid : BitVec 12) (h : Word) (toMem : Bool) : Option (State × Nat) :=
  match s.target cluster asid h with
  | .lost => some (s, 3)
  | .line key l _ =>
    if l.c.st.state = .inTransit then some (s, 4)
    else if (if toMem then 2 else 1) ≤ l.place.level then some (s, 2)
    else if toMem then if s.unacked key then none else some (s.evictToMemory key l, 0)
    else (s.evictToL2 key l).map fun t => (t, 0)
  | _ => some (s, 1)

/-- Remove the k-th request at a line's owner. -/
def State.dropOwner (s : State) (k : Nat) : State := { s with fl := { s.fl with owners := removeAt k s.fl.owners } }

/-- What the owner of its target answers an RGET (R173): the register of a RUNNING or READY context, with the releases of the deposit that
it holds (R301), status 2 where there is none, or nothing yet. -/
def State.rgetValue (s : State) (r : OwnerReq) (m : Nat) : Option (Word × Bool × List Tag) :=
  match (s.seenBy r.seq).target (r.die * 48) r.asid r.handle with
  | .line _ l _ =>
    if l.c.st.state = .running ∨ l.c.st.state = .ready then some (l.c.reg (regOf m), true, l.depTags (regMask (regOf m))) else none
  | _ => some (2, false, [])

/-- REQUEST_AT_LINE_OWNER (R173, R224, R231): the k-th RESUME, EVICT or RGET is answered at its target's owner. An RGET of a target
that is neither RUNNING nor READY stays there until it is, or until its time-out. -/
def execRequestAtLineOwner (k : Nat) (s : State) : Out :=
  match nth? s.fl.owners k with
  | none => notNow "REQUEST_AT_LINE_OWNER"
  | some r =>
    let cluster := r.die * 48
    let s := s.applyLossAt cluster r.asid r.handle
    match r.what with
    | .rget m pk _ =>
      match s.rgetValue r m with
      | some (v, ok, tags) => .next (((s.dropOwner k).hearAt r.line tags).answerRget r pk v ok)
      | none =>
        if r.until_.isNone then
          .next { s with fl := { s.fl with owners := modifyAt (fun x => x.waitsAt (s.timeAt r.die).toNat) k s.fl.owners } }
        else notNow "REQUEST_AT_LINE_OWNER"
    | .resume =>
      if s.writesDone r.line r.seq && s.readsDone r.line r.seq then
        let (t, v) := (s.dropOwner k).resumeAt r
        .next (t.answer r.line r.d (w64 v))
      else notNow "REQUEST_AT_LINE_OWNER"
    | .evict toMem =>
      match ((s.dropOwner k).seenBy r.seq).evictAt cluster r.asid r.handle toMem with
      | some (t, v) => .next ((t.withDies s).answer r.line r.d (w64 v))
      | none => notNow "REQUEST_AT_LINE_OWNER"

/-- RGET_TIMEOUT (R173): the ticks of the k-th request at a line's owner, an RGET, have passed, and its target has not become RUNNING or
READY. -/
def execRgetTimeout (k : Nat) (s : State) : Out :=
  match nth? s.fl.owners k with
  | none => notNow "RGET_TIMEOUT"
  | some r =>
    match r.what, r.until_ with
    | .rget m pk _, some t =>
      if t ≤ (s.timeAt r.die).toNat ∧ (s.rgetValue r m).isNone then .next ((s.dropOwner k).answerRget r pk 1 false)
      else notNow "RGET_TIMEOUT"
    | _, _ => notNow "RGET_TIMEOUT"

/-- The RGETs that wait at their target's owner and are to be answered before the time base ticks again (R173). -/
def State.rgetsDue (s : State) : List Nat :=
  (List.range s.fl.owners.length).filter fun k => match nth? s.fl.owners k with
    | some r => (match r.what with
        | .rget m _ _ => r.until_.isSome && (s.rgetValue r m).isSome
        | _ => false)
    | none => false

/-- The RGETs whose ticks have passed without an answer. -/
def State.rgetsLate (s : State) : List Nat :=
  (List.range s.fl.owners.length).filter fun k => match nth? s.fl.owners k with
    | some r => (match r.what, r.until_ with
        | .rget m _ _, some t => decide (t ≤ (s.timeAt r.die).toNat) && (s.rgetValue r m).isNone
        | _, _ => false)
    | none => false

/-! ### Waits that time or the fetch unit ends -/

/-- A context of wait kind 9 whose TIME has reached its wait object (R122). -/
def State.timeReached (s : State) (l : Line) : Bool :=
  l.c.st.state == .waiting && l.c.waitKind == 9 && decide (l.c.waitObj.toNat ≤ (s.timeOf l.c).toNat)

/-- TIME_WAIT_EXPIRE (R122): a context of wait kind 9 whose TIME has reached its wait object becomes READY. -/
def execTimeWaitExpire (key : Nat) (s : State) : Out :=
  match SMap.get? s.ctx.lines key with
  | none => notNow "TIME_WAIT_EXPIRE"
  | some l => if s.timeReached l then .next (s.wake key l) else notNow "TIME_WAIT_EXPIRE"

/-- FETCH_ARRIVE (R120): the word that a context of wait kind 7 waits for is available. -/
def execFetchArrive (key : Nat) (s : State) : Out :=
  match SMap.get? s.ctx.lines key with
  | none => notNow "FETCH_ARRIVE"
  | some l => if l.c.st.state = .waiting ∧ l.c.waitKind = 7 then .next (s.wake key l) else notNow "FETCH_ARRIVE"

end Sys2Proof.Machine
end

