-- ==== Sys2Proof/Machine/Churn.lean ====
section
/-! DEFINITION. The Churn: groups, members, events, step closes and fires (R307, R308, R311 to R331), maquette nodes and the accounts of
launches that fires and retirements keep (R337, R342 to R344). -/

namespace Sys2Proof.Machine

/-! ### Event addresses (R25, R28) and tenancy (R312, R313) -/

/-- The global cluster of an event address. -/
def evCluster (a : BitVec 32) : Nat := a.toNat / 2 ^ 30 * 48 + a.toNat / 2 ^ 24 % 64
/-- The die of an event address. -/
def evDie (a : BitVec 32) : Nat := a.toNat / 2 ^ 30
/-- The group of an event address, by cluster × 256 + group. -/
def evGroup (a : BitVec 32) : Nat := evCluster a * 256 + a.toNat / 2 ^ 8 % 256
/-- The member of an event address. -/
def evMember (a : BitVec 32) : Nat := a.toNat % 256

/-- An event address whose fields name no group (R28). -/
def evNoName (a : BitVec 32) : Bool := a.toNat / 2 ^ 16 % 256 != 0 || decide (48 ≤ a.toNat / 2 ^ 24 % 64)

/-- The cluster at whose bank a request for an address acts; 192 for an address that names no group. -/
def evBank (a : BitVec 32) : Nat := if evNoName a then 192 else evCluster a

/-- The status of R211 for a name: 4 for an absent or lost die, 3 for a stale name, 0 for a group reserved to the ASID. -/
def State.evStatus (s : State) (a : BitVec 32) (asid : BitVec 12) : Nat :=
  if s.dieGone (evDie a) then 4
  else if evNoName a then 3
  else if s.clusterGone (evCluster a) then 4
  else if s.groupOwner (evGroup a) = some asid then 0 else 3

/-! ### The group record (R219, R220) -/

/-- n bits of a group record from bit i. -/
def cfgBits (r : BitVec 256) (i n : Nat) : Nat := r.toNat / 2 ^ i % 2 ^ n
/-- THRESH as an integer. -/
def Group.thresh (g : Group) : Int := (g.cfg.extractLsb' 0 32).toInt
/-- VFMT. -/
def Group.vfmt (g : Group) : Bool := g.cfg.getLsbD 34
/-- TIMING is IMMEDIATE. -/
def Group.immediate (g : Group) : Bool := g.cfg.getLsbD 35
/-- TMODE. -/
def Group.tmode (g : Group) : Nat := cfgBits g.cfg 36 2
/-- LEAK. -/
def Group.leak (g : Group) : Nat := cfgBits g.cfg 38 2
/-- EN. -/
def Group.en (g : Group) : Bool := g.cfg.getLsbD 63
/-- ACTION. -/
def Group.action (g : Group) : Nat := cfgBits g.cfg 57 3
/-- RESET. -/
def Group.resetValue (g : Group) : BitVec 32 := g.cfg.extractLsb' 96 32
/-- ARG0. -/
def Group.arg0 (g : Group) : Word := g.cfg.extractLsb' 128 64
/-- ARG1. -/
def Group.arg1 (g : Group) : Nat := cfgBits g.cfg 192 16

/-- The fields of a record hold what their actions and modes need (R219, R220). -/
def cfgFieldsOk (r : BitVec 256) : Bool :=
  let action := cfgBits r 57 3
  let leak := cfgBits r 38 2
  let shift := cfgBits r 40 8
  let lambda := cfgBits r 64 32
  let arg0 := cfgBits r 128 64
  let arg1 := cfgBits r 192 16
  let addr := fun (k : Nat) => arg0 % k == 0 && arg0 != 0
  decide (action ≤ 4) && decide (leak ≤ 2) && decide (cfgBits r 36 2 ≤ 2) &&
  (if leak = 2 then decide (1 ≤ shift) && decide (shift ≤ 31) else shift == 0) &&
  (if leak = 1 then decide (lambda < 2 ^ 31) else lambda == 0) &&
  (!r.getLsbD 35 || cfgBits r 48 8 == 0) && (action == 3 || !r.getLsbD 56) &&
  (match action with
   | 1 => decide (1 ≤ arg1) && addr 128
   | 2 => arg1 == 0 && arg0 != 0
   | 3 => arg1 == 0 && addr 8
   | 4 => decide (4 ≤ arg1) && decide (arg1 ≤ 20) && addr 4096
   | _ => arg1 == 0 && arg0 == 0)

/-- A bad record (R220): its own fields, or a change of TIMING without .clr. -/
def cfgBad (g : Group) (r : BitVec 256) (clr : Bool) : Bool :=
  cfgBits r 32 2 != 0 || cfgBits r 60 3 != 0 || cfgBits r 208 48 != 0 || !cfgFieldsOk r || (!clr && r.getLsbD 35 != g.immediate)

/-! ### Members (R317 to R322) -/

/-- Clamp an integer to INT32 (R81). -/
def sat32 (x : Int) : BitVec 32 := BitVec.ofInt 32 (max (-(2 ^ 31)) (min (2 ^ 31 - 1) x))

/-- A member of a group. -/
def Group.member (g : Group) (m : Nat) : Member := SMap.getD g.members m Member.reset

/-- Set a member of a group. -/
def Group.setMember (g : Group) (m : Nat) (x : Member) : Group := { g with members := SMap.put g.members m x Member.reset }

/-- Leak (R320). -/
def Group.leakOf (g : Group) (v : Int) : Int :=
  let lambda : Int := cfgBits g.cfg 64 32
  match g.leak with
  | 1 => if 0 < v then max (v - lambda) 0 else if v < 0 then min (v + lambda) 0 else 0
  | 2 => v - v / 2 ^ (cfgBits g.cfg 40 8)
  | _ => v

/-- Test (R320). -/
def Group.test (g : Group) (x : Member) : Bool :=
  match g.tmode with
  | 0 => decide (g.thresh ≤ x.v.toInt)
  | 1 => decide (x.v.toInt ≤ g.thresh)
  | _ => x.v == 0 && x.armed

/-- The step after a step (R319). -/
def nextStep (S : BitVec 32) : BitVec 32 := if S = 0xFFFFFFFE then 0 else S + 1

/-- An event or a sum enters the calendar (R318). -/
def addCal (l : List CalEntry) (x : CalEntry) : List CalEntry :=
  if l.any fun e => e.m == x.m && e.step == x.step then
    l.map fun e =>
      if e.m = x.m ∧ e.step = x.step then
        { e with sum := e.sum + x.sum, arm := e.arm || x.arm, count := e.count + x.count, time := maxTime e.time x.time }
      else e
  else l ++ [x]

/-- The calendar entries of the step that has begun become its sums (R319). -/
def Group.release (g : Group) : Group :=
  let now := g.cal.filter fun e => e.step == g.S
  { now.foldl (fun g e =>
      let x := g.member e.m
      g.setMember e.m { x with sum := x.sum + e.sum, armin := x.armin || e.arm, timeIn := maxTime x.timeIn e.time }) g with
    cal := g.cal.filter fun e => e.step != g.S }

/-- What becomes of an event that names a group of its ASID (R316). -/
inductive Fate where
  | refused
  | atOnce
  | current
  | calendar
  | late
  deriving DecidableEq, Repr

/-- The fate of an event, by the later checks of R316. A group that is closing its step is judged as at the step after it (R307). -/
def Group.fate (g : Group) (closing : Bool) (step : BitVec 32) : Fate :=
  let n := 2 ^ 32 - 1
  let d := (step.toNat + (n - g.S.toNat)) % n
  let b := (g.S.toNat + (n - step.toNat)) % n
  if !g.en then .refused
  else if g.immediate then .atOnce
  else if step = BitVec.allOnes 32 ∨ d = 0 then .current
  else if d ≤ 63 ∨ (closing ∧ d = 64) then .calendar
  else if b < 2 ^ 31 then .late
  else .refused

/-! ### Memory as the device reaches it for an ASID (R324) -/

/-- Bytes that the device reads for an ASID at a cluster; else whether they are uncorrectable, and the address. -/
def State.devRead (s : State) (c : Nat) (asid : BitVec 12) (va n : Nat) : Except (Bool × Nat) (List Byte) :=
  match s.transBytes c asid 0 .engine .read va n with
  | .error (_, x) => .error (false, x)
  | .ok (pas, swc) =>
    match s.firstBad (dieOf c) swc pas with
    | some i => .error (true, (va + i) % 2 ^ 57)
    | none => .ok (s.seenBytes (dieOf c) swc pas)

/-- Bytes that the device writes for an ASID at a cluster, performed at once; else whether they met uncorrectable data, and the address. -/
def State.devWrite (s : State) (c : Nat) (asid : BitVec 12) (level va : Nat) (bytes : List Byte) : Except (Bool × Nat) State :=
  match s.transBytes c asid level .engine .write va bytes.length with
  | .error (_, x) => .error (false, x)
  | .ok (pas, swc) =>
    match s.firstBad (dieOf c) swc pas with
    | some i => .error (true, (va + i) % 2 ^ 57)
    | none => .ok (((s.syncTable pas).performWrite (dieOf c) swc pas bytes []).servePushes s pas)

/-- Word k of a list of bytes. -/
def wordAt (l : List Byte) (k : Nat) : Nat := leNat ((l.drop (8 * k)).take 8)

/-! ### Launches as fires and retirements see them (R340, R342 to R344) -/

/-- The live launch and the node of a group that a LAUNCH took (R340). -/
def State.launchOf (s : State) (gk : Nat) : Option (Nat × Launch × Nat) :=
  s.launch.table.findSome? fun x => (x.2.groups.find? fun y => y.1 == gk).map fun y => (x.1, x.2, y.2)

/-- The launch whose own group this is. -/
def State.launchDone (s : State) (gk : Nat) : Option (Nat × Launch) := s.launch.table.find? fun x => x.2.group == gk

/-- A CANCEL ends: its context goes on. -/
def State.endCancel (s : State) (r : CancelReq) : State :=
  { s with fl := { s.fl with cancels := s.fl.cancels.filter fun x => x.seq != r.seq } }.answer r.line r.d r.result

/-- A CANCEL whose launches have all completed ends; one of a job that has an accumulator sends it its last event first, and ends when that
is answered (R234, R346). -/
def State.endCancels (s : State) : State :=
  s.fl.cancels.foldl (fun t r =>
    if r.retiring.isEmpty ∧ r.firing.isEmpty ∧ !r.sent then
      if r.byJob ∧ r.jobacc ≠ 0 then
        let wait := fun (x : CancelReq) => if x.seq = r.seq then { x with sent := true } else x
        { t with fl := { t.fl with cancels := t.fl.cancels.map wait } }.sendEvent r.cluster
          (nowEvent r.jobacc (-0x40000000) r.asid (t.timeAt (dieOf r.cluster))) (.cancel r.seq) none
      else t.endCancel r
    else t) s

/-- The event of a CANCEL.job has been answered. -/
def State.cancelAnswered (s : State) (seq : Nat) : State :=
  match s.fl.cancels.find? fun r => r.seq == seq with
  | some r => s.endCancel r
  | none => s

/-- A launch completes, its member 0 having fired with value v (R344): the job hears of it, the groups and the slot are given up. -/
def State.completeLaunch (s : State) (slot : Nat) (x : Launch) (v : BitVec 32) (time : Word) : State :=
  let c := x.group / 256
  let s := if x.jobacc ≠ 0 ∧ !(x.cancelled && x.byJob) then s.sendEvent c (nowEvent x.jobacc (-1) x.asid time) .device none else s
  let s := (x.group :: x.groups.map (·.1)).foldl (fun t gk =>
    (t.syncGroup gk).writeNat (t.groupEntry gk) 8 0) s
  let ended := fun (r : CancelReq) =>
    if r.asid = x.asid ∧ (r.retiring.contains slot ∨ r.firing.contains slot) then
      { r with retiring := r.retiring.filter (· != slot), firing := r.firing.filter (· != slot)
               result := if v.toInt < 0 ∨ r.byJob then r.result else 1 }
    else r
  { s with
    launch := { s.launch with table := SMap.erase s.launch.table slot }
    fl := { s.fl with cancels := s.fl.cancels.map ended } }.endCancels

/-- The events of one instance that has ended, or was never made (R343): an event for each edge of its node, and one to member 0 of L.
They leave through a cluster's send buffer. -/
def State.postDone (s : State) (slot node inst c : Nat) (asid : BitVec 12) (time : Word) (line : Option Nat) : State :=
  match SMap.get? s.launch.table slot with
  | none => s
  | some x =>
    if x.asid ≠ asid then s
    else
      let own := groupAddr x.group
      let fail := fun (t : State) (va : Nat) => t.eventError 4 asid own 0 (w64 va) 0 (dieOf c)
      let one := fun (t : State) (e : Nat) =>
        match t.devRead c asid ((x.maq + 64 + 64 * node + 0x28 + 2 * e) % 2 ^ 57) 2 with
        | .error (_, va) => fail t va
        | .ok l =>
          let w := leNat l
          if w / 256 % 2 = 0 then t
          else
            let next := w % 256
            match t.devRead c asid ((x.work + 4 * next) % 2 ^ 57) 4 with
            | .error (_, va) => fail t va
            | .ok l =>
              let base := leNat l
              let to0 := decide (w / 512 % 2 = 1)
              if base = 0 then t
              else if to0 then t.sendEvent c (nowEvent (BitVec.ofNat 32 base) (-1) asid time) .device line
              else if inst < x.insts.getD next 0 then t.sendEvent c (nowEvent (BitVec.ofNat 32 (base + inst)) (-1) asid time) .device line
              else t
      ((List.range 4).foldl one s).sendEvent c (nowEvent own (-1) asid time) .device line

/-- A dropped spawn request posts the events that its instance would have posted (R342). -/
def State.dropSpawn (s : State) (acct : Option (Nat × Nat × Nat)) (c : Nat) (asid : BitVec 12) (time : Word) : State :=
  match acct with
  | none => s
  | some (slot, node, inst) => s.postDone slot node inst c asid time none

/-! ### Maquette nodes (R336, R337) -/

/-- n bits of word k of a node. -/
def Node.bits (n : Node) (k i len : Nat) : Nat := n.w.getD k 0 / 2 ^ i % 2 ^ len
/-- ENTRY. -/
def Node.entry (n : Node) : Nat := n.bits 0 0 57
/-- ARGS. -/
def Node.args (n : Node) : Nat := n.bits 1 0 57
/-- STRIDE. -/
def Node.stride (n : Node) : Nat := n.bits 2 0 32
/-- NINST. -/
def Node.ninst (n : Node) : Nat := n.bits 2 32 13
/-- DEPS. -/
def Node.deps (n : Node) : Nat := n.bits 3 0 16
/-- HMODE. -/
def Node.hmode (n : Node) : Nat := n.bits 3 20 2
/-- HOME. -/
def Node.home (n : Node) : Nat := n.bits 3 24 8
/-- HSPAN. -/
def Node.hspan (n : Node) : Nat := n.bits 3 32 8
/-- Edge e: 16 bits. -/
def Node.edge (n : Node) (e : Nat) : Nat := n.bits 5 (16 * e) 16

/-- A node as LAUNCH reads it. -/
def nodeOf (l : List Byte) : Node := { w := (List.range 8).map (wordAt l) }

/-- A bit of a node that must be zero is not. -/
def Node.reserved (n : Node) : Bool :=
  n.bits 0 57 7 != 0 || n.bits 0 0 3 != 0 || n.bits 1 57 7 != 0 || n.bits 1 0 3 != 0 || n.bits 2 45 19 != 0 || n.bits 3 22 2 != 0 ||
  n.bits 3 48 16 != 0 || n.bits 4 12 20 != 0 || ((List.range 4).any fun e => decide (1024 ≤ n.edge e)) || n.bits 6 57 7 != 0 || n.bits 7 0 64 != 0

/-- A node that breaks the checks that LAUNCH makes on a node (R327, R341). -/
def State.nodeBad (s : State) (n : Node) : Bool :=
  n.reserved || n.hmode == 3 || (decide (n.hmode < 2) && (decide (192 ≤ n.home) || !(s.die (dieOf n.home)).present)) ||
    (n.hmode == 1 && n.hspan == 0)

/-- The home of an instance (R342); none for HMODE 2. -/
def Node.homeOf (n : Node) (i : Nat) : Option Nat :=
  match n.hmode with
  | 0 => some n.home
  | 1 => some ((n.home + i % n.hspan) % 192)
  | _ => none

/-- The spawn request of instance i of a node, with its argument words (R342). -/
def Node.request (n : Node) (i : Nat) (regs : List Word) (asid : BitVec 12) (issuer : Nat) (honour : Bool) (lslot : Nat) (floor : Word)
    (dies : BitVec 4) (origin : SpawnOrigin) (acct : Option (Nat × Nat × Nat)) : SpawnReq :=
  { asid := asid, home := n.homeOf i, issuer := issuer, entry := BitVec.ofNat 57 n.entry, regs := regs
    cls := BitVec.ofNat 2 (n.bits 3 16 2), priv := if honour && n.bits 3 18 1 == 1 then 1 else 0, roam := n.bits 3 19 1 == 1
    launch := BitVec.ofNat 32 (i % 4096 * 2 ^ 20 + n.bits 3 40 8 * 2 ^ 12 + lslot), floor := floor, dies := dies, addr := 0, v := 0, step := 0
    acct := acct, origin := origin, id := 0 }

/-- A spawn request is made. -/
def State.pushSpawn (s : State) (r : SpawnReq) : State :=
  { s with fl := { s.fl with spawns := s.fl.spawns ++ [{ r with id := s.sched.seq }] } }.nextSeq

/-! ### Fires (R307, R308, R324 to R328) -/

/-- What a fire has from its member: its group, its number, the value at the test, the step and the time it carries. -/
structure Firing where
  gk : Nat
  g : Group
  m : Nat
  v : BitVec 32
  step : BitVec 32
  time : Word
  asid : BitVec 12
  deriving DecidableEq, Repr

/-- The event address of the firing member. -/
def Firing.addr (f : Firing) : BitVec 32 := groupAddr f.gk + BitVec.ofNat 32 f.m
/-- The bank's cluster. -/
def Firing.cluster (f : Firing) : Nat := f.gk / 256
/-- A Churn error record of a fire. -/
def Firing.error (f : Firing) (s : State) (cause va : Nat) : State :=
  s.eventError cause f.asid f.addr f.step (w64 va) f.v (dieOf f.cluster)

/-- The event of a fan-out entry (R307, R325). -/
def Firing.emit (f : Firing) (w0 w1 : Nat) : Ev :=
  { addr := BitVec.ofNat 32 w0, value := BitVec.ofInt 48 (BitVec.ofNat 32 w1).toInt
    step := if f.g.immediate then BitVec.allOnes 32 else BitVec.ofNat 32 ((f.step.toNat + 1 + w0 / 2 ^ 32 % 64) % (2 ^ 32 - 1))
    asid := f.asid, arm := false, rel := false, count := 1, time := f.time }

/-- EMIT: the fan-out entries in increasing order; events for the same bank are returned, others leave through the send buffer. -/
def Firing.emitAll (f : Firing) : Nat → Nat → State → State × List Ev
  | 0, _, s => (s, [])
  | n + 1, va, s =>
    match s.devRead f.cluster f.asid (va % 2 ^ 57) 16 with
    | .error (poison, x) => (f.error s (if poison then 2 else 1) x, [])
    | .ok l =>
      let w0 := wordAt l 0
      let w1 := wordAt l 1
      if 2 ^ 38 ≤ w0 ∨ 2 ^ 32 ≤ w1 then f.emitAll n (va + 16) (f.error s 7 0)
      else
        let e := f.emit w0 w1
        if evCluster e.addr = f.cluster ∧ !evNoName e.addr then
          let (s, rest) := f.emitAll n (va + 16) s
          (s, e :: rest)
        else f.emitAll n (va + 16) (s.sendEvent f.cluster e .device none)

/-- WAKE (R326). -/
def Firing.wake (f : Firing) (s : State) : State :=
  let w2 := f.step.toNat + (if f.g.vfmt then 2 ^ 32 else 0) + (if f.g.immediate then 2 ^ 33 else 0)
  s.pushSend f.cluster (.msg f.g.arg0 (w64 f.addr.toNat) (f.v.signExtend 64) (w64 w2) (w64 (0xF2 * 2 ^ 56)) 4 (.wakeFire f.addr f.v f.step))
    none f.asid 0 [{ time := f.time, scope := .pkg, cluster := f.cluster, auto := true, who := none, seq := 0 }]

/-- The instance number of a SPAWN fire (R327). -/
def Firing.instance_ (f : Firing) : Nat :=
  if f.g.cfg.getLsbD 56 then (if f.g.vfmt then (f.v.sshiftRight 16).toNat else f.v.toNat) else f.m

/-- SPAWN (R327, R342): the node and its arguments are read, and a request goes to its home. The events of a dropped request name the
instance that the launch-slot table gives the group's member. -/
def Firing.spawn (f : Firing) (s : State) : State :=
  let at_ := f.g.arg0.toNat % 2 ^ 57
  let own := s.launchOf f.gk
  let acct := own.map fun x =>
    (x.1, x.2.2, f.instance_ + 256 * (((x.2.1.groups.filter fun y => y.2 == x.2.2).findIdx? fun y => y.1 == f.gk).getD 0))
  let drop := fun (va : Nat) => (f.error s 4 va).dropSpawn acct f.cluster f.asid f.time
  match s.devRead f.cluster f.asid at_ 64 with
  | .error (_, va) => drop va
  | .ok l =>
    let n := nodeOf l
    let i := (f.instance_ + n.bits 4 32 32) % 2 ^ 32
    if s.nodeBad n then drop at_
    else match s.devRead f.cluster f.asid ((n.args + n.stride * i) % 2 ^ 57) 32 with
      | .error (_, va) => drop va
      | .ok a =>
        let r := n.request i ((List.range 4).map fun k => w64 (wordAt a k)) f.asid f.cluster own.isSome (n.bits 4 0 12) f.time
          (1#4 <<< dieOf f.cluster) .fire acct
        s.pushSpawn { r with addr := f.addr, v := f.v, step := f.step }

/-- LOG (R308, R328): the entry is written at once; the count advances in any case. -/
def Firing.log (f : Firing) (s : State) : State :=
  let g := s.group f.gk
  let n := g.logn.toNat
  let va := (f.g.arg0.toNat + 16 * (n % 2 ^ f.g.arg1)) % 2 ^ 57
  let w0 := f.step.toNat + f.m * 2 ^ 32 + 2 ^ 63
  let w1 := f.v.toNat + n * 2 ^ 32
  let s := s.setGroup f.gk { g with logn := g.logn + 1 }
  match s.devWrite f.cluster f.asid 0 va (leBytes 8 w0 ++ leBytes 8 w1) with
  | .ok t => t
  | .error (_, x) => f.error s 6 x

/-- A fire (R324): its action, and, for member 0 of a launch's own group, the completion of the launch (R344). The events for the same
bank are returned. -/
def Firing.fire (f : Firing) (s : State) : State × List Ev :=
  let (s, l) := match f.g.action with
    | 1 => f.emitAll f.g.arg1 (f.g.arg0.toNat + 16 * f.g.arg1 * f.m) s
    | 2 => (f.wake s, [])
    | 3 => (f.spawn s, [])
    | 4 => (f.log s, [])
    | _ => (s, [])
  if f.m = 0 then
    match s.launchDone f.gk with
    | some (slot, x) => (s.completeLaunch slot x f.v f.time, l)
    | none => (s, l)
  else (s, l)

/-- The fire of a member, with the time it carries (R305). -/
def State.fireMember (s : State) (gk m : Nat) (g : Group) (v : BitVec 32) (time : Word) (asid : BitVec 12) : State × List Ev :=
  let f : Firing := { gk := gk, g := g, m := m, v := v, step := g.S, time := maxTime (s.timeAt (dieOf (gk / 256))) time, asid := asid }
  f.fire s

/-! ### Events at a bank (R316, R321) -/

/-- An IMMEDIATE group integrates an event (R321). -/
def State.integrate (s : State) (gk : Nat) (g : Group) (e : Ev) : State × List Ev :=
  let m := evMember e.addr
  let x := g.member m
  let x := { x with
    v := sat32 (x.v.toInt + e.value.toInt), armed := x.armed || e.arm, time := if e.rel then maxTime x.time e.time else x.time }
  if g.test x then
    (s.setGroup gk (g.setMember m { x with v := g.resetValue, armed := false, time := 0 })).fireMember gk m g x.v x.time e.asid
  else (s.setGroup gk (g.setMember m x), [])

/-- An event enters the current step (R316). -/
def Group.addCurrent (g : Group) (e : Ev) : Group :=
  let m := evMember e.addr
  let x := g.member m
  g.setMember m { x with
    sum := x.sum + e.value, armin := x.armin || e.arm, timeIn := if e.rel then maxTime x.timeIn e.time else x.timeIn }

/-- One event reaches its bank (R316), where one group may be closing its step: whether it is accepted, and the events for the same bank
that it causes. -/
def State.acceptOne (s : State) (closing : Option Nat) (e : Ev) : State × Bool × List Ev :=
  if s.evStatus e.addr e.asid ≠ 0 then (s.addRefused e.asid e.count, false, [])
  else
    let gk := evGroup e.addr
    let s := s.syncGroup gk
    let g := s.group gk
    match g.fate (closing == some gk) e.step with
    | .refused => (s.addRefused e.asid e.count, false, [])
    | .atOnce => let (t, l) := s.integrate gk g e; (t, true, l)
    | .current => (s.setGroup gk (g.addCurrent e), true, [])
    | .late => (s.setGroup gk { g.addCurrent e with late := g.late + BitVec.ofNat 32 e.count }, true, [])
    | .calendar =>
      let x : CalEntry := { m := evMember e.addr, step := e.step, sum := e.value, arm := e.arm, count := e.count
                            time := if e.rel then e.time else 0 }
      (s.setGroup gk { g with cal := addCal g.cal x }, true, [])

/-! ### Step close (R319) -/

/-- Close one member: the state, and the events for the same bank that its fire causes. -/
def State.closeMember (s : State) (gk : Nat) (asid : BitVec 12) (m : Nat) : State × List Ev :=
  let g := s.group gk
  let x := g.member m
  let done := fun (y : Member) => { y with sum := 0, armin := false, time := maxTime y.time y.timeIn, timeIn := 0 }
  if x.refr ≠ 0 then (s.setGroup gk (g.setMember m (done { x with refr := x.refr - 1 })), [])
  else
    let y := done { x with v := sat32 (g.leakOf x.v.toInt + x.sum.toInt), armed := x.armed || x.armin }
    if g.test y then
      let z := { y with v := g.resetValue, refr := BitVec.ofNat 8 (cfgBits g.cfg 48 8), armed := false, time := 0 }
      (s.setGroup gk (g.setMember m z)).fireMember gk m g y.v y.time asid
    else (s.setGroup gk (g.setMember m y), [])

/-- The step of a group advances, and the calendar's entries for it are released (R319). -/
def State.advanceStep (s : State) (gk : Nat) : State :=
  let g := s.group gk
  s.setGroup gk { g with S := nextStep g.S }.release

/-! ### The action of a bank (R307, R319, R325) -/

/-- One piece of an action: the state, and what it adds in front of the rest. The events that a fire has for its own bank are accepted within
the firing action, each with those that it causes in turn (R325). -/
def State.bankOne (s : State) : BankWork → State × List BankWork
  | .event closing e => let (t, _, l) := s.acceptOne closing e; (t, l.map (.event closing))
  | .member gk asid m => let (t, l) := s.closeMember gk asid m; (t, l.map (.event (some gk)))
  | .advance gk => (s.advanceStep gk, [])
  | .answer line d v => (s.answer line d v, [])
  | .accepted _ _ _ _ => (s, [])

/-- The pieces of an action in their order, as many as given: the state, and what is left; what is owed to a sender is left to the last. -/
def State.bankRun : Nat → List BankWork → State → State × List BankWork
  | _, [], s => (s, [])
  | _, [.accepted buf e src ok], s => (s, [.accepted buf e src ok])
  | 0, l, s => (s, l)
  | n + 1, w :: l, s =>
    let (t, more) := s.bankOne w
    State.bankRun n (more ++ l) t

/-- What is left of a bank's action. -/
def State.chain (s : State) (c : Nat) : List BankWork := SMap.getD s.chains c []

/-- The bank of a cluster does the pieces of an action; what is left of a long one it goes on with. -/
def State.bankDo (s : State) (c : Nat) (l : List BankWork) : State :=
  let (t, rest) := s.bankRun Config.chainEvents l
  { t with chains := SMap.put t.chains c rest [] }

/-- A context takes its answer at the end of a bank's action. -/
def State.answerAfter (s : State) (c line d : Nat) (v : Word) : State :=
  if (s.chain c).isEmpty then s.answer line d v else { s with chains := SMap.set s.chains c (s.chain c ++ [.answer line d v]) }

/-- A bank does nothing else before an action has come to its end. -/
def State.bankIdle (s : State) (a : BitVec 32) : Bool := (s.chain (evBank a)).isEmpty

/-- CloseStep (R319): every member in ascending order, then the step advances and the calendar's entries for it are released. -/
def closeStep (gk : Nat) (asid : BitVec 12) : List BankWork := (List.range 256).map (.member gk asid) ++ [.advance gk]

end Sys2Proof.Machine
end

