-- ==== Sys2Proof/Machine/LoadStore.lean ====
section
/-! DEFINITION. Loads, stores, atomics, fences, prefetch and range operations (R149 to R163). -/

namespace Sys2Proof.Machine

/-! ### The parts they share -/

/-- The place, the ASID and the privilege of an access at issue. -/
def newAccess (l0 : Line) (kind : AccessKind) (va : VAddr) (word : Word) : Access :=
  { kind := kind, va := va, pc := l0.at_, word := word, asid := l0.c.asid, priv := l0.c.st.priv, cluster := l0.c.here, acq := false
    rel := false, scope := .ctx, pas := none, swc := [], tags := [], merged := [] }

/-- The line with more pending bits. -/
def Line.pending (l : Line) (m : BitVec 8) : Line := { l with c := { l.c with st := { l.c.st with pend := l.c.st.pend ||| m } } }

/-- An access is in flight and its destination pending; the dies of its homes are touched (R65, R151). -/
def beginAccess (t : State) (key : Nat) (l : Line) (a : Access) (dst : BitVec 8) (wake : Bool) : State × Line :=
  let p : Pending := { line := key, clear := dst, what := .access a, wake := wake, tag := none, seq := t.sched.seq }
  (({ t with fl := { t.fl with pend := t.fl.pend ++ [p] } }).nextSeq, (l.pending dst).touch (t.diesOfPas a.bytes))

/-- A load of class L: translation follows issue, and a fault it finds is deferred (R150). -/
def beginLoad (t : State) (key : Nat) (l : Line) (a : Access) (dst : BitVec 8) : Out :=
  let a := match t.transAccess a .read with
    | .ok (pas, swc) => { a with pas := some pas, swc := swc }
    | .error _ => a
  let (t, l) := beginAccess t key l a dst false
  .next (t.setLine key l)

/-- A fault or a remote TRV home that an instruction finds before it issues (R150, R151): the trap is precise, the migration leaves the
PC at the access. -/
def preciseFault (h : Head) (t : State) (key : Nat) (l0 : Line) (f : AccFault) (va : Nat) : Out :=
  match f with
  | .remote dest => .next (t.leaveFor key l0 dest ((l0.reissue.map markerObj).getD 0))
  | _ => trapOut h t key l0 f.code (w64 va)

/-- A context that makes a release now, and the time that it carries (R305). -/
def Line.stamp (t : State) (l : Line) : Line × Word :=
  let time := t.timeOf l.c
  ({ l with c := { l.c with floor := time } }, time)

/-- The line of a context that makes a release, and the tag its write carries (R305). -/
def Line.release (t : State) (key : Nat) (l : Line) (sc : Scope) : Line × Tag :=
  let (l, time) := l.stamp t
  (l, { time := time, scope := sc, cluster := l.c.here, auto := false, who := some (ctxName key l), seq := t.sched.seq })

/-- The line of a context that makes a FENCE with release: each later write carries it, and the time of the latest one (R295, R305). -/
def Line.fenced (t : State) (key : Nat) (l : Line) (sc : Scope) : Line :=
  let (l, x) := l.release t key sc
  { l with fenceTags := x :: (l.fenceTags.filter fun y => y.scope != sc).map fun y => { y with time := x.time } }

/-- A store leaves the context: it is performed later (R155, R293). -/
def beginStore (t : State) (key : Nat) (l : Line) (pas : List Nat) (swc : List Bool) (bytes mask : List Byte)
    (rel : Option Scope) : Out :=
  let (l, tags) := match rel with
    | some sc => let (l, x) := l.release t key sc; (l, x :: l.fenceTags)
    | none => (l, l.fenceTags)
  let x : Store :=
    { who := ctxName key l, seq := t.sched.seq, asid := l.c.asid, cluster := l.c.here, swc := swc, rel := rel.isSome, scope := rel.getD .ctx
      tags := tags, pas := pas, bytes := bytes, mask := mask }
  .next (({ t with mem := { t.mem with stores := t.mem.stores ++ [x] } }.nextSeq).setLine key (l.touch (t.diesOfPas pas)))

/-- The mask of a store of whole bytes. -/
def fullMask (n : Nat) : List Byte := List.replicate n 0xFF

/-- A store of n bytes of a value at an address (R149 to R151, R155, R157). -/
def storeOp (h : Head) (s : State) (n : Nat) (va : Ctx → VAddr) (value : Ctx → Nat) (rel : Option Scope) : Out :=
  issue h s fun t key l0 l =>
    if s.memBusy key l0 then idleTurn s key l0
    else
      let a := va l0.c
      if a.toNat % n ≠ 0 then trapOut h t key l0 0x04 (vaWord a)
      else match t.transBytes l0.c.here l0.c.asid l0.c.level .context .write a.toNat n with
        | .error (f, x) => preciseFault h t key l0 f x
        | .ok (pas, swc) => beginStore t key l pas swc (leBytes n (value l0.c)) (fullMask n) rel

/-! ### Loads and stores -/

/-- LD.w gd, [ga+off] la=n (R155). A re-issued LD takes its address from gd (R153). -/
def execLd (g : Guard) (la : BitVec 4) (w : LoadWidth) (d : Reg) (a : Src) (off : BitVec 15) (s : State) : Out :=
  let h := { headLong (.ld g la w d a off) g la (names2 d a) a.takeMask with again := some (regMask d) }
  issue h s fun t key l0 l =>
    if s.memBusy key l0 then idleTurn s key l0
    else
      let va := if l0.reissue.isSome then (l0.c.reg d).setWidth 57 else effAddr (l0.c.src a) off
      if va.toNat % loadBytes w ≠ 0 then trapOut h t key l0 0x04 (vaWord va)
      else beginLoad t key l (newAccess l0 (.ld w) va h.word) (regMask d)

/-- ST.w [ga+off], gb (R155). -/
def execSt (g : Guard) (w : StoreWidth) (a b : Src) (off : BitVec 15) (s : State) : Out :=
  storeOp (headOf (.st g w a b off) g (a.nameMask ||| b.nameMask) (takes2 a b)) s (storeBytes w)
    (fun c => effAddr (c.src a) off) (fun c => (c.src b).toNat) none

/-- LDV gd:gd+1, [ga+off] la=n (R157). -/
def execLdv (g : Guard) (la : BitVec 4) (d : Reg) (a : Src) (off : BitVec 15) (s : State) : Out :=
  let h := { headLong (.ldv g la d a off) g la (pairMask d ||| a.nameMask) a.takeMask with again := some (pairMask d) }
  issue h s fun t key l0 l =>
    if s.memBusy key l0 then idleTurn s key l0
    else
      let va := if l0.reissue.isSome then (l0.c.reg d).setWidth 57 else effAddr (l0.c.src a) off
      if va.toNat % 16 ≠ 0 then trapOut h t key l0 0x04 (vaWord va)
      else beginLoad t key l (newAccess l0 .ldv va h.word) (pairMask d)

/-- STV [ga+off], gb:gb+1 (R157). -/
def execStv (g : Guard) (a b : Src) (off : BitVec 15) (s : State) : Out :=
  storeOp (headOf (.stv g a b off) g (a.nameMask ||| pairName b) (a.takeMask ||| b.takePair)) s 16
    (fun c => effAddr (c.src a) off) (fun c => (c.pair b.reg).toNat) none

/-- The format code of a fat pointer (R46). -/
def fatFormat (x : Word) : Nat := x.toNat / 2 ^ 60
/-- The block-length code of a fat pointer (R46). -/
def fatBlock (x : Word) : Nat := x.toNat / 2 ^ 57 % 8
/-- The address of a fat pointer (R46). -/
def fatAddr (x : Word) : Nat := x.toNat % 2 ^ 57

/-- The format of a fat pointer is one a typed access refuses (R48). -/
def badTyped (x : Word) : Bool := fatFormat x == 0 || decide (12 ≤ fatFormat x) || (fatBlock x != 0 && !fmtScalable (fatFormat x))

/-- The element index of a typed access (R158). -/
def typedIndex (gb : Word) (off : BitVec 15) : Int := gb.toInt + off.toInt

/-- The address of a typed access: of the element, or of its group of T6 (R158). -/
def typedAddr (ga gb : Word) (off : BitVec 15) : VAddr :=
  let i := typedIndex gb off
  let disp : Int := if fatFormat ga = 10 then 3 * (i / 4) else i * fmtBytes (fatFormat ga)
  BitVec.ofInt 57 ((fatAddr ga : Int) + disp)

/-- The position of a T6 element in its group (R158). -/
def typedPos (gb : Word) (off : BitVec 15) : Nat := (typedIndex gb off % 4).toNat

/-- The bits of a register that STT stores as an element (R158, R42). -/
def sttBits (fmt : Nat) (x : Word) : Nat :=
  match fmtRange fmt with
  | some (lo, hi) => intBits (fmtBits fmt) (clampInt lo hi x.toInt)
  | none =>
    match fmt with
    | 7 => x.toNat % 2 ^ 32
    | 8 => x.toNat
    | _ => fmtEncode fmt .rne (fp32.decode (x.toNat % 2 ^ 32))

/-- LDT gd, [ga+gb+off] la=n (R158). A re-issued LDT takes address, format and position from gd (R153). DESIGN CHOICE (log entry 73): misused type
fields are found before a misaligned address. -/
def execLdt (g : Guard) (la : BitVec 4) (d : Reg) (a b : Src) (off : BitVec 15) (s : State) : Out :=
  let h := { headLong (.ldt g la d a b off) g la (names3 d a b) (takes2 a b) with again := some (regMask d) }
  issue h s fun t key l0 l =>
    if s.memBusy key l0 then idleTurn s key l0
    else
      let re := l0.reissue.isSome
      let x := if re then l0.c.reg d else l0.c.src a
      let fmt := fatFormat x
      let va := if re then x.setWidth 57 else typedAddr x (l0.c.src b) off
      let pos := if re then fatBlock x % 4 else typedPos (l0.c.src b) off
      if (if re then fmt == 0 || decide (12 ≤ fmt) else badTyped x) then trapOut h t key l0 0x06 0
      else if va.toNat % fmtBytes fmt ≠ 0 then trapOut h t key l0 0x04 (vaWord va)
      else beginLoad t key l (newAccess l0 (.ldt fmt pos) va h.word) (regMask d)

/-- The bytes and the mask of an STT (R158): a T6 element changes only its own six bits. -/
def sttBytes (fmt pos x : Nat) : List Byte × List Byte :=
  if fmt = 10 then (leBytes 3 (x * 2 ^ (6 * pos)), leBytes 3 (63 * 2 ^ (6 * pos)))
  else (leBytes (fmtBytes fmt) x, fullMask (fmtBytes fmt))

/-- STT [ga+gb+off], gd (R158); the order of its checks is that of LDT (log entry 73). -/
def execStt (g : Guard) (d : Reg) (a b : Src) (off : BitVec 15) (s : State) : Out :=
  let h := headOf (.stt g d a b off) g (names3 d a b) (takes2 a b)
  issue h s fun t key l0 l =>
    if s.memBusy key l0 then idleTurn s key l0
    else
      let x := l0.c.src a
      let fmt := fatFormat x
      let va := typedAddr x (l0.c.src b) off
      let (bytes, mask) := sttBytes fmt (typedPos (l0.c.src b) off) (sttBits fmt (l0.c.reg d))
      if badTyped x then trapOut h t key l0 0x06 0
      else if va.toNat % fmtBytes fmt ≠ 0 then trapOut h t key l0 0x04 (vaWord va)
      else match t.transBytes l0.c.here l0.c.asid l0.c.level .context .write va.toNat bytes.length with
        | .error (f, y) => preciseFault h t key l0 f y
        | .ok (pas, swc) => beginStore t key l pas swc bytes mask none

/-- LD.acq.w.scope gd, [ga+off] (R155): the context waits until gd is written. -/
def execLdAcq (g : Guard) (w : LoadWidth) (sc : Scope) (d : Reg) (a : Src) (off : BitVec 15) (s : State) : Out :=
  let h := headWait (.ldAcq g w sc d a off) g (names2 d a) a.takeMask
  issue h s fun t key l0 l =>
    if s.memBusy key l0 then idleTurn s key l0
    else
      let va := effAddr (l0.c.src a) off
      let x := { newAccess l0 (.acq w) va h.word with acq := true, scope := sc }
      if va.toNat % loadBytes w ≠ 0 then trapOut h t key l0 0x04 (vaWord va)
      else match t.transAccess x .read with
        | .error (f, y) => preciseFault h t key l0 f y
        | .ok (pas, swc) =>
          let (t, l) := beginAccess t key l { x with pas := some pas, swc := swc } (regMask d) false
          waitPast t key l 8 0 0xFF

/-- ST.rel.w.scope [ga+off], gb (R155). -/
def execStRel (g : Guard) (w : StoreWidth) (sc : Scope) (a b : Src) (off : BitVec 15) (s : State) : Out :=
  storeOp (headOf (.stRel g w sc a b off) g (a.nameMask ||| b.nameMask) (takes2 a b)) s (storeBytes w)
    (fun c => effAddr (c.src a) off) (fun c => (c.src b).toNat) (some sc)

/-- AMO.op.w[.ord][.scope] gd, [ga], gb la=n (R159). -/
def execAmo (g : Guard) (la : BitVec 4) (op : AmoOp) (wide : Bool) (ord : Order) (sc : Scope) (d : Reg) (a b : Src) (s : State) : Out :=
  let h := headLong (.amo g la op wide ord sc d a b) g la (names3 d a b) (takes2 a b)
  issue h s fun t key l0 l =>
    if s.memBusy key l0 then idleTurn s key l0
    else
      let va := effAddr (l0.c.src a) 0
      let kind : AccessKind := .amo op wide (l0.c.src b) (l0.c.reg d)
      let rel := ord == .release || ord == .acqRel
      let x := { newAccess l0 kind va h.word with acq := ord == .acquire || ord == .acqRel, rel := rel, scope := sc }
      if va.toNat % kind.len ≠ 0 then trapOut h t key l0 0x04 (vaWord va)
      else match t.transAccess x .write with
        | .error (f, y) => preciseFault h t key l0 f y
        | .ok (pas, swc) =>
          let (l, tags) := if rel then let (l, y) := l.release t key sc; (l, y :: l.fenceTags) else (l, l.fenceTags)
          let (t, l) := beginAccess t key l { x with pas := some pas, swc := swc, tags := tags } (regMask d) false
          .next (t.setLine key l)

/-! ### Fences, prefetch, ranges -/

/-- An ordering is in flight, and the context waits for it with kind 10 (R160, R230, R235). -/
def beginOrder (t : State) (key : Nat) (pc : VAddr) (l : Line) (kind : OrderKind) : Out :=
  let r : OrderReq := { line := key, kind := kind, pc := pc, asid := l.c.asid, cluster := l.c.here, seq := t.sched.seq }
  waitPast ({ t with fl := { t.fl with orders := t.fl.orders ++ [r] } }.nextSeq) key l 10 0 0

/-- FENCE.ord.scope (R160): a fence with release gives the writes after it its time (R305). -/
def execFence (g : Guard) (ord : Order) (sc : Scope) (s : State) : Out :=
  issue (headWait (.fence g ord sc) g 0 0) s fun t key l0 l =>
    let l := if ord = .acquire then l else l.fenced t key sc
    beginOrder t key l0.at_ l (.fence ord sc)

/-- PREF.rd or PREF.wr [ga+off] (R161): no value that any agent can read changes. -/
def execPref (g : Guard) (wr : Bool) (a : Src) (off : BitVec 15) (s : State) : Out :=
  issueReg (headOf (.pref g wr a off) g a.nameMask a.takeMask) s fun _ c => c

/-- A range operation: its checks before it acts (R162); it then proceeds while the context waits. DEDUCED (log entry 13): a misaligned start of a
DISCARD traps whatever the length, 0 included. DESIGN CHOICE (log entry 78): while it proceeds the context holds wait kind 10 with object 0, the kind of
the other ordering words (R247 names none for CLEAN, INV and DISCARD). -/
def rangeOp (i : Instr) (g : Guard) (kind : RangeKind) (sc : Scope) (a b : Reg) (s : State) : Out :=
  let h := headWait i g (regMask a ||| regMask b) 0
  issue h s fun t key l0 l =>
    let start := (l0.c.reg a).toNat % 2 ^ 57
    let len := (l0.c.reg b).toNat
    if kind = .discard ∧ (start % 128 ≠ 0 ∨ len % 128 ≠ 0) then trapOut h t key l0 0x04 (w64 start)
    else if start + len > 2 ^ 57 then trapOut h t key l0 0x08 0
    else if len = 0 then .next (t.setLine key l)
    else
      let r : RangeReq := { line := key, kind := kind, scope := sc, areg := a.val, breg := b.val, cluster := l.c.here, pc := l0.at_
                            word := h.word, seq := t.sched.seq }
      waitPast ({ t with fl := { t.fl with ranges := t.fl.ranges ++ [r] } }.nextSeq) key l 10 0 0

/-- CLEAN.scope [ga], gb (R162). -/
def execClean (g : Guard) (sc : Scope) (a b : Reg) (s : State) : Out := rangeOp (.clean g sc a b) g .clean sc a b s

/-- INV.scope [ga], gb (R162). -/
def execInv (g : Guard) (sc : Scope) (a b : Reg) (s : State) : Out := rangeOp (.inv g sc a b) g .inv sc a b s

/-- DISCARD.scope [ga], gb (R162, R163). -/
def execDiscard (g : Guard) (sc : Scope) (a b : Reg) (s : State) : Out := rangeOp (.discard g sc a b) g .discard sc a b s

end Sys2Proof.Machine
end

