-- ==== Sys2Proof/Machine/Tiles.lean ====
section
/-! DEFINITION. The Vat: tiles, their elements and scale planes, handle tables, and the three instructions of the handle tables (R41,
R43, R44, R190 to R193, R267 to R274, R391). -/

namespace Sys2Proof.Machine

/-! ### Handles (R25, R28) -/

/-- The global cluster of a tile handle. -/
def tileCluster (h : BitVec 32) : Nat := h.toNat / 2 ^ 30 * 48 + h.toNat / 2 ^ 24 % 64
/-- The die of a tile handle. -/
def tileDie (h : BitVec 32) : Nat := h.toNat / 2 ^ 30
/-- A handle whose local cluster field names no cluster. -/
def tileNoName (h : BitVec 32) : Bool := decide (48 ≤ h.toNat / 2 ^ 24 % 64)
/-- The handle-table key of a handle: cluster × 4,096 + index. -/
def tileKey (h : BitVec 32) : Nat := tileCluster h * Config.handleEntries + h.toNat / 2 ^ 12 % Config.handleEntries
/-- The tile that a handle names, by key and generation. -/
def tileRef (h : BitVec 32) : TileRef := (tileKey h, h.setWidth 12)
/-- The handle of a tile. -/
def handleOfRef (r : TileRef) : BitVec 32 :=
  let c := r.1 / Config.handleEntries
  BitVec.ofNat 32 (dieOf c * 2 ^ 30 + localOf c * 2 ^ 24 + r.1 % Config.handleEntries * 2 ^ 12 + r.2.toNat)
/-- The cluster whose Vat holds a tile. -/
def refCluster (r : TileRef) : Nat := r.1 / Config.handleEntries

/-- An entry of a handle table. -/
def State.entry (s : State) (key : Nat) : Tile := SMap.getD s.eng.tiles key Tile.reset

/-- Set an entry of a handle table. -/
def State.setEntryAt (s : State) (key : Nat) (t : Tile) : State := { s with eng := { s.eng with tiles := SMap.put s.eng.tiles key t Tile.reset } }

/-- The live tile that a handle names for an ASID: else 9 for a die (R3, R28) or a cluster that is gone, 3 for a stale handle (R28, R185,
R273). -/
def State.liveTile (s : State) (asid : BitVec 12) (h : BitVec 32) : Except Nat Tile :=
  if s.dieGone (tileDie h) then .error 9
  else if tileNoName h then .error 3
  else if s.clusterGone (tileCluster h) then .error 9
  else
    let t := s.entry (tileKey h)
    if t.live && t.gen == h.setWidth 12 && t.asid == asid then .ok t else .error 3

/-- A tile that was live when its command started: still in its entry, or held for the command (R271, R273). -/
def State.heldTile (s : State) (r : TileRef) : Tile :=
  let t := s.entry r.1
  if t.live && t.gen == r.2 then t else ((s.eng.held.find? fun x => x.ref == r).map (·.tile)).getD t

/-! ### Geometry (R41, R44, R190, R267) -/

/-- The blocks of a row: 0 for an unscaled tile. -/
def Tile.blocks (t : Tile) : Nat := if t.block = 0 then 0 else (t.cols + blockLen t.block - 1) / blockLen t.block

/-- The bytes of a row. -/
def Tile.rowSize (t : Tile) : Nat := rowBytes t.fmt t.cols

/-- The number of granules of a tile (R267). -/
def Tile.size (t : Tile) : Nat := (t.rows * t.pitch + t.rows * t.blocks + 4095) / 4096

/-- An element's pattern. -/
def Tile.elem (t : Tile) (r c : Nat) : Nat := SMap.getD t.data (r * 256 + c) 0

/-- The scale byte of an element, as an integer; 0 in an unscaled tile (R43). -/
def Tile.scaleAt (t : Tile) (r c : Nat) : Int := if t.block = 0 then 0 else (SMap.getD t.scales (r * 256 + c / blockLen t.block) 0).toInt

/-- An element's exact value under its block scale (R43, R195). -/
def Tile.value (t : Tile) (r c : Nat) : FpVal := (fmtDecode t.fmt (t.elem r c)).scale (t.scaleAt r c)

/-- The first byte of the elements from column c of a row, and the first byte after the n elements. -/
def Tile.span (t : Tile) (r c n : Nat) : Nat × Nat :=
  if t.fmt = 10 then (r * t.pitch + 3 * (c / 4), r * t.pitch + 3 * ((c + n + 3) / 4))
  else (r * t.pitch + c * fmtBytes t.fmt, r * t.pitch + (c + n) * fmtBytes t.fmt)

/-- The bytes of a row's part of the scale plane. -/
def Tile.scaleSpan (t : Tile) (r : Nat) : Nat × Nat := (t.rows * t.pitch + r * t.blocks, t.rows * t.pitch + (r + 1) * t.blocks)

/-- Whether bytes of a tile are uncorrectable (R391). -/
def Tile.badIn (t : Tile) (x : Nat × Nat) : Bool := t.bad.any fun u => decide (64 * u < x.2) && decide (x.1 < 64 * u + 64)

/-- Whether n elements of a row from column c, with their scales, hold uncorrectable data. -/
def Tile.badElems (t : Tile) (r c n : Nat) : Bool := t.badIn (t.span r c n) || (t.block != 0 && t.badIn (t.scaleSpan r))

/-- Whether a row does. -/
def Tile.badRow (t : Tile) (r : Nat) : Bool := t.badElems r 0 t.cols

/-- Whether the tile does. -/
def Tile.badAny (t : Tile) : Bool := !t.bad.isEmpty && (List.range t.rows).any t.badRow

/-- A write that covers the whole of a unit clears its poison (R391): the units inside the given bytes. -/
def Tile.clearBad (t : Tile) (x : Nat × Nat) : Tile :=
  { t with bad := t.bad.filter fun u => !(decide (x.1 ≤ 64 * u) && decide (64 * u + 64 ≤ x.2)) }

/-- A tile after elements are written; a row written in full clears its whole units. -/
def Tile.putElems (t : Tile) (l : List (Nat × Nat)) : Tile :=
  let t' := { t with data := l.foldl (fun m x => SMap.put m x.1 x.2 0) t.data }
  if t.bad.isEmpty then t'
  else
    ((List.range t.rows).filter fun r => (List.range t.cols).all fun c => l.any fun x => x.1 == r * 256 + c).foldl
      (fun t r => t.clearBad (t.span r 0 t.cols)) t'

/-- A tile after scale bytes are written. -/
def Tile.putScales (t : Tile) (l : List (Nat × BitVec 8)) : Tile :=
  let t' := { t with scales := l.foldl (fun m x => SMap.put m x.1 x.2 0) t.scales }
  if t.bad.isEmpty then t'
  else if (List.range t.rows).all fun r => (List.range t.blocks).all fun b => l.any fun x => x.1 == r * 256 + b then
    t'.clearBad ((t.scaleSpan 0).1, (t.scaleSpan (t.rows - 1)).2)
  else t'

/-- The keys of all elements, row by row. -/
def Tile.cells (t : Tile) : List (Nat × Nat) := (List.range t.rows).flatMap fun r => (List.range t.cols).map fun c => (r, c)

/-! ### The shape word (R190) -/

/-- A tile of the shape that a shape word gives, zero in every element; none for a bad shape word (R190, R191). -/
def tileOfShape (w : Word) : Option Tile :=
  let x := w.toNat
  let fmt := x / 2 ^ 60
  let block := x / 2 ^ 57 % 8
  let p := x / 2 ^ 32 % 2 ^ 16
  let cols := x / 2 ^ 16 % 2 ^ 9
  let rows := x % 2 ^ 9
  let size := rowBytes fmt cols
  let pitch := if p = 0 then (size + 63) / 64 * 64 else p
  let t : Tile := { Tile.reset with live := true, fmt := fmt, block := block, pitch := pitch, cols := cols, rows := rows }
  let ok :=
    decide (fmt ≤ 11) && (block == 0 || fmtScalable fmt) && x / 2 ^ 48 % 2 ^ 9 == 0 && x / 2 ^ 25 % 2 ^ 7 == 0 && x / 2 ^ 9 % 2 ^ 7 == 0 &&
    decide (1 ≤ cols) && decide (cols ≤ 256) && decide (1 ≤ rows) && decide (rows ≤ 256) &&
    (p == 0 || (p % 64 == 0 && decide (size ≤ p) && decide (p ≤ 4096))) && decide (rows * pitch + rows * t.blocks ≤ 2 ^ 20)
  if ok then some t else none

/-- The shape word of a tile, with the pitch in use. -/
def Tile.shapeWord (t : Tile) : Word := w64 (t.fmt * 2 ^ 60 + t.block * 2 ^ 57 + t.pitch * 2 ^ 32 + t.cols * 2 ^ 16 + t.rows)

/-! ### Vat space (R267, R268, R271, R272) -/

/-- The granules of a cluster's Vat that are taken by the tiles that a test picks, those still held for running commands included. -/
def State.granulesIn (s : State) (c : Nat) (pick : Tile → Bool) : List Nat :=
  ((s.eng.tiles.filter fun x => x.1 / Config.handleEntries == c && x.2.live && pick x.2).flatMap fun x => x.2.granules) ++
  (s.eng.held.filter fun x => refCluster x.ref == c && pick x.tile).flatMap fun x => x.tile.granules

/-- The first n granules of a Vat that are not taken. -/
def freeGranules (taken : List Nat) (n : Nat) : List Nat := ((List.range Config.vatGranules).filter fun i => !taken.contains i).take n

/-- The FREE entries of a cluster's handle table, in increasing order. -/
def State.freeEntries (s : State) (c : Nat) : List Nat :=
  (List.range Config.handleEntries).filter fun i => !(s.entry (c * Config.handleEntries + i)).live

/-- The generation after a generation: 4,095 goes to 1 (R272). -/
def nextTileGen (g : BitVec 12) : BitVec 12 := if g = 4095 then 1 else g + 1

/-- A failure of a handle-table instruction (R191 to R193). -/
def tileFail (n : Nat) : Word := w64 (0xFFFFFFFF00000000 + n)

/-- TALLOC at its handle table (R191, R267, R268): the state and gd; none when there is no pick-th FREE entry to take, or
its handle would be that of a tile that a command still holds: which FREE entry is taken is open (R272, R273). -/
def State.allocTile (s : State) (c : Nat) (asid : BitVec 12) (shape : Word) (pick : Nat) : Option (State × Word) :=
  match tileOfShape shape with
  | none => some (s, tileFail 3)
  | some t =>
    let free := s.freeEntries c
    let quota := (s.asidRegs asid).quota.toNat
    if free.isEmpty then some (s, tileFail 1)
    else if Config.vatGranules < (s.granulesIn c fun _ => true).length + t.size ∨
        (quota ≠ 0 ∧ quota < (s.granulesIn c fun x => x.asid == asid).length + t.size) then some (s, tileFail 2)
    else
      match nth? free pick with
      | none => none
      | some i =>
        let key := c * Config.handleEntries + i
        let gen := nextTileGen (s.entry key).gen
        let own := freeGranules (s.granulesIn c fun _ => true) t.size
        if s.eng.held.any fun x => x.ref == (key, gen) then none
        else some (s.setEntryAt key { t with gen := gen, asid := asid, granules := own }, (handleOfRef (key, gen)).setWidth 64)

/-- A running command that has not ended names a tile. -/
def State.tileInUse (s : State) (r : TileRef) : Bool :=
  s.eng.running.any fun q => q.2.any fun x => !x.ended && (x.reads.contains r || x.writes.contains r)

/-- TFREE at its handle table (R192, R271): the entry is FREE at once; running commands keep the tile. -/
def State.freeTile (s : State) (asid : BitVec 12) (h : BitVec 32) : State × Word :=
  match s.liveTile asid h with
  | .error 9 => (s, tileFail 4)
  | .error _ => (s, tileFail 1)
  | .ok t =>
    let r := tileRef h
    let s := if s.tileInUse r then { s with eng := { s.eng with held := s.eng.held ++ [{ ref := r, tile := t }] } } else s
    (s.setEntryAt r.1 { Tile.reset with gen := t.gen }, 0)

/-- TINFO at its handle table (R193). -/
def State.tileInfo (s : State) (asid : BitVec 12) (h : BitVec 32) : Word :=
  match s.liveTile asid h with
  | .error 9 => tileFail 4
  | .error _ => tileFail 1
  | .ok t => t.shapeWord

/-- Freed tiles that no running command names any more give up their granules (R271). -/
def State.dropHeld (s : State) : State := { s with eng := { s.eng with held := s.eng.held.filter fun x => s.tileInUse x.ref } }

/-! ### The instructions (R191 to R193) -/

/-- The head of an engine instruction: profile E1, class W. -/
def headEngine (i : Instr) (g : Guard) (names takes : BitVec 8) : Head := { headWait i g names takes with profile := .e1 }

/-- A request leaves for a handle table, and the context waits for its answer with kind 3. -/
def askTable (t : State) (key : Nat) (l : Line) (what : HandleWhat) (die d : Nat) : Out :=
  let r : HandleReq := { what := what, asid := l.c.asid, d := d, line := key, seq := t.sched.seq }
  waitPast ({ t with fl := { t.fl with handles := t.fl.handles ++ [r] } }.nextSeq) key (l.touch (dieBit die)) 3 0 0

/-- TALLOC gd, ga, gb (R191). -/
def execTalloc (g : Guard) (d : Reg) (a b : Src) (s : State) : Out :=
  let h := headEngine (.talloc g d a b) g (names3 d a b) (takes2 a b)
  issue h s fun t key l0 l =>
    let v := l0.c.src b
    let own := v == BitVec.allOnes 64
    if !own && decide (192 ≤ v.toNat) then trapOut h t key l0 0x07 v
    else
      let c := if own then l0.c.here else v.toNat
      askTable t key l (.alloc (l0.c.src a) c) (dieOf c) d.val

/-- TFREE gd, ga (R192). DESIGN CHOICE (log entry 50): the handle is ga[31:0], and ga[63:32] is not looked at. -/
def execTfree (g : Guard) (d : Reg) (a : Src) (s : State) : Out :=
  issue (headEngine (.tfree g d a) g (names2 d a) a.takeMask) s fun t key l0 l =>
    let h : BitVec 32 := (l0.c.src a).setWidth 32
    askTable t key l (.release h) (tileDie h) d.val

/-- TINFO gd, ga (R193). DESIGN CHOICE (log entry 50): the handle is ga[31:0], and ga[63:32] is not looked at. -/
def execTinfo (g : Guard) (d : Reg) (a : Src) (s : State) : Out :=
  issue (headEngine (.tinfo g d a) g (names2 d a) a.takeMask) s fun t key l0 l =>
    let h : BitVec 32 := (l0.c.src a).setWidth 32
    askTable t key l (.info h) (tileDie h) d.val

/-- The cluster whose table a request addresses. -/
def HandleWhat.cluster : HandleWhat → Nat
  | .alloc _ c => c
  | .release h => tileDie h * 48 + tileCluster h % 48
  | .info h => tileDie h * 48 + tileCluster h % 48

/-- A request at its handle table: none when the pick names no FREE entry. -/
def State.tableAct (s : State) (r : HandleReq) (pick : Nat) : Option (State × Word) :=
  match r.what with
  | .alloc w c => if s.clusterGone c then some (s, tileFail 4) else s.allocTile c r.asid w pick
  | .release h => some (s.freeTile r.asid h)
  | .info h => some (s, s.tileInfo r.asid h)

/-- HANDLE_TABLE_REQUEST (R191 to R193, R272, R397): the k-th TALLOC, TFREE or TINFO is applied at its table; a TALLOC takes the
pick-th FREE entry. -/
def execHandleTableRequest (k pick : Nat) (s : State) : Out :=
  match nth? s.fl.handles k with
  | none => notNow "HANDLE_TABLE_REQUEST"
  | some r =>
    if s.clusterGone r.what.cluster || s.isReady (dieOf r.what.cluster) 4 then
      match ({ s with fl := { s.fl with handles := removeAt k s.fl.handles } }.seenBy r.seq).tableAct r pick with
      | none => notNow "HANDLE_TABLE_REQUEST"
      | some (t, v) => .next ((t.withDies s).answer r.line r.d v)
    else notNow "HANDLE_TABLE_REQUEST"

end Sys2Proof.Machine
end

