-- ==== Sys2Proof/Machine/Queues.lean ====
section
/-! DEFINITION. Engine queues: posting and acceptance (R179 to R183), the start of a command with its checks (R185, R187, R188, R194,
R276, R278), and the delivery of completions (R184, R189, R283). -/

namespace Sys2Proof

/-- The scope CSC of a command (R72, R78). -/
def CmdArgs.scope (c : CmdArgs) : Scope :=
  match c.csc.toNat with
  | 0 => .ctx
  | 1 => .cl
  | 2 => .die
  | 3 => .pkg
  | _ => .sys

/-- The OPS field of n bits from bit i. -/
def CmdArgs.opsBits (c : CmdArgs) (i n : Nat) : Nat := c.ops.toNat / 2 ^ i % 2 ^ n

end Sys2Proof

namespace Sys2Proof.Machine

/-! ### What a command word names (R78, R181, R194) -/

/-- How a command uses a handle field (R194). -/
inductive HandleUse where
  | unused
  /-- Data that names no tile. -/
  | data
  /-- A tile of any cluster. -/
  | any
  /-- A tile of the home cluster. -/
  | home
  /-- A tile of any cluster, or 0 for none. -/
  | orNone
  deriving DecidableEq, Repr

/-- The opcode of a command word. -/
def copOf (w : BitVec 256) : Nat := (w.extractLsb' 248 8).toNat

/-- The uses of HA, HB and HC (R194). -/
def usesOf (cop : Nat) : HandleUse × HandleUse × HandleUse :=
  match cop with
  | 0x01 => (.data, .data, .any)
  | 0x02 => (.any, .data, .data)
  | 0x03 => (.any, .unused, .any)
  | 0x04 => (.any, .any, .any)
  | 0x05 => (.any, .any, .any)
  | 0x06 => (.unused, .unused, .any)
  | 0x07 => (.any, .unused, .any)
  | 0x08 => (.any, .orNone, .orNone)
  | 0x09 => (.any, .data, .unused)
  | 0x0A => (.any, .unused, .unused)
  | 0x20 => (.home, .home, .home)
  | 0x21 => (.unused, .unused, .any)
  | 0x40 => (.home, .orNone, .home)
  | 0x41 => (.home, .unused, .home)
  | 0x42 => (.home, .home, .home)
  | 0x43 => (.home, .home, .home)
  | 0x44 => (.home, .home, .home)
  | 0x45 => (.home, .home, .home)
  | 0x46 => (.home, .unused, .home)
  | 0x47 => (.home, .unused, .home)
  | 0x48 => (.home, .unused, .home)
  | 0x49 => (.home, .unused, .home)
  | _ => (.unused, .unused, .unused)

/-- The bits of OPS that a command uses (R194, R199). -/
def opsMask (cop : Nat) : Nat :=
  match cop with
  | 0x01 => 2 ^ 73 - 1
  | 0x02 => 2 ^ 73 - 1
  | 0x06 => 2 ^ 72 - 1
  | 0x08 => 2 ^ 80 - 1 - 7 * 2 ^ 4
  | 0x09 => 2 ^ 57 - 1 + 255 * 2 ^ 72
  | 0x0A => 2 ^ 34 - 1
  | 0x20 => 2 ^ 66 - 1
  | 0x21 => 2 ^ 80 - 1
  | 0x40 => 2 ^ 32 - 1
  | 0x42 => 3
  | 0x43 => 3
  | 0x44 => 3
  | 0x45 => 3
  | 0x46 => 2 ^ 64 - 1
  | 0x47 => 15 + (2 ^ 32 - 1) * 2 ^ 32
  | 0x48 => 3
  | 0x49 => 2 ^ 32 - 1
  | _ => 0

/-- The queue of an opcode (R79): 0 MQ, 1 CQ, 2 XQ. -/
def queueOfCop (cop : Nat) : Nat := if cop < 0x20 then 1 else if cop < 0x40 then 0 else 2

/-- The queue's name in DIE and READY_MAP terms: the bit of the function that it needs (R397). -/
def queueReadyBit (q : Nat) : Nat := if q = 0 then 5 else 4

/-- POOL and ROWADD are homed at the owner that OPS names. -/
def ownerCop (cop : Nat) : Bool := cop == 0x08 || cop == 0x09

/-- The home handle (R181). -/
def homeHandle (cop : Nat) (c : CmdArgs) : BitVec 32 := if cop = 0x02 ∨ cop = 0x0A then c.ha else c.hc

/-- The owner field of OPS. -/
def ownerOf (c : CmdArgs) : Nat := (c.ops.extractLsb' 72 8).toNat

/-- What w1[31:0] of the completion names (R184). -/
def homeField (cop : Nat) (c : CmdArgs) : BitVec 32 := if ownerCop cop then BitVec.ofNat 32 (ownerOf c) else homeHandle cop c

/-- The tiles that a command names. -/
def namedTiles (cop : Nat) (c : CmdArgs) : List (BitVec 32) :=
  let (ua, ub, uc) := usesOf cop
  let pick := fun (u : HandleUse) (h : BitVec 32) => match u with
    | .any => [h]
    | .home => [h]
    | .orNone => if h = 0 then [] else [h]
    | .unused => []
    | .data => []
  pick ua c.ha ++ pick ub c.hb ++ pick uc c.hc

/-- The tiles that a command writes (R187, R199, R282). -/
def writtenTiles (cop : Nat) (c : CmdArgs) : List TileRef :=
  let nz := fun (h : BitVec 32) => if h = 0 then [] else [tileRef h]
  if cop = 0x02 ∨ cop = 0x09 ∨ cop = 0x0A then []
  else if cop = 0x40 then nz c.hb ++ nz c.hc
  else nz c.hc

/-- The dies that posting a command touches (R274). -/
def postDies (cop : Nat) (c : CmdArgs) : BitVec 4 :=
  let home := if ownerCop cop then (if ownerOf c < 192 then dieBit (dieOf (ownerOf c)) else 0) else dieBit (tileDie (homeHandle cop c))
  (namedTiles cop c).foldl (fun m h => m ||| dieBit (tileDie h)) home

/-! ### Posting (R179, R182, R183) -/

/-- The command word in a quadruple (R78). -/
def Ctx.quad (c : Ctx) (a : Reg) : BitVec 256 := c.reg (regPlus a 3) ++ c.reg (regPlus a 2) ++ c.reg (regPlus a 1) ++ c.reg a

/-- The posted copy: REL forced by POST.rel (R179), CKIND 0 for POSTW (R183). -/
def postedCopy (w : BitVec 256) (rel wait : Bool) : BitVec 256 :=
  let w := if rel then w ||| (1#256 <<< 247) else w
  if wait then w &&& ~~~(3#256 <<< 244) else w

/-- A command takes an entry of the send buffer; a release stamps its time (R305). -/
def State.pushPost (s : State) (key : Nat) (l0 l : Line) (w : BitVec 256) (d : Nat) (wait : Bool) : State × Line :=
  let c := cmdArgsOf w
  let (l, time) := if c.rel then l.stamp s else (l, 0)
  let tags : List Tag :=
    if c.rel then [{ time := time, scope := c.scope, cluster := l0.c.here, auto := false, who := some (ctxName key l0), seq := s.sched.seq }] else []
  (s.pushSend l0.c.here (.post w d wait) (some key) l0.c.asid l0.at_ tags, l.touch (postDies (copOf w) c))

/-- POST[.rel] gd, quadruple la=n (R179). -/
def execPost (g : Guard) (la : BitVec 4) (rel : Bool) (d : Reg) (a : Src) (s : State) : Out :=
  let m := quadMask a.reg
  let h := { headLong (.post g la rel d a) g la (regMask d ||| m) (if a.take then m else 0) with profile := .e1 }
  issue h s fun t key l0 l =>
    if t.sendFree l0.c.here then
      let (t, l) := t.pushPost key l0 (l.pending (regMask d)) (postedCopy (l0.c.quad a.reg) rel false) d.val false
      .next (t.setLine key l)
    else idleTurn s key l0

/-- POSTW[.rel] gd, quadruple (R183). -/
def execPostw (g : Guard) (rel : Bool) (d : Reg) (a : Src) (s : State) : Out :=
  let m := quadMask a.reg
  let h := headEngine (.postw g rel d a) g (regMask d ||| m) (if a.take then m else 0)
  issue h s fun t key l0 l =>
    if t.sendFree l0.c.here then
      let (t, l) := t.pushPost key l0 l (postedCopy (l0.c.quad a.reg) rel true) d.val true
      waitPast t key l 3 0 0
    else idleTurn s key l0

/-! ### Completion (R184, R189, R283) -/

/-- Word w1 of a completion message (R184). -/
def CmdInfo.w1 (i : CmdInfo) : Word :=
  w64 (i.cop.toNat * 2 ^ 56 + i.status * 2 ^ 48 + i.flags.toNat * 2 ^ 40 + i.skim * 2 ^ 36 + i.home.toNat)

/-- Word w2 (R184). -/
def CmdInfo.w2 (i : CmdInfo) : Word := w64 (i.seq.toNat + i.cluster % 256 * 2 ^ 32)

/-- A completion is delivered from a cluster as CKIND selects, and an error without a message is recorded (R184, R283); the answer to a
POSTW goes to its context alone (R183). It is a release at CSC (R189, R295). -/
def State.deliverCompletion (s : State) (c : Nat) (e : QEntry) (i : CmdInfo) : State :=
  let time := maxTime (s.timeAt (dieOf c)) ((e.tag.map (·.time)).getD 0)
  let sc := (cmdArgsOf e.cmd).scope
  let tag : Tag := { time := time, scope := sc, cluster := c, auto := true, who := none, seq := 0 }
  match e.poster with
  | some (key, d) =>
    let place := match SMap.get? s.ctx.lines key with
      | some l => l.c.here
      | none => 0
    s.lineWrite key [(d, i.w1, BitVec.allOnes 64)] 0 none true (if tag.syncs sc place 0 then some tag else none)
  | none =>
    let s := if i.status ≠ 0 ∧ (i.ckind = 0 ∨ i.ckind = 2) then s.engineError i 0 0 (dieOf c) else s
    if i.ckind = 1 then
      s.pushSend c (.msg i.ctgt i.w0 i.w1 i.w2 (w64 (0xF3 * 2 ^ 56)) 4 (.completion i)) none e.asid 0 [tag]
    else if i.ckind = 2 then
      let addr := i.ctgt.extractLsb' 32 32
      let ev := nowEvent addr (i.ctgt.setWidth 32).toInt e.asid time
      let near := tag.syncs sc (addr.toNat / 2 ^ 30 * 48 + addr.toNat / 2 ^ 24 % 64) 0
      s.pushSend c (.event (if near then ev else { ev with rel := false, time := 0 }) (.completion i)) none e.asid 0 []
    else s

/-! ### Queues (R16, R180 to R182) -/

/-- A queue of a cluster: its commands that have not started. -/
def State.queue (s : State) (c q : Nat) : List QEntry := SMap.getD s.eng.queues (c * 3 + q) []

/-- Set a queue. -/
def State.setQueue (s : State) (c q : Nat) (l : List QEntry) : State :=
  { s with eng := { s.eng with queues := SMap.put s.eng.queues (c * 3 + q) l [] } }

/-- The commands of a queue that have started and whose completions have not been delivered, in the order of their starts. -/
def State.runs (s : State) (c q : Nat) : List Run := SMap.getD s.eng.running (c * 3 + q) []

/-- Set them. -/
def State.setRuns (s : State) (c q : Nat) (l : List Run) : State :=
  { s with eng := { s.eng with running := SMap.put s.eng.running (c * 3 + q) l [] } }

/-- Where a posted command goes (R181): a queue of its home, or nowhere with a status. DEDUCED (log entry 75): a die that is gone comes before a
local cluster that is none. -/
def State.homeOf (s : State) (w : BitVec 256) : Except Nat (Nat × Nat) :=
  let cop := copOf w
  let c := cmdArgsOf w
  if (commandOf cop c).isNone || !c.legal then .error 1
  else if ownerCop cop then
    if 192 ≤ ownerOf c then .error 3
    else if s.clusterGone (ownerOf c) then .error 9
    else .ok (ownerOf c, queueOfCop cop)
  else
    let h := homeHandle cop c
    if s.dieGone (tileDie h) then .error 9
    else if tileNoName h then .error 3
    else if s.clusterGone (tileCluster h) then .error 9
    else .ok (tileCluster h, queueOfCop cop)

/-- An earlier POST of the same context to the same queue that is not accepted (R182). -/
def State.earlierPost (s : State) (x e : SendEntry) (w : BitVec 256) : Bool :=
  x.line == e.line && (match x.what with
    | .post v _ _ => (match s.homeOf v, s.homeOf w with
      | .ok p, .ok q => p == q
      | _, _ => false)
    | _ => false)

/-- The acceptance status word (R180). -/
def acceptWord (queue home : Nat) (seq : BitVec 32) : Word := w64 (queue * 2 ^ 40 + home * 2 ^ 32 + seq.toNat)

/-- The poster learns that its command was accepted (R179); that of a POSTW goes on waiting. -/
def State.tellPoster (s : State) (e : SendEntry) (d : Nat) (wait : Bool) (v : Word) : State :=
  match e.line with
  | some key => if wait then s else s.lineWrite key [(d, v, BitVec.allOnes 64)] (regMask (regOf d)) none false none
  | none => s

/-- A command as a queue holds it. -/
def queuedAs (s : State) (e : SendEntry) (w : BitVec 256) (d : Nat) (wait : Bool) (seq : BitVec 32) : QEntry :=
  let l := e.line.bind fun key => SMap.get? s.ctx.lines key
  { id := s.sched.seq, seq := seq, cmd := w, asid := e.asid, poster := if wait then some (e.line.getD noLine, d) else none
    slot := match l with
      | some l => l.c.launch.setWidth 12
      | none => 0xFFF
    tag := e.tags.head?
    cancelled := e.void || (match l with
      | some l => l.cancelled
      | none => false) }

/-- What a completion reports of a command. -/
def infoOf (e : QEntry) (status : Nat) (flags : BitVec 8) (skim : Nat) (w0 : Word) (cluster queue : Nat) : CmdInfo :=
  let c := cmdArgsOf e.cmd
  let cop := copOf e.cmd
  { cop := BitVec.ofNat 8 cop, status := status, flags := flags, skim := skim, asid := e.asid, ckind := c.ckind, home := homeField cop c
    cluster := cluster, queue := queue, seq := e.seq, ctgt := c.ctgt, w0 := w0 }

/-- A command that is not queued completes at the posting cluster (R181). -/
def State.turnAway (s : State) (buf : Nat) (e : SendEntry) (w : BitVec 256) (d : Nat) (wait : Bool) (status : Nat) : State :=
  let q := queuedAs s e w d wait 0
  let s := s.freeEntry buf e.id
  let s := s.tellPoster e d wait (w64 (2 ^ 48 + 0xFFFF * 2 ^ 32))
  s.deliverCompletion buf q (infoOf q status 0 0 0 255 255)

/-- A command that reaches a queue with room enters it (R180). -/
def State.enqueue (s : State) (buf : Nat) (e : SendEntry) (w : BitVec 256) (d : Nat) (wait : Bool) (c q : Nat) : State :=
  let n := SMap.getD s.eng.accepted (c * 3 + q) 0
  let x := queuedAs s e w d wait n
  let s := { s with eng := { s.eng with accepted := SMap.set s.eng.accepted (c * 3 + q) (n + 1) } }
  let s := ((s.setQueue c q (s.queue c q ++ [x])).nextSeq).freeEntry buf e.id
  s.tellPoster e d wait (acceptWord q c n)

/-- A command may be offered to its home: it is not held back after a NACK, no earlier one of its context to the same queue waits (R182), and
with REL its poster's earlier writes have been performed (R189). -/
def State.mayPost (s : State) (l : List SendEntry) (k : Nat) (e : SendEntry) (w : BitVec 256) : Bool :=
  e.hold.isNone && !((l.take k).any fun x => s.earlierPost x e w) && !(e.tags.any fun t => t.scope != .ctx && s.tagOpen t)

/-- COMMAND_ACCEPT (R179 to R183): entry k of a send buffer, a command, is offered to its home queue; a full queue answers with a NACK.
A command that no queue takes completes at the posting cluster. With REL its poster's earlier writes come first (R189). -/
def execCommandAccept (buf k : Nat) (s : State) : Out :=
  match nth? (s.sendsOf buf) k with
  | none => notNow "COMMAND_ACCEPT"
  | some e =>
    match e.what with
    | .post w d wait =>
      if !s.mayPost (s.sendsOf buf) k e w then notNow "COMMAND_ACCEPT"
      else
        match (s.seenBy e.id).homeOf w with
        | .error status => .next (s.turnAway buf e w d wait status)
        | .ok (home, q) =>
          .next (if (s.queue home q).length + (s.runs home q).length < Config.queueEntries then s.enqueue buf e w d wait home q
                 else s.nack buf e.id)
    | _ => notNow "COMMAND_ACCEPT"

/-! ### The start of a command (R187, R188, R275, R276, R278) -/

/-- The C tile of the slice in an entry of a gang lane (R278). -/
def State.sliceTile (s : State) (x : LaneEntry) : Option TileRef :=
  ((s.runs x.home 0).find? fun r => r.e.id == x.cmd).bind fun r => r.gang.bind fun g => (nth? g.slices x.index).map (·.c)

/-- The entries of a gang lane. -/
def State.lane (s : State) (c : Nat) : List LaneEntry := SMap.getD s.eng.lanes c []

/-- Set them. -/
def State.setLane (s : State) (c : Nat) (l : List LaneEntry) : State := { s with eng := { s.eng with lanes := SMap.put s.eng.lanes c l [] } }

/-- A completion event of a queue that has not been acknowledged (R276). -/
def State.eventsOpen (s : State) (c q : Nat) : Bool :=
  (s.sendsOf c).any fun e => match e.what with
    | .event _ (.completion i) => i.cluster == c && i.queue == q
    | _ => false

/-- The tiles that a queued command names. -/
def QEntry.named (e : QEntry) : List TileRef := (namedTiles (copOf e.cmd) (cmdArgsOf e.cmd)).map tileRef

/-- A function of a die is up, or an operation toward the die ends for its loss and does not wait (R397). -/
def State.upOrGone (s : State) (die fn : Nat) : Bool := s.isReady die fn || s.dieGone die

/-- A slice that arrived in a gang lane before an ordinary command of the MQ was accepted, and whose C tile the command names (R278). -/
def State.sliceHolds (s : State) (x : LaneEntry) (e : QEntry) : Bool :=
  (match x.arrival with
   | some n => decide (n < e.id)
   | none => false) && copOf e.cmd != 0x21 &&
  (match s.sliceTile x with
   | some r => e.named.contains r
   | none => false)

/-- The head of a queue may start: its die runs the engine, and the dies of its tiles their Vats (R397), and bulk traffic reaches them
(R377); a handle that names no cluster is waited for nowhere (R28); no earlier command that writes a tile of it is still running; the queue is drained for a QBAR; and no slice that arrived before it
holds its C tile. -/
def State.mayStart (s : State) (c q : Nat) (e : QEntry) : Bool :=
  !s.clusterGone c && s.isReady (dieOf c) (queueReadyBit q) &&
  ((namedTiles (copOf e.cmd) (cmdArgsOf e.cmd)).all fun h =>
    tileNoName h || (s.upOrGone (tileDie h) 4 && s.reaches bulk (dieOf c) (tileDie h))) &&
  !((s.runs c q).any fun r => !r.ended && r.writes.any e.named.contains) &&
  (!(cmdArgsOf e.cmd).qbar || ((s.runs c q).isEmpty && !s.eventsOpen c q)) &&
  (q != 0 || !((s.lane c).any fun x => s.sliceHolds x e))

/-- What a command does from its start: its status and result word, what it will write, and what it begins. -/
structure Result where
  status : Nat
  flags : Nat
  skim : Nat
  w0 : Word
  effects : List Effect
  /-- Events of an EVSTREAM (R201). -/
  events : List Ev
  /-- The first pin event of a POOL or ROWADD (R366). -/
  pin : Option Ev
  bag : Option Bag
  gang : Option Gang
  /-- Further tiles that the command holds and writes. -/
  reads : List TileRef
  writes : List TileRef
  deriving DecidableEq, Repr

/-- The status with which a command says that it needs a function of a die that is not up yet, and waits for it (R397). No completion
carries it. -/
def notYet : Nat := 256

/-- A command that ends with a status and has done nothing. -/
def Result.fail (status : Nat) (w0 : Word) : Result :=
  { status := status, flags := 0, skim := 0, w0 := w0, effects := [], events := [], pin := none, bag := none, gang := none, reads := [], writes := [] }

/-- A command that succeeds with these writes. -/
def Result.done (effects : List Effect) : Result := { Result.fail 0 0 with effects := effects }

/-- A handle's check at the start (R187, R194): 2 is found first, 3 or 9 next, and 12 last. -/
def State.checkTile (s : State) (asid : BitVec 12) (u : HandleUse) (h : BitVec 32) : Except Nat Tile :=
  match u with
  | .any => s.liveTile asid h
  | .home => s.liveTile asid h
  | .orNone => if h = 0 then .ok Tile.reset else s.liveTile asid h
  | .unused => .ok Tile.reset
  | .data => .ok Tile.reset

/-- A tile that must be at the home is elsewhere. -/
def misplaced (c : Nat) (u : HandleUse) (h : BitVec 32) : Bool := u == .home && tileCluster h != c

/-- An unused field of the command word holds a value, or CTGT does with CKIND 0 (R78, R185, R194). -/
def reservedSet (e : QEntry) (cop : Nat) (c : CmdArgs) : Bool :=
  let (ua, ub, uc) := usesOf cop
  (ua == .unused && c.ha != 0) || (ub == .unused && c.hb != 0) || (uc == .unused && c.hc != 0) ||
    c.ops.toNat ^^^ (c.ops.toNat &&& opsMask cop) != 0 || (c.ckind == 0 && c.ctgt != 0 && e.poster.isNone)

/-- The checks that every command shares, in the order of R187, and then the command's own part. `bad` is a reserved value of OPS. -/
def State.resultOf (s : State) (cl : Nat) (e : QEntry) (c : CmdArgs) (bad : Bool)
    (body : State → Nat → QEntry → Tile → Tile → Tile → Result) : Result :=
  let cop := copOf e.cmd
  let (ua, ub, uc) := usesOf cop
  if e.cancelled then .fail 10 0
  else if reservedSet e cop c || bad then .fail 2 0
  else
    match s.checkTile e.asid ua c.ha, s.checkTile e.asid ub c.hb, s.checkTile e.asid uc c.hc with
    | .error n, _, _ => .fail n 0
    | _, .error n, _ => .fail n 0
    | _, _, .error n => .fail n 0
    | .ok ta, .ok tb, .ok tc =>
      if misplaced cl ua c.ha || misplaced cl ub c.hb || misplaced cl uc c.hc then .fail 12 0 else body s cl e ta tb tc

/-- Send an event of a running command. -/
def State.sendRunEvent (s : State) (c : Nat) (e : Ev) (src : EvSrc) : State := s.sendEvent c e src none

/-- A command begins to run: it holds its tiles until its end, one that meets a fault or uncorrectable data included, and sends what it
begins with. One that fails a check ends with nothing done (R187). -/
def State.begin (s : State) (c q : Nat) (e : QEntry) (args : CmdArgs) (r : Result) : State :=
  let cop := copOf e.cmd
  let live := r.status == 0 || r.status == 7 || r.status == 8 || r.bag.isSome
  let run : Run :=
    { e := e, start := s.sched.seq, info := infoOf e r.status (BitVec.ofNat 8 r.flags) r.skim r.w0 c q
      reads := if live then (namedTiles cop args).map tileRef ++ r.reads else []
      writes := if live then writtenTiles cop args ++ r.writes else []
      effects := r.effects, made := 0, waiting := r.events.length, good := 0, refused := 0, gang := r.gang, bag := r.bag, ended := false }
  let s := (s.setRuns c q (s.runs c q ++ [run])).nextSeq
  let s := r.events.foldl (fun t x => t.sendRunEvent c x (.stream c e.id)) s
  match r.pin with
  | some x => s.sendRunEvent c x (.pin c e.id)
  | none => s

/-- The start of the command at the head of the queue at issue. -/
def startCommand (what : String) (c : CmdArgs) (bad : Bool) (body : State → Nat → QEntry → Tile → Tile → Tile → Result) (s : State) : Out :=
  match s.sched.cmd with
  | none => .refused .noCommand
  | some (cl, q) =>
    match s.queue cl q with
    | [] => .refused .noCommand
    | e :: rest =>
      let t := { s with sched := { s.sched with cmd := none } }.setQueue cl q rest
      let r := t.resultOf cl e c bad body
      if s.mayStart cl q e ∧ r.status ≠ notYet then .next ((t.begin cl q e c r).cancelProgress) else notNow what

/-! ### Memory as an engine reaches it (R196, R274) -/

/-- The memory of the home dies of some bytes is up, their slices and their HBM stacks, or a CXL port for host memory (R397), and bulk traffic of a die
reaches it (R377). -/
def State.memoryUp (s : State) (die : Nat) (pas : List Nat) : Bool := pas.all fun pa => match s.homeDie pa with
  | some d => s.upOrGone d 0 && s.upOrGone d 1 && s.reaches bulk die d
  | none => s.portUp 0 || s.portUp 1

/-- Bytes that a command reads at its home: or its status and result word (R185). -/
def State.engRead (s : State) (c : Nat) (asid : BitVec 12) (va n : Nat) : Except (Nat × Word) (List Byte) :=
  match s.transBytes c asid 0 .engine .read (va % 2 ^ 57) n with
  | .error (_, x) => .error (7, w64 x)
  | .ok (pas, swc) =>
    if s.memoryUp (dieOf c) pas then
      match s.firstBad (dieOf c) swc pas with
      | some i => .error (8, w64 ((va + i) % 2 ^ 57))
      | none => .ok (s.seenBytes (dieOf c) swc pas)
    else .error (notYet, 0)

/-- A write that a command will make at its home: or its status and result word. -/
def State.engWrite (s : State) (c : Nat) (asid : BitVec 12) (va : Nat) (bytes : List Byte) : Except (Nat × Word) Effect :=
  match s.transBytes c asid 0 .engine .write (va % 2 ^ 57) bytes.length with
  | .error (_, x) => .error (7, w64 x)
  | .ok (pas, swc) => if s.memoryUp (dieOf c) pas then .ok (.mem swc pas bytes) else .error (notYet, 0)

/-- A poisoned tile ends a command with its handle (R185). -/
def poisoned (h : BitVec 32) : Result := .fail 8 (h.setWidth 64)

end Sys2Proof.Machine
end

