-- ==== Sys2Proof/Machine/Copy.lean ====
section
/-! DEFINITION. The commands of the copy engine but for POOL and ROWADD (R196 to R198, R201): each is checked and computed at its
start; its writes are made at its end, rows before a fault included (R187). -/

namespace Sys2Proof.Machine

/-! ### Rows of tiles as bytes (R41, R44, R190) -/

/-- The bytes of a row of a tile, its pad elements zero. -/
def Tile.rowBytes (t : Tile) (r : Nat) : List Byte :=
  if t.fmt = 10 then
    (List.range ((t.cols + 3) / 4)).flatMap fun g =>
      leBytes 3 (((List.range 4).map fun j => if 4 * g + j < t.cols then t.elem r (4 * g + j) * 2 ^ (6 * j) else 0).sum)
  else (List.range t.cols).flatMap fun c => leBytes (fmtBytes t.fmt) (t.elem r c)

/-- The elements of a row from its bytes. -/
def Tile.rowOfBytes (t : Tile) (r : Nat) (l : List Byte) : List (Nat × Nat) :=
  (List.range t.cols).map fun c =>
    (r * 256 + c,
      if t.fmt = 10 then leNat ((l.drop (3 * (c / 4))).take 3) / 2 ^ (6 * (c % 4)) % 64
      else leNat ((l.drop (c * fmtBytes t.fmt)).take (fmtBytes t.fmt)))

/-- The scale bytes of a row. -/
def Tile.rowScales (t : Tile) (r : Nat) : List (BitVec 8) := (List.range t.blocks).map fun b => SMap.getD t.scales (r * 256 + b) 0

/-- Scale bytes as the scales of a row. -/
def scalesOfRow (r : Nat) (l : List (BitVec 8)) : List (Nat × BitVec 8) := (List.range l.length).zip l |>.map fun x => (r * 256 + x.1, x.2)

/-- A row of a tile as elements of another row. -/
def Tile.rowAs (t : Tile) (r i : Nat) : List (Nat × Nat) := (List.range t.cols).map fun c => (i * 256 + c, t.elem r c)

/-! ### Commands that write a tile row by row (R187) -/

/-- What one row of a command writes, and the flags that it sets. -/
structure RowWrite where
  elems : List (Nat × Nat)
  scales : List (Nat × BitVec 8)
  flags : Nat
  deriving DecidableEq, Repr

/-- The rows in order, each from the destination as the earlier ones left it, up to the first that fails. -/
def tileRows (ref : TileRef) (f : Tile → Nat → Except (Nat × Word) RowWrite) : List Nat → Tile → List Effect → Nat → Result
  | [], _, acc, fl => { Result.done acc with flags := fl }
  | r :: rs, t, acc, fl =>
    match f t r with
    | .error (st, w0) => { Result.fail st w0 with effects := acc, flags := fl }
    | .ok w =>
      let es := (if w.elems.isEmpty then [] else [Effect.elems ref w.elems]) ++ (if w.scales.isEmpty then [] else [Effect.scales ref w.scales])
      tileRows ref f rs ((t.putElems w.elems).putScales w.scales) (acc ++ es) (fl ||| w.flags)

/-- The poison of a tile as a row's failure. -/
def badTile (h : BitVec 32) : Except (Nat × Word) RowWrite := .error (8, h.setWidth 64)

/-! ### TLOAD, TSTORE (R196) -/

/-- A fat pointer of two handle fields. -/
def fatPtr (lo hi : BitVec 32) : Word := hi ++ lo

/-- The address of the memory row of tile row r. -/
def memRow (c : CmdArgs) (p : Word) (r : Nat) : Nat :=
  let i := c.opsBits 64 8 + 1
  (((p.toNat % 2 ^ 57 : Nat) : Int) + (r % i : Nat) * bitsInt 32 (c.opsBits 0 32) + (r / i : Nat) * bitsInt 32 (c.opsBits 32 32)) % (2 ^ 57 : Int)
    |>.toNat

/-- SCL. -/
def sclBit (c : CmdArgs) : Bool := c.ops.getLsbD 72

/-- The checks of a transfer (R48, R187, R196): 4, 5, 6. -/
def transferBad (c : CmdArgs) (p : Word) (t : Tile) : Option Nat :=
  let pf := p.toNat / 2 ^ 60
  let pb := p.toNat / 2 ^ 57 % 8
  let scl := sclBit c
  let size := if scl || pf == 10 then 1 else fmtBytes pf
  if 12 ≤ pf ∨ (pb ≠ 0 ∧ !fmtScalable pf) ∨ (pf ≠ 0 ∧ (pf ≠ t.fmt ∨ pb ≠ t.block)) ∨ (scl ∧ t.block = 0) then some 4
  else if p.toNat % 2 ^ 57 % size ≠ 0 ∨ c.opsBits 0 32 % size ≠ 0 ∨ c.opsBits 32 32 % size ≠ 0 then some 5
  else if t.rows % (c.opsBits 64 8 + 1) ≠ 0 then some 6
  else none

/-- One row of a TLOAD. -/
def loadRow (s : State) (cl : Nat) (asid : BitVec 12) (c : CmdArgs) (p : Word) (t : Tile) (r : Nat) : Except (Nat × Word) RowWrite :=
  let scl := sclBit c
  match s.engRead cl asid (memRow c p r) (if scl then t.blocks else t.rowSize) with
  | .error x => .error x
  | .ok l =>
    .ok (if scl then { elems := [], scales := scalesOfRow r l, flags := 0 } else { elems := t.rowOfBytes r l, scales := [], flags := 0 })

/-- TLOAD (R196). -/
def execTload (c : CmdArgs) (s : State) : Out :=
  startCommand "TLOAD" c false (fun s cl e _ _ t =>
    let p := fatPtr c.ha c.hb
    match transferBad c p t with
    | some n => .fail n 0
    | none => tileRows (tileRef c.hc) (fun t r => loadRow s cl e.asid c p t r) (List.range t.rows) t [] 0) s

/-- The rows of a TSTORE up to the first that fails. -/
def storeRows (s : State) (cl : Nat) (asid : BitVec 12) (c : CmdArgs) (p : Word) (t : Tile) : List Nat → List Effect → Result
  | [], acc => .done acc
  | r :: rs, acc =>
    let scl := sclBit c
    if (if scl then t.badIn (t.scaleSpan r) else t.badIn (t.span r 0 t.cols)) then { poisoned c.ha with effects := acc }
    else
      match s.engWrite cl asid (memRow c p r) (if scl then t.rowScales r else t.rowBytes r) with
      | .error (st, w0) => { Result.fail st w0 with effects := acc }
      | .ok x => storeRows s cl asid c p t rs (acc ++ [x])

/-- TSTORE (R196). -/
def execTstore (c : CmdArgs) (s : State) : Out :=
  startCommand "TSTORE" c false (fun s cl e t _ _ =>
    let p := fatPtr c.hb c.hc
    match transferBad c p t with
    | some n => .fail n 0
    | none => storeRows s cl e.asid c p t (List.range t.rows) []) s

/-! ### TCOPY, TGATHER, TSCADD (R197) -/

/-- A tile as a command sees it while it writes the destination: the destination itself, when it is the same tile. -/
def orDest (h hc : BitVec 32) (t dest : Tile) : Tile := if h = hc then dest else t

/-- TCOPY (R197). -/
def execTcopy (c : CmdArgs) (s : State) : Out :=
  startCommand "TCOPY" c false (fun _ _ _ a _ d =>
    if a.fmt ≠ d.fmt ∨ a.block ≠ d.block then .fail 4 0
    else if a.rows ≠ d.rows ∨ a.cols ≠ d.cols then .fail 6 0
    else
      tileRows (tileRef c.hc) (fun _ r =>
        if a.badRow r then badTile c.ha else .ok { elems := a.rowAs r r, scales := scalesOfRow r (a.rowScales r), flags := 0 })
        (List.range d.rows) d [] 0) s

/-- The index in column i of row 0 of an index tile. -/
def Tile.index (t : Tile) (i : Nat) : Int := bitsInt 32 (t.elem 0 i)

/-- One destination row of a TGATHER. -/
def gatherRow (c : CmdArgs) (a b d : Tile) (i : Nat) : Except (Nat × Word) RowWrite :=
  if b.badElems 0 i 1 then badTile c.hb
  else
    let x := b.index i
    if 0 ≤ x ∧ x < a.rows then
      if a.badRow x.toNat then badTile c.ha
      else .ok { elems := a.rowAs x.toNat i, scales := scalesOfRow i (a.rowScales x.toNat), flags := 0 }
    else
      .ok { elems := (List.range d.cols).map fun k => (i * 256 + k, 0), scales := (List.range d.blocks).map fun k => (i * 256 + k, 0), flags := 4 }

/-- TGATHER (R197). -/
def execTgather (c : CmdArgs) (s : State) : Out :=
  startCommand "TGATHER" c false (fun _ _ _ a b d =>
    if a.fmt ≠ d.fmt ∨ a.block ≠ d.block ∨ b.fmt ≠ 3 then .fail 4 0
    else if a.cols ≠ d.cols ∨ b.cols < d.rows then .fail 6 0
    else
      tileRows (tileRef c.hc) (fun t i => gatherRow c (orDest c.ha c.hc a t) (orDest c.hb c.hc b t) t i) (List.range d.rows) d [] 0) s

/-- The formats of a floating-point update tile (R197, R200). -/
def fmtUpdate (fmt : Nat) : Bool := fmt == 7 || fmt == 6 || fmt == 5

/-- One source row of a TSCADD. -/
def scatterRow (c : CmdArgs) (a b d : Tile) (i : Nat) : Except (Nat × Word) RowWrite :=
  if b.badElems 0 i 1 then badTile c.hb
  else
    let x := b.index i
    if 0 ≤ x ∧ x < d.rows then
      if a.badRow i then badTile c.ha
      else if d.badRow x.toNat then badTile c.hc
      else
        .ok { elems := (List.range d.cols).map fun k =>
                (x.toNat * 256 + k, fp32.round .rne (.sum .rne [d.value x.toNat k, a.value i k]))
              scales := [], flags := 0 }
    else .ok { elems := [], scales := [], flags := 4 }

/-- TSCADD (R52, R197). -/
def execTscadd (c : CmdArgs) (s : State) : Out :=
  startCommand "TSCADD" c false (fun _ _ _ a b d =>
    if !fmtUpdate a.fmt ∨ a.block ≠ 0 ∨ d.fmt ≠ 7 ∨ b.fmt ≠ 3 then .fail 4 0
    else if a.cols ≠ d.cols ∨ b.cols < a.rows then .fail 6 0
    else tileRows (tileRef c.hc) (fun t i => scatterRow c (orDest c.ha c.hc a t) b t i) (List.range a.rows) d [] 0) s

/-! ### TFILL, TTRANS (R198) -/

/-- TFILL (R198). -/
def execTfill (c : CmdArgs) (s : State) : Out :=
  startCommand "TFILL" c false (fun _ _ _ _ _ d =>
    let w := fmtBits d.fmt
    if (d.block = 0 ∧ c.opsBits 64 8 ≠ 0) ∨ 2 ^ w ≤ c.opsBits 0 64 then .fail 2 0
    else
      tileRows (tileRef c.hc) (fun t r =>
        .ok { elems := (List.range t.cols).map fun k => (r * 256 + k, c.opsBits 0 64)
              scales := (List.range t.blocks).map fun k => (r * 256 + k, BitVec.ofNat 8 (c.opsBits 64 8)), flags := 0 })
        (List.range d.rows) d [] 0) s

/-- TTRANS (R198). -/
def execTtrans (c : CmdArgs) (s : State) : Out :=
  startCommand "TTRANS" c false (fun _ _ _ a _ d =>
    if a.block ≠ 0 ∨ d.block ≠ 0 ∨ a.fmt ≠ d.fmt then .fail 4 0
    else if c.ha = c.hc ∨ d.rows ≠ a.cols ∨ d.cols ≠ a.rows then .fail 6 0
    else
      tileRows (tileRef c.hc) (fun _ j =>
        if (List.range a.rows).any fun r => a.badElems r j 1 then badTile c.ha
        else .ok { elems := (List.range a.rows).map fun r => (j * 256 + r, a.elem r j), scales := [], flags := 0 })
        (List.range d.rows) d [] 0) s

/-! ### EVSTREAM (R201) -/

/-- The events of the rows of a pair tile up to the first that holds uncorrectable data. -/
def streamRows (c : CmdArgs) (asid : BitVec 12) (time : Word) (t : Tile) : List Nat → List Ev → Result
  | [], acc => { Result.done [] with events := acc }
  | r :: rs, acc =>
    if t.badRow r then { poisoned c.ha with events := acc }
    else
      let ev : Ev := { addr := BitVec.ofNat 32 (t.elem r 0), value := BitVec.ofInt 48 (bitsInt 32 (t.elem r 1)), step := BitVec.ofNat 32 (c.opsBits 0 32)
                       asid := asid, arm := c.ops.getLsbD 32, rel := c.ops.getLsbD 33, count := 1, time := time }
      streamRows c asid time t rs (acc ++ [ev])

/-- EVSTREAM (R201): the events leave through the home cluster's send buffer; the command ends when each is answered. -/
def execEvstream (c : CmdArgs) (s : State) : Out :=
  startCommand "EVSTREAM" c false (fun s cl e t _ _ =>
    if t.fmt ≠ 3 then .fail 4 0
    else if t.cols ≠ 2 then .fail 6 0
    else streamRows c e.asid (maxTime (s.timeAt (dieOf cl)) ((e.tag.map (·.time)).getD 0)) t (List.range t.rows) []) s

end Sys2Proof.Machine
end

