-- ==== Sys2Proof/Machine/Matrix.lean ====
section
/-! DEFINITION. The matrix commands and gangs (R49 to R51, R202 to R204, R277 to R281). -/

namespace Sys2Proof.Machine

/-! ### One element and one block (R49 to R51, R202) -/

/-- What a block is made of: its tiles' handles, extents and origins. -/
structure Block where
  ha : BitVec 32
  hb : BitVec 32
  hc : BitVec 32
  m : Nat
  n : Nat
  k : Nat
  ar : Nat
  ac : Nat
  br : Nat
  bc : Nat
  cr : Nat
  cc : Nat
  zero : Bool
  deriving DecidableEq, Repr

/-- The products of chunk q of element (i, j). -/
def Block.products (x : Block) (a b : Tile) (i j q : Nat) : List FpVal :=
  (List.range 32).map fun t => (a.value (x.ar + i) (x.ac + 32 * q + t)).mul (b.value (x.br + 32 * q + t) (x.bc + j))

/-- MmaElement in FP32 (R49, R50). -/
def Block.floatElem (x : Block) (a b : Tile) (i j : Nat) (acc : Nat) : Nat :=
  (List.range (x.k / 32)).foldl (fun acc q =>
    fp32.round .rne (.sum .rne [fp32.decode acc, fp32.decode (fp32.round .rne (.sum .rne (x.products a b i j q)))])) acc

/-- MmaElement in INT32 (R51): the accumulator and whether it was clamped. -/
def Block.intElem (x : Block) (a b : Tile) (i j : Nat) (acc : Int) : Int × Bool :=
  (List.range (x.k / 32)).foldl (fun r q =>
    let v := r.1 + sumAt 0 (x.products a b i j q)
    let w := clampInt (-(2 ^ 31)) (2 ^ 31 - 1) v
    (w, r.2 || w != v)) (acc, false)

/-- The formats and the K rule of R202: 4, 6 or nothing. -/
def mmaFormats (a b c : Tile) (k : Nat) : Option Nat :=
  let both := fun (p : Nat → Bool) => p a.fmt && p b.fmt
  let half := fun f => f == 5 || f == 6
  let narrow := fun f => f == 9 || f == 10 || f == 1 || f == 11
  let small := fun f => f == 1 || f == 11
  let need : Option Nat :=
    if c.block ≠ 0 then none
    else if c.fmt = 7 then if both half || both (· == 7) then some 32 else if both narrow then some 64 else none
    else if c.fmt = 3 ∧ both small ∧ a.block = 0 ∧ b.block = 0 then some 64
    else none
  match need with
  | none => some 4
  | some n => if k % n = 0 then none else some 6

/-- Every origin plus extent lies inside its tile. -/
def Block.inside (x : Block) (a b c : Tile) : Bool :=
  decide (x.ar + x.m ≤ a.rows) && decide (x.ac + x.k ≤ a.cols) && decide (x.br + x.k ≤ b.rows) && decide (x.bc + x.n ≤ b.cols) &&
  decide (x.cr + x.m ≤ c.rows) && decide (x.cc + x.n ≤ c.cols)

/-- The handle of a tile whose part in a block holds uncorrectable data. -/
def Block.bad (x : Block) (a b c : Tile) : Option (BitVec 32) :=
  if (List.range x.m).any fun i => a.badElems (x.ar + i) x.ac x.k then some x.ha
  else if (List.range x.k).any fun i => b.badElems (x.br + i) x.bc x.n then some x.hb
  else if !x.zero && (List.range x.m).any fun i => c.badElems (x.cr + i) x.cc x.n then some x.hc
  else none

/-- A block computed whole: the elements of C, and the SAT flag (R186). -/
def Block.compute (x : Block) (a b c : Tile) : List (Nat × Nat) × Nat :=
  let cells := (List.range x.m).flatMap fun i => (List.range x.n).map fun j => (i, j)
  let at_ := fun (p : Nat × Nat) => (x.cr + p.1) * 256 + (x.cc + p.2)
  if c.fmt = 3 then
    let l := cells.map fun p =>
      (at_ p, x.intElem a b p.1 p.2 (if x.zero then 0 else bitsInt 32 (c.elem (x.cr + p.1) (x.cc + p.2))))
    (l.map fun y => (y.1, intBits 32 y.2.1), if l.any fun y => y.2.2 then 8 else 0)
  else
    (cells.map fun p => (at_ p, x.floatElem a b p.1 p.2 (if x.zero then 0 else c.elem (x.cr + p.1) (x.cc + p.2))), 0)

/-- The block of an MMA (R194). -/
def mmaBlock (c : CmdArgs) : Block :=
  { ha := c.ha, hb := c.hb, hc := c.hc, m := c.opsBits 0 7 + 1, n := c.opsBits 7 7 + 1, k := 32 * (c.opsBits 14 3 + 1)
    ar := c.opsBits 17 8, ac := c.opsBits 25 8, br := c.opsBits 33 8, bc := c.opsBits 41 8, cr := c.opsBits 49 8, cc := c.opsBits 57 8
    zero := c.ops.getLsbD 65 }

/-- HALF, under the power alarm (R204, R281). -/
def State.halfFlag (s : State) : Nat := if s.mgmt.alarm then 1 else 0

/-- MMA (R202): its mode is fixed at its start (R281). -/
def execMma (c : CmdArgs) (s : State) : Out :=
  startCommand "MMA" c false (fun s _ _ a b d =>
    let x := mmaBlock c
    match mmaFormats a b d x.k with
    | some n => .fail n 0
    | none =>
      if !x.inside a b d then .fail 6 0
      else match x.bad a b d with
        | some h => { poisoned h with flags := s.halfFlag }
        | none =>
          let (l, sat) := x.compute a b d
          { Result.done [.elems (tileRef c.hc) l] with flags := s.halfFlag + sat }) s

/-! ### The gang table (R203) -/

/-- The shape of a gang: rows, columns. -/
def gangRows (c : CmdArgs) : Nat := c.opsBits 57 2 + 1
/-- The columns of a gang. -/
def gangCols (c : CmdArgs) : Nat := c.opsBits 59 3 + 1

/-- Field f of entry i of the gang table. -/
def gangField (l : List Byte) (i f : Nat) : BitVec 32 := BitVec.ofNat 32 (leNat ((l.drop (16 * i + 4 * f)).take 4))

/-- The handles of a gang: A by row, B by column, C by member. -/
structure GangHandles where
  a : List (BitVec 32)
  b : List (BitVec 32)
  c : List (BitVec 32)
  deriving DecidableEq, Repr

/-- The handles that a gang table names. -/
def gangHandles (gr gc : Nat) (l : List Byte) : GangHandles :=
  { a := (List.range gr).map fun g => gangField l (g * gc) 0
    b := (List.range gc).map fun h => gangField l h 1
    c := (List.range (gr * gc)).map fun i => gangField l i 2 }

/-- The conditions of R203: a handle whose local field names no cluster is at none (R28). -/
def gangOk (hc : BitVec 32) (gr gc : Nat) (l : List Byte) : Bool :=
  let x := gangHandles gr gc l
  let named := fun (h : BitVec 32) => if tileNoName h then none else some (tileCluster h)
  let at_ := fun (i : Nat) => named (x.c.getD i 0)
  let ids := List.range (gr * gc)
  decide (gc ≤ 6) && ids.all (fun i => gangField l i 3 == 0 && (i % gc == 0 || gangField l i 0 == 0) && (i / gc == 0 || gangField l i 1 == 0)) &&
  ids.all (fun i => tileDie (x.c.getD i 0) == tileDie hc) && ids.all (fun i => ids.all fun j => i == j || tileCluster (x.c.getD i 0) != tileCluster (x.c.getD j 0)) &&
  x.c.getD 0 0 == hc &&
  (List.range gr).all (fun g => (List.range gc).any fun h => (at_ (g * gc + h)).isSome && at_ (g * gc + h) == named (x.a.getD g 0)) &&
  (List.range gc).all (fun h => (List.range gr).any fun g => (at_ (g * gc + h)).isSome && at_ (g * gc + h) == named (x.b.getD h 0))

/-- The live tiles of some handles, or the first failure. -/
def State.liveTiles (s : State) (asid : BitVec 12) : List (BitVec 32) → Except Nat (List Tile)
  | [] => .ok []
  | h :: l =>
    match s.liveTile asid h, s.liveTiles asid l with
    | .error n, _ => .error n
    | _, .error n => .error n
    | .ok t, .ok ts => .ok (t :: ts)

/-- The block of a member: origins 0. -/
def gangBlock (c : CmdArgs) (ha hb hc : BitVec 32) : Block :=
  { ha := ha, hb := hb, hc := hc, m := c.opsBits 65 7 + 1, n := c.opsBits 72 7 + 1, k := 32 * (c.opsBits 62 3 + 1), ar := 0, ac := 0, br := 0
    bc := 0, cr := 0, cc := 0, zero := c.ops.getLsbD 79 }

/-- The first status among the members that their formats and shapes give: 4 before 6 (R187). -/
def gangShape (c : CmdArgs) (ta tb tc : List Tile) (gc : Nat) : Option Nat :=
  let each := (List.range tc.length).map fun i =>
    let a := ta.getD (i / gc) Tile.reset
    let b := tb.getD (i % gc) Tile.reset
    let d := tc.getD i Tile.reset
    let x := gangBlock c 0 0 0
    match mmaFormats a b d x.k with
    | some n => some n
    | none => if x.inside a b d then none else some 6
  if each.contains (some 4) then some 4 else if each.contains (some 6) then some 6 else none

/-- MMAG's own checks and its gang (R187, R203): the table's read, 11, then 3, 4 and 6 for the tiles that it names. -/
def State.gangStart (s : State) (cl : Nat) (asid : BitVec 12) (c : CmdArgs) : Result :=
  let va := c.opsBits 0 57
  let gr := gangRows c
  let gc := gangCols c
  if va % 16 ≠ 0 then .fail 5 0
  else match s.engRead cl asid va (16 * gr * gc) with
    | .error (n, w) => .fail n w
    | .ok l =>
      if !gangOk c.hc gr gc l then .fail 11 0
      else
        let x := gangHandles gr gc l
        match s.liveTiles asid x.a, s.liveTiles asid x.b, s.liveTiles asid x.c with
        | .error n, _, _ => .fail n 0
        | _, .error n, _ => .fail n 0
        | _, _, .error n => .fail n 0
        | .ok ta, .ok tb, .ok tc =>
          match gangShape c ta tb tc gc with
          | some n => .fail n 0
          | none =>
            let b := gangBlock c 0 0 0
            let slice := fun (i : Nat) =>
              ({ cluster := tileCluster (x.c.getD i 0), a := tileRef (x.a.getD (i / gc) 0), b := tileRef (x.b.getD (i % gc) 0)
                 c := tileRef (x.c.getD i 0), phase := .waits, status := 0, w0 := 0, flags := 0 } : Slice)
            { Result.done [] with
              gang := some { ticket := none, rows := gr, cols := gc, m := b.m, n := b.n, k := b.k, zero := b.zero
                             slices := (List.range (gr * gc)).map slice, aCast := [], bCast := [] }
              reads := (x.a ++ x.b).map tileRef, writes := x.c.map tileRef }

/-- A request to a gang sequencer, in the order of the requests; those of one fabric cycle by home cluster (R277). -/
def addRequest (x : Nat × Nat × Nat) : List (Nat × Nat × Nat) → List (Nat × Nat × Nat)
  | [] => [x]
  | y :: l => if y.1 = x.1 ∧ x.2.1 < y.2.1 then x :: y :: l else y :: addRequest x l

/-- A die's gang sequencer. -/
def State.sequencer (s : State) (d : Nat) : Sequencer := if h : d < 4 then s.eng.seqs[d] else Sequencer.reset

/-- Set a die's gang sequencer. -/
def State.setSequencer (s : State) (d : Nat) (q : Sequencer) : State :=
  { s with eng := { s.eng with seqs := if h : d < 4 then s.eng.seqs.set d q h else s.eng.seqs } }

/-- The gang of a command that has just started asks for its ticket. -/
def State.askTicket (s : State) : State → State := fun t =>
  match s.sched.cmd with
  | none => t
  | some (c, q) =>
    match (t.runs c q).getLast? with
    | some r =>
      if r.gang.isSome then
        let d := dieOf c
        let x := t.sequencer d
        t.setSequencer d { x with requests := addRequest (s.sched.cycle, c, r.e.id) x.requests }
      else t
    | none => t

/-- MMAG (R203, R277): when its table passes, its home asks the die's gang sequencer for a ticket. -/
def execMmag (c : CmdArgs) (s : State) : Out :=
  match startCommand "MMAG" c false (fun s cl e _ _ _ => s.gangStart cl e.asid c) s with
  | .next t => .next (s.askTicket t)
  | .fault f => .fault f
  | .refused r => .refused r

/-! ### Tickets and slices (R277 to R280) -/

/-- Change the run of a command. -/
def State.setRun' (s : State) (c q id : Nat) (f : Run → Run) : State :=
  s.setRuns c q ((s.runs c q).map fun r => if r.e.id = id then f r else r)

/-- A gang with its slice i changed. -/
def Gang.setSlice (g : Gang) (i : Nat) (f : Slice → Slice) : Gang := { g with slices := modifyAt f i g.slices }

/-- The gang that a command runs. -/
def State.gangOf (s : State) (home id : Nat) : Option Gang := ((s.runs home 0).find? fun r => r.e.id == id).bind (·.gang)

/-- An entry of each member's lane is reserved for a ticket. -/
def State.reserve (s : State) (ticket home id : Nat) : Nat → List Slice → State
  | _, [] => s
  | i, x :: l =>
    let e : LaneEntry := { ticket := ticket, home := home, cmd := id, index := i, arrival := none }
    (s.setLane x.cluster (s.lane x.cluster ++ [e])).reserve ticket home id (i + 1) l

/-- GANG_TICKET_GRANT (R277): the sequencer grants its first request a ticket once every member's lane has an entry for it. The requests
of one fabric cycle are taken together, so one is granted in a later cycle than its own. -/
def execGangTicketGrant (die k : Nat) (s : State) : Out :=
  let q := s.sequencer die
  match q.requests with
  | [] => notNow "GANG_TICKET_GRANT"
  | (cycle, home, id) :: rest =>
    match s.gangOf home id with
    | none => notNow "GANG_TICKET_GRANT"
    | some g =>
      if k = 0 ∧ cycle < s.sched.cycle ∧ g.slices.all fun x => decide ((s.lane x.cluster).length < Config.laneEntries) then
        let s := s.setSequencer die { next := q.next + 1, requests := rest }
        let s := s.setRun' home 0 id fun r => { r with gang := some { g with ticket := some q.next } }
        .next (s.reserve q.next home id 0 g.slices)
      else notNow "GANG_TICKET_GRANT"

/-- The slice of a reserved lane entry arrives at its member (R277, R278). -/
def sliceArrives (c k : Nat) (s : State) : Out :=
  match nth? (s.lane c) k with
  | none => notNow "SLICE"
  | some e =>
    if e.arrival.isNone then .next (s.setLane c (modifyAt (fun x => { x with arrival := some s.sched.seq }) k (s.lane c))).nextSeq
    else notNow "SLICE"

/-- The tiles that a slice reads or writes at its member: its C tile, and those that it reads for a broadcast (R278, R279). -/
def Slice.tiles (x : Slice) : List TileRef :=
  x.c :: ((if refCluster x.a = x.cluster then [x.a] else []) ++ if refCluster x.b = x.cluster then [x.b] else [])

/-- A gang whose end comes after that of the slice in a lane entry: it has no ticket yet, or one that is not lower. -/
def Run.behind (r : Run) (e : LaneEntry) : Bool :=
  !r.ended && (match r.gang with
    | some g => (match g.ticket with
      | some t => decide (e.ticket ≤ t)
      | none => true)
    | none => false)

/-- A command in a member's MQ cannot start before the slice in a lane entry has ended: it waits for the gang of the slice or a later one
(R188), for the slice or a later one of the lane (R278), or for its die, which starts no more (R388). It does not hold the slice back
(log entry 34). -/
def State.afterSlice (s : State) (c : Nat) (e : LaneEntry) (y : QEntry) : Bool :=
  s.clusterGone c || ((s.runs c 0).any fun r => r.behind e && ((cmdArgsOf y.cmd).qbar || r.writes.any y.named.contains)) ||
  (s.lane c).any fun x => decide (e.ticket ≤ x.ticket) && s.sliceHolds x y

/-- An ordinary command that a member's MQ accepted before a slice arrived, and that writes a tile of the slice, has not ended (R278). The
commands of a queue start in order (R188). -/
def State.memberBusy (s : State) (c : Nat) (e : LaneEntry) (x : Slice) : Bool :=
  let before := fun (id : Nat) => match e.arrival with
    | some n => decide (id < n)
    | none => true
  (s.runs c 0).any (fun r => !r.ended && r.gang.isNone && before r.e.id && r.writes.any x.tiles.contains) ||
  ((s.queue c 0).takeWhile fun y => !s.afterSlice c e y).any fun y =>
    before y.id && copOf y.cmd != 0x21 && (writtenTiles (copOf y.cmd) (cmdArgsOf y.cmd)).any x.tiles.contains

/-- GANG_SLICE_START (R278 to R281): the first slice of a member's lane starts, on a draining die too (R388); it fixes its mode, and reads the A and B tiles that lie
at its cluster for their broadcast. -/
def execGangSliceStart (c k : Nat) (s : State) : Out :=
  match nth? (s.lane c) k with
  | none => notNow "GANG_SLICE_START"
  | some e =>
    match s.gangOf e.home e.cmd with
    | none => notNow "GANG_SLICE_START"
    | some g =>
      match nth? g.slices e.index with
      | none => notNow "GANG_SLICE_START"
      | some x =>
        if k = 0 ∧ x.phase = .waits ∧ e.arrival.isSome ∧ !s.memberBusy c e x then
          let row := e.index / g.cols
          let col := e.index % g.cols
          let g := if refCluster x.a = c then { g with aCast := SMap.set g.aCast row (s.heldTile x.a) } else g
          let g := if refCluster x.b = c then { g with bCast := SMap.set g.bCast col (s.heldTile x.b) } else g
          let g := g.setSlice e.index fun y => { y with phase := .started, flags := s.halfFlag }
          .next (s.setRun' e.home 0 e.cmd fun r => { r with gang := some g })
        else notNow "GANG_SLICE_START"

/-- Write elements of a tile, live or held. -/
def State.writeElems (s : State) (r : TileRef) (l : List (Nat × Nat)) : State :=
  let t := s.entry r.1
  if t.live && t.gen == r.2 then s.setEntryAt r.1 (t.putElems l)
  else { s with eng := { s.eng with held := s.eng.held.map fun x => if x.ref = r then { x with tile := x.tile.putElems l } else x } }

/-- Write scale bytes of a tile, live or held. -/
def State.writeScales (s : State) (r : TileRef) (l : List (Nat × BitVec 8)) : State :=
  let t := s.entry r.1
  if t.live && t.gen == r.2 then s.setEntryAt r.1 (t.putScales l)
  else { s with eng := { s.eng with held := s.eng.held.map fun x => if x.ref = r then { x with tile := x.tile.putScales l } else x } }

/-- The result of a slice from its operands: the state, and how the slice ends. -/
def State.runSlice (s : State) (g : Gang) (x : Slice) (a b : Tile) : State × Slice :=
  let y : Block :=
    { ha := handleOfRef x.a, hb := handleOfRef x.b, hc := handleOfRef x.c, m := g.m, n := g.n, k := g.k, ar := 0, ac := 0, br := 0, bc := 0
      cr := 0, cc := 0, zero := g.zero }
  let c := s.heldTile x.c
  match y.bad a b c with
  | some h => (s, { x with phase := .ended, status := 8, w0 := h.setWidth 64 })
  | none =>
    let (l, sat) := y.compute a b c
    (s.writeElems x.c l, { x with phase := .ended, flags := x.flags + sat })

/-- GANG_SLICE_END (R279, R280): a started slice that has both of its broadcasts computes and writes its block, or fails and writes
nothing. -/
def execGangSliceEnd (c k : Nat) (s : State) : Out :=
  match nth? (s.lane c) k with
  | none => notNow "GANG_SLICE_END"
  | some e =>
    match s.gangOf e.home e.cmd with
    | none => notNow "GANG_SLICE_END"
    | some g =>
      match nth? g.slices e.index, SMap.get? g.aCast (e.index / g.cols), SMap.get? g.bCast (e.index % g.cols) with
      | some x, some a, some b =>
        if x.phase = .started then
          let (t, y) := s.runSlice g x a b
          let t := t.setRun' e.home 0 e.cmd fun r => { r with gang := some (g.setSlice e.index fun _ => y) }
          .next (t.setLane c (removeAt k (t.lane c)))
        else notNow "GANG_SLICE_END"
      | _, _, _ => notNow "GANG_SLICE_END"

end Sys2Proof.Machine
end

