-- ==== Sys2Proof/Machine/Embedding.lean ====
section
/-! DEFINITION. Embedding tables: POOL and ROWADD, descriptors, version records, pins, migration tables and the row cache (R199, R200, R362
to R374). -/

namespace Sys2Proof.Machine

/-! ### Descriptors and version records (R362 to R365) -/

/-- A table descriptor. -/
structure Table where
  rows : Nat
  width : Nat
  fmt : Nat
  block : Nat
  owners : List Nat
  version : Nat
  deriving DecidableEq, Repr

/-- A word that holds an address with zero bits below bit i and from bit 57. -/
def addrWord (w i : Nat) : Bool := w % 2 ^ i == 0 && decide (w < 2 ^ 57)

/-- A descriptor from its 128 bytes; none when it has a reserved bit set or a field out of its range (R362, R365). -/
def tableOf (l : List Byte) : Option Table :=
  let w1 := wordAt l 1
  let width := w1 % 2 ^ 13
  let fmt := w1 / 2 ^ 16 % 16
  let block := w1 / 2 ^ 20 % 8
  let no := w1 / 2 ^ 24 % 64
  let owners := ((l.drop 0x40).take no).map BitVec.toNat
  let ok :=
    decide (1 ≤ wordAt l 0) && decide (wordAt l 0 < 2 ^ 31) && w1 / 2 ^ 13 % 8 == 0 && w1 / 2 ^ 23 % 2 == 0 && decide (w1 < 2 ^ 30) &&
    width % 16 == 0 && decide (16 ≤ width) && decide (width ≤ 4096) && [1, 5, 6, 7, 9, 10, 11].contains fmt && (block == 0 || fmtScalable fmt) &&
    decide (1 ≤ no) && addrWord (wordAt l 2) 7 && (List.range 5).all (fun k => wordAt l (3 + k) == 0) && owners.all (fun x => decide (x < 192)) &&
    (l.drop (0x40 + no)).all (· == 0)
  if ok then some { rows := wordAt l 0, width := width, fmt := fmt, block := block, owners := owners, version := wordAt l 2 } else none

/-- The bytes of a row's elements. -/
def Table.elemBytes (t : Table) : Nat := rowBytes t.fmt t.width

/-- The bytes of a row with its scales. -/
def Table.slotBytes (t : Table) : Nat := t.elemBytes + if t.block = 0 then 0 else (t.width + blockLen t.block - 1) / blockLen t.block

/-- The index of the owner of a row (R363). -/
def Table.ownerIndex (t : Table) (x : Nat) : Nat := x * 0x9E3779B1 % 2 ^ 32 % t.owners.length

/-- The owner of a row (R363). -/
def Table.owner (t : Table) (x : Nat) : Nat := t.owners.getD (t.ownerIndex x) 0

/-- A version record. -/
structure Version where
  shards : Nat
  pitch : Nat
  drain : BitVec 32
  moves : Nat
  nmove : Nat
  deriving DecidableEq, Repr

/-- A version record from its 128 bytes; none when it has a reserved bit set or a field out of its range (R364, R365). -/
def versionOf (t : Table) (l : List Byte) : Option Version :=
  let pitch := wordAt l 1
  let ok :=
    addrWord (wordAt l 0) 3 && decide (pitch < 2 ^ 16) && pitch % 64 == 0 && decide (t.slotBytes ≤ pitch) && decide (wordAt l 2 < 2 ^ 32) &&
    addrWord (wordAt l 3) 7 && decide (wordAt l 4 < 2 ^ 8) && (List.range 11).all fun k => wordAt l (5 + k) == 0
  if ok then some { shards := wordAt l 0, pitch := pitch, drain := BitVec.ofNat 32 (wordAt l 2), moves := wordAt l 3, nmove := wordAt l 4 }
  else none

/-- The descriptor address of a command. -/
def descOf (c : CmdArgs) (cop : Nat) : Nat := if cop = 0x08 then c.opsBits 7 50 * 128 else c.opsBits 0 57

/-! ### Pinning (R366) -/

/-- A pin event of a command: to the drain member, step now. -/
def pinEvent (asid : BitVec 12) (drain : BitVec 32) (v : Int) (rel : Bool) (time : Word) : Ev := { nowEvent drain v asid time with rel := rel }

/-- A bag that stops before it has a version of its own, and one that has to wait for a die (R397). -/
def Bag.stop (b : Bag) (x : Nat × Word) (v : Option Nat) : Bag := { b with phase := .stopped x.1 x.2 v }

/-- A bag that has to wait for a function of a die (R397). -/
def Bag.waits (b : Bag) : Bool := match b.phase with
  | .stopped st _ _ => st == notYet
  | _ => false

/-- What a command reads as an LD.acq at PKG scope at its home (R366): the bytes and the time that its floor takes; or a status and a result
word. A release that it meets and that is not complete holds it back (R295). -/
def State.engAcquire (s : State) (c : Nat) (asid : BitVec 12) (floor : Word) (va n : Nat) : Except (Nat × Word) (List Byte × Word) :=
  match s.engRead c asid va n with
  | .error x => .error x
  | .ok l =>
    let tags : List Tag := match s.transBytes c asid 0 .engine .read (va % 2 ^ 57) n with
      | .ok (pas, swc) => (s.tagsAt (dieOf c) swc pas).filter fun t => t.syncs .pkg c noLine
      | .error _ => []
    if tags.any s.tagOpen then .error (notYet, 0) else .ok (l, tags.foldl (fun f t => maxTime f (t.time + 1)) floor)

/-- The current-version word of a descriptor, read as an LD.acq; with the time acquired: or a status and a result word. -/
def State.currentVersion (s : State) (c : Nat) (e : QEntry) (floor : Word) : Except (Nat × Word) (Nat × Word) :=
  match s.engAcquire c e.asid floor (descOf (cmdArgsOf e.cmd) (copOf e.cmd) + 0x10) 8 with
  | .error x => .error x
  | .ok (l, f) => if addrWord (wordAt l 0) 7 then .ok (wordAt l 0, f) else .error (2, 0)

/-- Another pass of the loop of R366 with the version at an address: the bag, and the +1 to its drain member. -/
def State.pinPass (s : State) (c : Nat) (asid : BitVec 12) (t : Table) (b : Bag) (v : Nat) : Bag × Option Ev :=
  match s.engAcquire c asid b.floor v 128 with
  | .error x => (b.stop x none, none)
  | .ok (l, f) => match versionOf t l with
    | none => (b.stop (2, 0) none, none)
    | some r => ({ b with phase := .plus v, record := l, floor := f }, some (pinEvent asid r.drain 1 false 0))

/-- The current-version word is read again after the +1 to version v was accepted: the version is pinned, or the +1 is withdrawn; or the
next pass begins (R366). None where no read is due. -/
def State.pinRead (s : State) (c : Nat) (e : QEntry) (b : Bag) : Option (Bag × Option Ev) :=
  match tableOf b.desc, b.phase with
  | some t, .check v => some (match s.currentVersion c e b.floor with
    | .error x => (b.stop x (some v), none)
    | .ok (x, f) =>
      if x = v then ({ b with phase := .pinned v, floor := f }, none)
      else ({ b with phase := .minus, floor := f }, (versionOf t b.record).map fun r => pinEvent e.asid r.drain (-1) false 0))
  | some t, .again => some (match s.currentVersion c e b.floor with
    | .error x => (b.stop x none, none)
    | .ok (x, f) => s.pinPass c e.asid t { b with floor := f } x)
  | _, _ => none

/-- A bag after the answer to its pin event (R366): a refusal stops it. -/
def Bag.answered (b : Bag) (ok : Bool) : Bag :=
  match b.phase with
  | .plus v => if ok then { b with phase := .check v } else b.stop (3, 0) none
  | .minus => if ok then { b with phase := .again } else b.stop (3, 0) none
  | .check _ => b
  | .again => b
  | .pinned _ => b
  | .stopped _ _ _ => b

/-- A pin event of a running command has been answered. -/
def State.pinAnswered (s : State) (c id : Nat) (ok : Bool) : State :=
  s.setRun' c 1 id fun r => { r with bag := r.bag.map (·.answered ok) }

/-- An event of an EVSTREAM has been answered (R201). -/
def State.streamAnswered (s : State) (c id : Nat) (ok : Bool) : State :=
  s.setRun' c 1 id fun r =>
    { r with waiting := r.waiting - 1, good := r.good + (if ok then 1 else 0), refused := r.refused + if ok then 0 else 1 }

/-- The start of a POOL or ROWADD after its tiles: the descriptor, its shape check, the first version record (R187, R365). Its
current-version word is read as an LD.acq (R366). -/
def State.bagStart (s : State) (c : Nat) (e : QEntry) (shape : Table → Bool) (a b : List Nat) (aFmt : Nat) : Result :=
  match s.engRead c e.asid (descOf (cmdArgsOf e.cmd) (copOf e.cmd)) 128 with
  | .error (st, w) => .fail st w
  | .ok l =>
    match tableOf l with
    | none => .fail 2 0
    | some t =>
      if !shape t then .fail 6 0
      else
        let bag : Bag := { phase := .again, desc := l, record := [], a := a, b := b, aFmt := aFmt, floor := 0 }
        match s.pinRead c e bag with
        | some (bag, some ev) => { Result.done [] with bag := some bag, pin := some ev }
        | some ({ phase := .stopped st w _, .. }, none) => .fail st w
        | _ => .fail 2 0

/-- The first n elements of row 0 of a tile; none of them when they hold uncorrectable data. -/
def Tile.row0 (t : Tile) (n : Nat) : List Nat := if t.badElems 0 0 n then [] else (List.range n).map (t.elem 0)

/-- n of a POOL. -/
def bagSize (c : CmdArgs) : Nat := c.opsBits 57 8 + 1

/-- The column pair of a POOL in inbox form. -/
def columnPair (c : CmdArgs) : Nat := c.opsBits 0 4 * 2 ^ 7 + c.opsBits 65 7

/-- POOL (R199, R365, R366): it starts with its first pin event. -/
def execPool (c : CmdArgs) (s : State) : Out :=
  startCommand "POOL" c (c.hc == 0 && c.ckind != 1) (fun s cl e a b d =>
    let n := bagSize c
    if a.fmt ≠ 3 ∨ (c.hb ≠ 0 ∧ b.fmt ≠ 7) ∨ (c.hc ≠ 0 ∧ d.fmt ≠ 7) then .fail 4 0
    else if a.cols < n ∨ (c.hb ≠ 0 ∧ b.cols < n) then .fail 6 0
    else s.bagStart cl e (fun t => if c.hc = 0 then decide (2 * columnPair c + 1 < t.width) else d.cols == t.width)
      (a.row0 n) (if c.hb = 0 then [] else b.row0 n) 3) s

/-- ROWADD (R200, R365, R366): it starts with its first pin event. -/
def execRowadd (c : CmdArgs) (s : State) : Out :=
  startCommand "ROWADD" c false (fun s cl e a _ _ =>
    if !fmtUpdate a.fmt ∨ a.block ≠ 0 then .fail 4 0
    else if descOf c 0x09 % 128 ≠ 0 then .fail 5 0
    else s.bagStart cl e (fun t => a.cols == t.width && decide (c.hb.toNat < t.rows) && t.owner c.hb.toNat == cl) (a.row0 a.cols) [] a.fmt) s

/-! ### The row cache (R373) -/

/-- A die's row cache. -/
def State.rowCache (s : State) (d : Nat) : RowCache := if h : d < 4 then s.eng.rowCaches[d] else RowCache.reset

/-- Set a die's row cache. -/
def State.setRowCache (s : State) (d : Nat) (x : RowCache) : State :=
  { s with eng := { s.eng with rowCaches := if h : d < 4 then s.eng.rowCaches.set d x h else s.eng.rowCaches } }

/-- Every counter halved. -/
def RowCache.halve (x : RowCache) : RowCache := { x with rows := x.rows.map fun r => { r with counter := r.counter / 2 }, due := false }

/-- The lines of a slot at a physical address. -/
def rowLines (pa lines : Nat) : List Nat := (List.range lines).map fun i => pa / 128 + i

/-- How many of some lines lie in slice k of their die. -/
def inSlice (k : Nat) (l : List Nat) : Nat := (l.filter fun n => Config.homeSlice n % 64 == k).length

/-- The lines that the entries of a row cache hold. -/
def RowCache.held (x : RowCache) : List Nat := x.rows.flatMap fun r => rowLines r.pa r.lines

/-- A slice of the die in which some further lines do not all find a place: each has four ways (R18). -/
def RowCache.full (x : RowCache) (new : List Nat) : Option Nat :=
  if x.held.length + new.length ≤ Config.rowCacheLines then none
  else ((new.map fun n => Config.homeSlice n % 64).dedup).find? fun k => decide (Config.rowCacheLines < inSlice k x.held + inSlice k new)

/-- The entry with the lowest counter among those with a line in a slice, the least recently referenced of a tie. -/
def RowCache.victim (x : RowCache) (k : Nat) : Option Nat :=
  ((x.rows.filter fun r => inSlice k (rowLines r.pa r.lines) != 0).foldl (fun (r : Option RowEntry) y => match r with
    | none => some y
    | some z => if y.counter < z.counter ∨ (y.counter = z.counter ∧ y.last < z.last) then some y else some z) none).map (·.pa)

/-- Make room for some lines. -/
def RowCache.room (x : RowCache) (new : List Nat) : Nat → RowCache
  | 0 => x
  | n + 1 =>
    match (x.full new).bind x.victim with
    | none => x
    | some pa => RowCache.room { x with rows := x.rows.filter fun r => r.pa != pa } new n

/-- One reference to a row of so many bytes. -/
def RowCache.refer (x : RowCache) (pa bytes : Nat) : RowCache :=
  let x := if x.due then x.halve else x
  let x := { x with refs := x.refs + 1 }
  if x.rows.any fun r => r.pa == pa then
    { x with rows := x.rows.map fun r => if r.pa = pa then { r with counter := min 15 (r.counter + 1), last := x.refs } else r
             hits := x.hits + 1, due := (x.hits + 1) % 65536 == 0 }
  else
    let lines := (bytes + 127) / 128
    let x := x.room (rowLines pa lines) x.rows.length
    { x with rows := x.rows ++ [{ pa := pa, lines := lines, counter := 1, last := x.refs }] }

/-- The physical address of a slot in a COH page. -/
def State.slotPa (s : State) (c : Nat) (asid : BitVec 12) (va : Nat) : Option Nat :=
  (s.findPage c asid (va % 2 ^ 57)).bind fun p => if p.attr == .coh then some (p.pa + (va % 2 ^ 57 - p.va)) else none

/-- A POOL reads a row through the row cache of the row's die. -/
def State.referRow (s : State) (c : Nat) (asid : BitVec 12) (va bytes : Nat) : State :=
  match s.slotPa c asid va with
  | none => s
  | some pa => match s.homeDie pa with
    | none => s
    | some d => s.setRowCache d ((s.rowCache d).refer pa bytes)

/-- A slot left by a move loses its entry. -/
def State.dropRow (s : State) (c : Nat) (asid : BitVec 12) (va : Nat) : State :=
  match s.slotPa c asid va with
  | none => s
  | some pa => match s.homeDie pa with
    | none => s
    | some d => let x := s.rowCache d; s.setRowCache d { x with rows := x.rows.filter fun r => r.pa != pa }

/-- ROW_CACHE_HALVING (R373): the counters of a die are halved after each 65,536th hit, before its next reference. -/
def execRowCacheHalving (die : Nat) (s : State) : Out :=
  if (s.rowCache die).due then .next (s.setRowCache die (s.rowCache die).halve) else notNow "ROW_CACHE_HALVING"

/-! ### Row slots and moves (R364, R370 to R372) -/

/-- An entry of a migration table. -/
structure Move where
  row : Nat
  phase : Nat
  na : Nat
  deriving DecidableEq, Repr

/-- The entries of a migration table; none for a reserved bit or phase. -/
def movesOf (l : List Byte) (n : Nat) : Option (List Move) :=
  let at_ := fun (i : Nat) => (wordAt l (2 * i), wordAt l (2 * i + 1))
  if (List.range n).all fun i => decide ((at_ i).1 < 3 * 2 ^ 32) && addrWord (at_ i).2 6 then
    some ((List.range n).map fun i => { row := (at_ i).1 % 2 ^ 32, phase := (at_ i).1 / 2 ^ 32, na := (at_ i).2 })
  else none

/-- The pinned table as a command's row accesses use it. -/
structure Pinned where
  table : Table
  version : Version
  /-- Shard bases. -/
  shards : List Nat
  moves : List Move
  deriving DecidableEq, Repr

/-- The entry that moves a row: the first that names it with a nonzero phase (R371). -/
def Pinned.moveOf (p : Pinned) (x : Nat) : Option (Nat × Move) :=
  (List.range p.moves.length).zip p.moves |>.find? fun m => m.2.row == x && m.2.phase != 0

/-- The slot of a row (R364, R372). -/
def Pinned.slot (p : Pinned) (x : Nat) : Nat :=
  match p.moveOf x with
  | some (_, m) => if m.phase = 2 then m.na else (p.shards.getD (p.table.ownerIndex x) 0 + p.version.pitch * x) % 2 ^ 57
  | none => (p.shards.getD (p.table.ownerIndex x) 0 + p.version.pitch * x) % 2 ^ 57

/-- What a command reads of its version after the pin: the migration table, then the shard bases (R365, R372). -/
def State.pinnedTable (s : State) (c : Nat) (asid : BitVec 12) (t : Table) (v : Version) : Except (Nat × Word) Pinned :=
  let n := if v.moves = 0 then 0 else v.nmove
  match s.engRead c asid v.moves (16 * n) with
  | .error x => .error x
  | .ok l =>
    match movesOf l n with
    | none => .error (2, 0)
    | some m =>
      match s.engRead c asid v.shards (8 * t.owners.length) with
      | .error x => .error x
      | .ok sb => .ok { table := t, version := v, shards := (List.range t.owners.length).map (wordAt sb), moves := m }

/-- Perform a write of an engine at once. -/
def State.engPerform (s : State) (c : Nat) (swc : List Bool) (pas : List Nat) (bytes : List Byte) (tags : List Tag) : State :=
  let w := ((flagged pas swc).zip bytes).filter fun x => !s.homeGone x.1.1
  ((s.syncTable pas).performWrite (dieOf c) (w.map (·.1.2)) (w.map (·.1.1)) (w.map (·.2)) tags).servePushes s pas

/-- A write at a virtual address, performed at once, with the releases that it carries: or a status and a result word. -/
def State.engStore (s : State) (c : Nat) (asid : BitVec 12) (va : Nat) (bytes : List Byte) (tags : List Tag) : Except (Nat × Word) State :=
  match s.engWrite c asid va bytes with
  | .error x => .error x
  | .ok (.mem swc pas l) => .ok (s.engPerform c swc pas l tags)
  | .ok _ => .ok s

/-- The release at PKG scope with which a command at a cluster makes a write, at a time. -/
def pkgRelease (c : Nat) (time : Word) : Tag := { time := time, scope := .pkg, cluster := c, auto := false, who := none, seq := 0 }

/-- The requested moves of rows that the owner holds, in the order of the table (R372): the PHASE write is a release at PKG that carries
this time; a failure leaves its PHASE 1. -/
def State.makeMoves (s : State) (c : Nat) (asid : BitVec 12) (time : Word) (p : Pinned) : List Nat → State × Pinned × Option (Nat × Word)
  | [] => (s, p, none)
  | i :: rest =>
    match nth? p.moves i with
    | none => s.makeMoves c asid time p rest
    | some m =>
      if m.phase = 1 ∧ m.row < p.table.rows ∧ p.table.owner m.row = c ∧ (p.moveOf m.row).map (·.1) = some i then
        let old := p.slot m.row
        match s.engRead c asid old p.version.pitch with
        | .error x => (s, p, some x)
        | .ok l =>
          match s.engStore c asid m.na l [] with
          | .error x => (s, p, some x)
          | .ok t =>
            match t.engStore c asid (p.version.moves + 16 * i + 4) (leBytes 4 2) [pkgRelease c time] with
            | .error x => (t, p, some x)
            | .ok u => (u.dropRow c asid old).makeMoves c asid time { p with moves := modifyAt (fun m => { m with phase := 2 }) i p.moves } rest
      else s.makeMoves c asid time p rest

/-! ### Rows (R199, R200) -/

/-- The pattern of element k of a row's bytes. -/
def Table.pattern (t : Table) (l : List Byte) (k : Nat) : Nat :=
  if t.fmt = 10 then leNat ((l.drop (3 * (k / 4))).take 3) / 2 ^ (6 * (k % 4)) % 64
  else leNat ((l.drop (k * fmtBytes t.fmt)).take (fmtBytes t.fmt))

/-- The scale of element k of a row's bytes. -/
def Table.scale (t : Table) (l : List Byte) (k : Nat) : Int := if t.block = 0 then 0 else (l.getD (t.elemBytes + k / blockLen t.block) 0).toInt

/-- The exact value of element k of a row's bytes. -/
def Table.value (t : Table) (l : List Byte) (k : Nat) : FpVal := (fmtDecode t.fmt (t.pattern l k)).scale (t.scale l k)

/-- The element bytes of a row from its patterns. -/
def Table.bytesOf (t : Table) (l : List Nat) : List Byte :=
  if t.fmt = 10 then
    (List.range (t.width / 4)).flatMap fun g => leBytes 3 (((List.range 4).map fun j => l.getD (4 * g + j) 0 * 2 ^ (6 * j)).sum)
  else l.flatMap fun x => leBytes (fmtBytes t.fmt) x

/-- One entry of a bag added to the partial sums of the columns. -/
def poolAdd (t : Table) (cols : List Nat) (w : FpVal) (row : List Byte) (acc : List (Option Nat)) : List (Option Nat) :=
  (cols.zip acc).map fun x =>
    let v := w.mul (t.value row x.1)
    match x.2 with
    | none => some (fp32.round .rne v)
    | some a => some (fp32.round .rne (.sum .rne [fp32.decode a, v]))

/-- The entries of a bag in order: the state, the partial sums, the flags; or where it stops. -/
def State.poolRows (s : State) (c : Nat) (asid : BitVec 12) (p : Pinned) (cols : List Nat) :
    List (Nat × FpVal) → List (Option Nat) → Nat → State × List (Option Nat) × Nat × Option (Nat × Word)
  | [], acc, fl => (s, acc, fl, none)
  | (x, w) :: rest, acc, fl =>
    let i := bitsInt 32 x
    if i < 0 ∨ (p.table.rows : Int) ≤ i then s.poolRows c asid p cols rest acc (fl ||| 4)
    else if p.table.owner i.toNat ≠ c then s.poolRows c asid p cols rest acc fl
    else
      let va := p.slot i.toNat
      match s.engRead c asid va p.table.slotBytes with
      | .error e => (s, acc, fl, some e)
      | .ok row => (s.referRow c asid va p.table.slotBytes).poolRows c asid p cols rest (poolAdd p.table cols w row acc) fl

/-- How a POOL or ROWADD has ended. -/
structure BagEnd where
  status : Nat
  flags : Nat
  w0 : Word
  effects : List Effect
  deriving DecidableEq, Repr

/-- A POOL's row accesses (R199). -/
def State.poolWork (s : State) (c : Nat) (e : QEntry) (b : Bag) (p : Pinned) : State × BagEnd :=
  let a := cmdArgsOf e.cmd
  if b.a.isEmpty then (s, { status := 8, flags := 0, w0 := a.ha.setWidth 64, effects := [] })
  else if a.hb ≠ 0 ∧ b.b.isEmpty then (s, { status := 8, flags := 0, w0 := a.hb.setWidth 64, effects := [] })
  else
    let weights := if a.hb = 0 then b.a.map fun _ => FpVal.fin false 1 0 else b.b.map fp32.decode
    let cols := if a.hc = 0 then [2 * columnPair a, 2 * columnPair a + 1] else List.range p.table.width
    let (s, acc, fl, stop) := s.poolRows c e.asid p cols (b.a.zip weights) (cols.map fun _ => none) 0
    match stop with
    | some (st, w) => (s, { status := st, flags := fl, w0 := w, effects := [] })
    | none =>
      let l := acc.map fun x => x.getD 0
      if a.hc = 0 then (s, { status := 0, flags := fl, w0 := w64 (l.getD 0 0 + l.getD 1 0 * 2 ^ 32), effects := [] })
      else (s, { status := 0, flags := fl, w0 := 0, effects := [.elems (tileRef a.hc) (cols.zip l)] })

/-- A ROWADD's row access: the row is read, added to and written as one action (R200, R370). -/
def State.rowaddWork (s : State) (c : Nat) (e : QEntry) (b : Bag) (p : Pinned) : State × BagEnd :=
  let a := cmdArgsOf e.cmd
  let t := p.table
  let stop := fun (x : Nat × Word) => (s, ({ status := x.1, flags := 0, w0 := x.2, effects := [] } : BagEnd))
  if b.a.isEmpty then stop (8, a.ha.setWidth 64)
  else
    let va := p.slot a.hb.toNat
    match s.engRead c e.asid va t.slotBytes with
    | .error x => stop x
    | .ok row =>
      let vals := (List.range t.width).map fun k =>
        (FpVal.sum .rne [t.value row k, fmtDecode b.aFmt (b.a.getD k 0)]).scale (-(t.scale row k))
      match s.engStore c e.asid va (t.bytesOf (vals.map (fmtEncode t.fmt .rne))) [] with
      | .error x => stop x
      | .ok u => (u, { status := 0, flags := if vals.any (fmtSat t.fmt) then 8 else 0, w0 := 0, effects := [] })

/-- The work of a POOL or ROWADD that has pinned its version: the migration table, the moves, the rows. -/
def State.bagWork (s : State) (c : Nat) (e : QEntry) (b : Bag) (t : Table) (v : Version) (time : Word) : State × BagEnd :=
  match s.pinnedTable c e.asid t v with
  | .error (st, w) => (s, { status := st, flags := 0, w0 := w, effects := [] })
  | .ok p =>
    match s.makeMoves c e.asid time p (List.range p.moves.length) with
    | (s, _, some (st, w)) => (s, { status := st, flags := 0, w0 := w, effects := [] })
    | (s, p, none) => if copOf e.cmd = 0x08 then s.poolWork c e b p else s.rowaddWork c e b p

/-- The end of a POOL or ROWADD: its work when it has pinned its version, and the −1 with release that gives the version up (R366), with the
time that its reads have acquired (R305). -/
def State.bagEnd (s : State) (c : Nat) (e : QEntry) (b : Bag) : State × BagEnd :=
  let time := maxTime (maxTime (s.timeAt (dieOf c)) ((e.tag.map (·.time)).getD 0)) b.floor
  let leave := fun (s : State) (r : Version) => s.sendRunEvent c (pinEvent e.asid r.drain (-1) true time) .device
  let vr := (tableOf b.desc).bind fun t => (versionOf t b.record).map fun r => (t, r)
  match b.phase, vr with
  | .pinned _, some (t, r) => let (s, x) := s.bagWork c e b t r time; (leave s r, x)
  | .stopped st w (some _), some (_, r) => (leave s r, { status := st, flags := 0, w0 := w, effects := [] })
  | .stopped st w _, _ => (s, { status := st, flags := 0, w0 := w, effects := [] })
  | _, _ => (s, { status := 2, flags := 0, w0 := 0, effects := [] })

end Sys2Proof.Machine
end

