-- ==== Sys2Proof/Machine/Completion.lean ====
section
/-! DEFINITION. The end of a running engine command: its writes, its status, and the completions of its queue (R184, R187, R188, R271, R280,
R282). -/

namespace Sys2Proof.Machine

/-- One write of a command at its cluster: none when its tile is on a die that has gone (R185, R282). -/
def State.applyEffect (s : State) (c : Nat) : Effect → Option State
  | .elems r l => if s.clusterGone (refCluster r) then none else some (s.writeElems r l)
  | .scales r l => if s.clusterGone (refCluster r) then none else some (s.writeScales r l)
  | .mem swc pas l => some (s.engPerform c swc pas l [])

/-- The writes of a command in their order, up to the first that cannot be made. -/
def State.applyEffects (s : State) (c : Nat) : List Effect → State × Bool
  | [] => (s, true)
  | x :: rest => match s.applyEffect c x with
    | some t => t.applyEffects c rest
    | none => (s, false)

/-- A gang has finished: every slice has ended (R280). -/
def Gang.finished (g : Gang) : Bool := g.slices.all fun x => x.phase == .ended

/-- The status, flags and result word of a gang (R280): those of the failing member of the lowest index. -/
def Gang.outcome (g : Gang) : Nat × Nat × Word :=
  let flags := g.slices.foldl (fun f x => f ||| x.flags) 0
  match g.slices.find? fun x => x.status != 0 with
  | some x => (x.status, flags, x.w0)
  | none => (0, flags, 0)

/-- The rows of a version that a POOL or ROWADD reaches, by number, the requested moves that it would make included (R199, R200, R372). -/
def State.bagRows (s : State) (c : Nat) (r : Run) (b : Bag) : List Nat :=
  let a := cmdArgsOf r.e.cmd
  match tableOf b.desc with
  | none => []
  | some t =>
    let own := if copOf r.e.cmd = 0x08 then (b.a.map fun x => (BitVec.ofNat 32 x).toNat).filter fun x => decide (x < t.rows) && t.owner x == c else [a.hb.toNat]
    let moved := match versionOf t b.record with
      | some v => (match s.pinnedTable c r.e.asid t v with
        | .ok p => (p.moves.filter fun m => m.phase == 1 && decide (m.row < t.rows) && t.owner m.row == c).map (·.row)
        | .error _ => [])
      | none => []
    own ++ moved

/-- The physical address of the version that a bag has pinned: none before it has. -/
def State.pinnedAt (s : State) (c : Nat) (r : Run) (b : Bag) : Option Nat :=
  match b.phase with
  | .pinned v => (s.findPage c r.e.asid (v % 2 ^ 57)).map fun p => p.pa + (v % 2 ^ 57 - p.va)
  | _ => none

/-- The row accesses of a bag come after those of an earlier one in the CQ: both reach one row, of one version as far as the earlier has
its own (R370). -/
def State.rowsAfter (s : State) (c : Nat) (r : Run) (b : Bag) (x : Run) : Bool :=
  match x.bag with
  | none => false
  | some y =>
    !x.ended && !(y.phase matches .stopped _ _ _) && ((s.pinnedAt c x y).isNone || s.pinnedAt c x y == s.pinnedAt c r b) &&
      (s.bagRows c x y).any (s.bagRows c r b).contains

/-- A command may end: its events are answered, its gang is finished, and as a POOL or ROWADD it has stopped, or it has its version and no
earlier one is at work on a row of its own (R201, R280, R366, R370), nor a bank in the middle of an action, whose table its writes could
reach (R313, R319). -/
def State.mayEnd (s : State) (c : Nat) (r : Run) (earlier : List Run) : Bool :=
  !r.ended && r.waiting == 0 &&
  (match r.gang with
   | some g => g.finished
   | none => true) &&
  match r.bag with
  | none => true
  | some b => match b.phase with
    | .pinned _ => s.chains.isEmpty && !(earlier.any (s.rowsAfter c r b))
    | .stopped _ _ _ => true
    | .plus _ => false
    | .check _ => false
    | .minus => false
    | .again => false

/-- The information flags that an EVSTREAM's answers add, and its result word (R186, R201). -/
def Run.streamInfo (r : Run) : CmdInfo :=
  { r.info with
    flags := if r.refused = 0 then r.info.flags else r.info.flags ||| 0x10
    w0 := if r.info.status = 0 then w64 (r.good + r.refused * 2 ^ 32) else r.info.w0 }

/-- What a command's completion says before its writes are made, and the writes. -/
def State.finish (s : State) (c : Nat) (r : Run) : State × CmdInfo × List Effect :=
  match r.gang, r.bag with
  | some g, _ => let (st, fl, w) := g.outcome; (s, { r.info with status := st, flags := BitVec.ofNat 8 fl, w0 := w }, [])
  | none, some b =>
    let (s, x) := s.bagEnd c r.e b
    (s, { r.info with status := x.status, flags := BitVec.ofNat 8 x.flags, w0 := x.w0 }, x.effects)
  | none, none => (s, if copOf r.e.cmd = 0x0A then r.streamInfo else r.info, r.effects)

/-- The completions of a queue that are due, in acceptance order (R188). -/
def State.deliverEnded (s : State) (c q : Nat) : Nat → State
  | 0 => s
  | n + 1 =>
    match s.runs c q with
    | r :: l => if r.ended then ((s.setRuns c q l).deliverCompletion c r.e r.info).deliverEnded c q n else s
    | [] => s

/-- A write of a command to the group table waits for its bank (R313). -/
def State.effectHeld (s : State) (x : Effect) : Bool :=
  match x with
  | .mem _ pas _ => s.tableHeld pas
  | .elems _ _ => false
  | .scales _ _ => false

/-- ENGINE_COMMAND_END (R187): the k-th running command of a queue makes its writes and ends; completions are delivered in acceptance
order. -/
def execEngineCommandEnd (c q k : Nat) (s : State) : Out :=
  match nth? (s.runs c q) k with
  | none => notNow "ENGINE_COMMAND_END"
  | some r =>
    if s.mayEnd c r ((s.runs c q).take k) ∧ !r.effects.any s.effectHeld then
      let (t, i, effects) := (s.seenBy r.start).finish c r
      if i.status = notYet then notNow "ENGINE_COMMAND_END"
      else
        let (t, ok) := t.applyEffects c effects
        let t := t.withDies s
        let i := if ok then i else { i with status := 9, w0 := 0, skim := 0 }
        let t := (t.setRun' c q r.e.id fun x => { x with ended := true, info := i, effects := [] }).dropHeld
        .next (t.deliverEnded c q (t.runs c q).length)
    else notNow "ENGINE_COMMAND_END"

/-! ### Reads and writes of a running command that come before its end (R187, R275, R302) -/

/-- Run k of a queue makes write i of those that it has not made: the first, as a command writes its destination in increasing order (R187, R196). -/
def runWrites (c q k i : Nat) (s : State) : Out :=
  match nth? (s.runs c q) k with
  | none => notNow "WRITE"
  | some r =>
    match nth? r.effects i with
    | none => notNow "WRITE"
    | some x =>
      if !r.ended ∧ i = 0 ∧ !s.effectHeld x then
        match (s.seenBy r.start).applyEffect c x with
        | some t => .next ((t.withDies s).setRun' c q r.e.id fun y => { y with effects := removeAt i y.effects, made := y.made + 1 })
        | none => notNow "WRITE"
      else notNow "WRITE"

/-- A running TLOAD reads the memory row of its i-th unwritten row anew: its reads take place at any time from its start to its end, in any
order (R275, R302). A row that fails ends it there (R187). -/
def runReads (c k i : Nat) (s : State) : Out :=
  match nth? (s.runs c 1) k with
  | none => notNow "READ"
  | some r =>
    let a := cmdArgsOf r.e.cmd
    let ref := tileRef a.hc
    if !r.ended ∧ copOf r.e.cmd = 0x01 ∧ i < r.effects.length then
      match loadRow (s.seenBy r.start) c r.e.asid a (fatPtr a.ha a.hb) (s.heldTile ref) (r.made + i) with
      | .ok w =>
        let x := if sclBit a then Effect.scales ref w.scales else Effect.elems ref w.elems
        .next (s.setRun' c 1 r.e.id fun y => { y with effects := modifyAt (fun _ => x) i y.effects })
      | .error (st, w) =>
        if st = notYet then notNow "READ"
        else .next (s.setRun' c 1 r.e.id fun y => { y with effects := y.effects.take i, info := { y.info with status := st, w0 := w } })
    else notNow "READ"

/-- A POOL or ROWADD, run k of a cluster's CQ, reads its current-version word again (R366). -/
def bagReads (c k : Nat) (s : State) : Out :=
  match nth? (s.runs c 1) k with
  | none => notNow "VERSION"
  | some r =>
    match r.bag with
    | none => notNow "VERSION"
    | some b =>
      match ((s.seenBy r.start).pinRead c r.e b).bind fun x => if x.1.waits then none else some x with
      | none => notNow "VERSION"
      | some (b, ev) =>
        let t := s.setRun' c 1 r.e.id fun x => { x with bag := some b }
        .next (match ev with
          | some x => t.sendRunEvent c x (.pin c r.e.id)
          | none => t)

end Sys2Proof.Machine
end

