-- ==== Sys2Proof/Machine/Control.lean ====
section
/-! DEFINITION. Control instructions (R115 to R126) and the word that is no instruction (R71). -/

namespace Sys2Proof.Machine

/-- A taken transfer (R116): the PC becomes the target, and the transfer is the source of what issues there (R129). -/
def Line.jumpTo (l : Line) (from_ target : VAddr) : Line := { l with jumped := true, src := from_, c := { l.c with pc := target } }

/-- The link of a call (R117): PC + 8 of the call itself. -/
def linkOf (l0 : Line) : Word := vaWord (l0.at_ + 8)

/-- BR target (R117). -/
def execBr (g : Guard) (off : BitVec 32) (s : State) : Out :=
  issue (headOf (.br g off) g 0 0) s fun t key l0 l => .next (t.setLine key (l.jumpTo l0.at_ (codeTarget l0.at_ off)))

/-- BRL gd, target (R117). -/
def execBrl (g : Guard) (d : Reg) (off : BitVec 32) (s : State) : Out :=
  issue (headOf (.brl g d off) g (regMask d) 0) s fun t key l0 l =>
    .next (t.setLine key ({ l with c := l.c.setReg d (linkOf l0) }.jumpTo l0.at_ (codeTarget l0.at_ off)))

/-- JR ga (R118): a misaligned target traps, and the instruction then has no effect. -/
def execJr (g : Guard) (a : Src) (s : State) : Out :=
  let h := headOf (.jr g a) g a.nameMask a.takeMask
  issue h s fun t key l0 l =>
    let v := l0.c.src a
    if v &&& 7 ≠ 0 then trapOut h t key l0 0x05 v
    else .next (t.setLine key (l.jumpTo l0.at_ (v.setWidth 57)))

/-- JRL gd, ga (R118): the source is read before the link is written. -/
def execJrl (g : Guard) (d : Reg) (a : Src) (s : State) : Out :=
  let h := headOf (.jrl g d a) g (names2 d a) a.takeMask
  issue h s fun t key l0 l =>
    let v := l0.c.src a
    if v &&& 7 ≠ 0 then trapOut h t key l0 0x05 v
    else .next (t.setLine key ({ l with c := l.c.setReg d (linkOf l0) }.jumpTo l0.at_ (v.setWidth 57)))

/-- The counter of a LOOP after it (R119). -/
def loopCount (n : Word) : Word := if n = 0 then 0 else n - 1

/-- LOOP gd, target (R119). -/
def execLoop (g : Guard) (d : Reg) (off : BitVec 32) (s : State) : Out :=
  issue (headOf (.loop g d off) g (regMask d) 0) s fun t key l0 l =>
    let n := loopCount (l0.c.reg d)
    let l := { l with c := l.c.setReg d n }
    .next (t.setLine key (if n = 0 then l else l.jumpTo l0.at_ (codeTarget l0.at_ off)))

/-- A WAIT: it completes in its turn when the condition holds, and else the context waits past it (R122). -/
def waitUnless (cond : Bool) (t : State) (key : Nat) (l : Line) (kind : BitVec 4) (obj : BitVec 60) (watch : BitVec 8) : Out :=
  .next (t.setLine key (if cond then l else l.waits kind obj watch))

/-- WAIT.inbox (R121). -/
def execWaitInbox (g : Guard) (s : State) : Out :=
  issue (headWait (.waitInbox g) g 0 0) s fun t key _ l => waitUnless (l.c.inboxCount != 0) t key l 2 0 0

/-- WAIT.full ga (R121): the full bits are tested as the instruction's own take leaves them. -/
def execWaitFull (g : Guard) (a : Src) (s : State) : Out :=
  issue (headWait (.waitFull g a) g a.nameMask a.takeMask) s fun t key l0 l =>
    let m := (l0.c.src a).setWidth 8
    waitUnless (l.c.st.full &&& m == m) t key (if l.c.st.full &&& m == m then l.hearRegs m else l) 1 (BitVec.ofNat 60 (lowestReg (m &&& ~~~l.c.st.full))) m

/-- The time a WAIT.time waits for: at most the largest the wait object holds (R121). -/
def waitTimeOf (x : Word) : BitVec 60 := if x.toNat < 2 ^ 60 then x.setWidth 60 else BitVec.allOnes 60

/-- WAIT.time ga (R121). -/
def execWaitTime (g : Guard) (a : Src) (s : State) : Out :=
  issue (headWait (.waitTime g a) g a.nameMask a.takeMask) s fun t key l0 l =>
    let T := waitTimeOf (l0.c.src a)
    waitUnless ((T.setWidth 64).ule (t.timeOf l.c)) t key l 9 T 0

/-- YIELD (R123): the context enters the tail of its run list with the age it was last claimed at (R353).
A reduction that runs for it runs on: its pending bits stay as they stood (R125). -/
def execYield (g : Guard) (s : State) : Out :=
  issue (headWait (.yield g) g 0 0) s fun t key _ l =>
    let age := match l.place with
      | .slot c u sl => (t.slot c u sl).age
      | _ => 0
    let (t, l) := t.freeSlot (l.withState .ready)
    .next (t.enterReady key l age)

/-- NOP (R124). -/
def execNop (g : Guard) (s : State) : Out := issueReg (headOf (.nop g) g 0 0) s fun _ c => c

/-- A word that is no instruction: a precise illegal-encoding trap that names the lowest condition of R71 it fails. -/
def execIllegalOpcode (word : Word) (cond : BitVec 3) (s : State) : Out :=
  issue { headOf (.nop (guardAt word)) (guardAt word) 0 0 with word := word, bad := some cond.toNat } s fun t key l0 _ =>
    .next (issueTrap t key l0 word 0x01 cond.toNat 0)

end Sys2Proof.Machine
end

