-- ==== Sys2Proof/Machine/RealFunctions.lean ====
section
/-! DEFINITION. The correctly rounded real functions of the SFU (R145, R146) and of TACT (R206).
Each function is evaluated in fixed point with 384 fraction bits (640 for the reduction by π/2 and ln 2) and the value, with a
sticky bit where it is irrational, is rounded once to FP32 under rne. DEDUCED (log entry 21): the distance of every
such value from an FP32 rounding boundary is far above the error of the evaluation. -/

namespace Sys2Proof.Machine

/-- π/2 with 640 fraction bits. -/
def halfPi : Nat :=
  0x1921fb54442d18469898cc51701b839a252049c1114cf98e804177d4c76273644a29410f31c6809bbdf2a33679a748636605614dbe4be286e9fc26adadaa3848bc90b6aecc4bcfd8de89885d34c6fdad6

/-- ln 2 with 640 fraction bits. -/
def ln2 : Nat :=
  0xb17217f7d1cf79abc9e3b39803f2f6af40f343267298b62d8a0d175b8baafa2be7b876206debac98559552fb4afa1b10ed2eae35c138214427573b291169b8253e96ca16224ae8c51acbda11317c387e

/-- The fraction bits of the evaluation. -/
abbrev prec : Nat := 384

/-- floor(± m × 2^e × 2^p). -/
def fixAt (p : Nat) (neg : Bool) (m : Nat) (e : Int) : Int :=
  let k := e + p
  let v : Int := if 0 ≤ k then (m * 2 ^ k.toNat : Nat) else (m >>> (-k).toNat : Nat)
  if neg then -v else v

/-- The Taylor series of exp at r (fixed point): the sum of the terms r^i / i! from the i-th, for `fuel` terms. -/
def expSeries (r : Int) : Nat → Nat → Int → Int
  | 0, _, _ => 0
  | fuel + 1, i, t => t + expSeries r fuel (i + 1) (t * r / 2 ^ prec / (i + 1 : Nat))

/-- exp(x) for x in fixed point with 640 fraction bits, as a mantissa and an exponent: m × 2^e. -/
def expFix (x : Int) : Nat × Int :=
  let k := (2 * x + ln2) / (2 * ln2)
  let r := (x - k * ln2) / 2 ^ (640 - prec)
  let s := expSeries r 90 0 (2 ^ prec)
  (s.toNat, k - prec)

/-- The series of sin (odd) or cos (even) with r² given: alternating terms, for `fuel` terms, i the index of the last factor. -/
def trigSeries (r2 : Int) : Nat → Nat → Int → Int
  | 0, _, _ => 0
  | fuel + 1, i, t => t + trigSeries r2 fuel (i + 2) (-(t * r2 / 2 ^ prec) / ((i + 1) * (i + 2) : Nat))

/-- sin r for |r| ≤ π/4 in fixed point. -/
def sinFix (r : Int) : Int := trigSeries (r * r / 2 ^ prec) 50 1 r

/-- cos r for |r| ≤ π/4 in fixed point. -/
def cosFix (r : Int) : Int := trigSeries (r * r / 2 ^ prec) 50 0 (2 ^ prec)

/-- The series of atanh at t with t² given: the terms t^(2i+1)/(2i+1). -/
def atanhSeries (t2 : Int) : Nat → Nat → Int → Int
  | 0, _, _ => 0
  | fuel + 1, i, t => t / (i : Nat) + atanhSeries t2 fuel (i + 2) (t * t2 / 2 ^ prec)

/-- A fixed-point value with a sticky bit below it, as an exact value for rounding. -/
def stickyFix (v : Int) : FpVal := .fin (decide (v < 0)) (2 * v.natAbs + 1) (-(prec : Int) - 1)

/-- A positive magnitude with a sticky bit below it. -/
def stickyMag (neg : Bool) (m : Nat) (e : Int) : FpVal := .fin neg (2 * m + 1) (e - 1)

/-- A magnitude moved by less than any rounding distance: outward when `up`, else inward. -/
def nudge (neg : Bool) (m : Nat) (e : Int) (up : Bool) : FpVal :=
  .fin neg (if up then m * 2 ^ 100 + 1 else m * 2 ^ 100 - 1) (e - 100)

/-- Whether a nonzero magnitude m × 2^e is below 2^k. -/
def below (m : Nat) (e k : Int) : Bool := decide ((Nat.log2 m : Int) + e < k)

/-- 1/x (R146). -/
def rcpVal (x : FpVal) : FpVal := (FpVal.fin false 1 0).quot x

/-- The sticky exact value of e^x. -/
def expVal : FpVal → FpVal
  | .nan => .nan
  | .inf s => if s then .fin false 0 0 else .inf false
  | .fin s m e =>
    if m = 0 then .fin false 1 0
    else if below m e 12 then
      let (v, k) := expFix (fixAt 640 s m e)
      stickyMag false v k
    else if s then .fin false 1 (-4000) else .fin false 1 4000

/-- The sticky exact value of 2^x; integers are exact (R146). -/
def exp2Val : FpVal → FpVal
  | .nan => .nan
  | .inf s => if s then .fin false 0 0 else .inf false
  | .fin s m e =>
    if m = 0 then .fin false 1 0
    else if below m e 12 then
      let x := fixAt 640 s m e
      if x % 2 ^ 640 = 0 && decide (-640 ≤ e) then .fin false 1 (x / 2 ^ 640)
      else
        let n := x / 2 ^ 640
        let (v, k) := expFix ((x - n * 2 ^ 640) * ln2 / 2 ^ 640)
        stickyMag false v (k + n)
    else if s then .fin false 1 (-4000) else .fin false 1 4000

/-- The sticky exact value of log2 x; powers of two are exact (R146). -/
def log2Val : FpVal → FpVal
  | .nan => .nan
  | .inf s => if s then .nan else .inf false
  | .fin s m e =>
    if m = 0 then .inf true
    else if s then .nan
    else
      let lg := Nat.log2 m
      if m = 2 ^ lg then .ofInt (lg + e)
      else
        let f0 := m * 2 ^ (prec - lg)
        let up := decide (3 * 2 ^ prec ≤ 2 * f0)
        let f : Int := if up then (f0 / 2 : Nat) else (f0 : Nat)
        let ex : Int := lg + e + (if up then 1 else 0)
        let t := (f - 2 ^ prec) * 2 ^ prec / (f + 2 ^ prec)
        let l := 2 * atanhSeries (t * t / 2 ^ prec) 130 1 t
        stickyFix (ex * 2 ^ prec + l * 2 ^ 640 / ln2)

/-- The quadrant and the rest, in [-π/4, π/4] fixed point, of a value reduced exactly by π/2 (R146). -/
def reduceTrig (s : Bool) (m : Nat) (e : Int) : Int × Int :=
  let x := fixAt 640 s m e
  let q := (2 * x + halfPi) / (2 * halfPi)
  (q % 4, (x - q * halfPi) / 2 ^ (640 - prec))

/-- The sticky exact value of sin x (R146). -/
def sinVal : FpVal → FpVal
  | .nan => .nan
  | .inf _ => .nan
  | .fin s m e =>
    if m = 0 then .fin s 0 0
    else if below m e (-40) then nudge s m e false
    else
      let (q, r) := reduceTrig false m e
      let v := if q = 0 then sinFix r else if q = 1 then cosFix r else if q = 2 then -(sinFix r) else -(cosFix r)
      stickyFix (if s then -v else v)

/-- The sticky exact value of cos x (R146). -/
def cosVal : FpVal → FpVal
  | .nan => .nan
  | .inf _ => .nan
  | .fin _ m e =>
    if m = 0 then .fin false 1 0
    else if below m e (-40) then nudge false 1 0 false
    else
      let (q, r) := reduceTrig false m e
      stickyFix (if q = 0 then cosFix r else if q = 1 then -(sinFix r) else if q = 2 then -(cosFix r) else sinFix r)

/-- The sticky exact value of tanh x (R146). -/
def tanhVal : FpVal → FpVal
  | .nan => .nan
  | .inf s => .fin s 1 0
  | .fin s m e =>
    if m = 0 then .fin s 0 0
    else if below m e (-40) then nudge s m e false
    else if !below m e 9 then nudge s 1 0 false
    else
      -- E = exp(-2|x|) in fixed point; tanh |x| = (1 - E) / (1 + E)
      let (v, k) := expFix (fixAt 640 true m (e + 1))
      let ee : Int := max 1 (fixAt prec false v k)
      let v := (2 ^ prec - ee) * 2 ^ prec / (2 ^ prec + ee)
      stickyMag s v.toNat (-(prec : Int))

/-- x × σ(y) for a nonzero finite x and y given in fixed point with 640 fraction bits, |y| at most 1,100; `tiny` says that y is
below 2^-60 in magnitude, where σ is 1/2 moved toward the sign of y. σ is the logistic function 1 / (1 + e^-y). -/
def timesSigmoid (s : Bool) (m : Nat) (e : Int) (yneg tiny : Bool) (y : Int) : FpVal :=
  if tiny then nudge s m (e - 1) (!yneg)
  else
    let (v, k) := expFix (-(y.natAbs : Int))
    -- E = v × 2^k = e^-|y|
    if yneg then
      -- E / (1 + E), relative to E
      let den : Int := 2 ^ prec + fixAt prec false v k
      let q := (v : Int) * 2 ^ prec / den
      stickyMag s (m * q.toNat) (e + k)
    else
      let ee : Int := max 1 (fixAt prec false v k)
      let q := (2 ^ (2 * prec) : Int) / (2 ^ prec + ee)
      stickyMag s (m * q.toNat) (e - prec)

/-- Clamp a fixed-point value with 640 fraction bits to ±1,100. -/
def clampFix (x : Int) : Int := clampInt (-(1100 * 2 ^ 640)) (1100 * 2 ^ 640) x

/-- The sticky exact value of 1 / (1 + e^-x) (R206). -/
def sigmoidVal : FpVal → FpVal
  | .nan => .nan
  | .inf s => if s then .fin false 0 0 else .fin false 1 0
  | .fin s m e => if m = 0 then .fin false 1 (-1) else timesSigmoid false 1 0 s (below m e (-60)) (clampFix (fixAt 640 s m e))

/-- The sticky exact value of x × sigmoid(x) (R206). At -∞ the real function has no value; `tactFp32` does not use this one there. -/
def siluVal : FpVal → FpVal
  | .nan => .nan
  | .inf s => if s then .nan else .inf false
  | .fin s m e => if m = 0 then .fin s 0 0 else timesSigmoid s m e s (below m e (-60)) (clampFix (fixAt 640 s m e))

/-- The sticky exact value of GELU (R206): 0.5 x (1 + tanh u) is x × sigmoid(2u), with
u = 0.797_884_56 × (x + 0.044_715 × x^3). -/
def geluVal : FpVal → FpVal
  | .nan => .nan
  | .inf s => if s then .nan else .inf false
  | .fin s m e =>
    if m = 0 then .fin s 0 0
    else
      let x := clampFix (fixAt 640 s m e)
      let x3 := x * x / 2 ^ 640 * x / 2 ^ 640
      let y := 2 * 79788456 * (1000000 * x + 44715 * x3) / (100000000 * 1000000)
      timesSigmoid s m e s (below m e (-61)) (clampFix y)

/-! ### FP32 patterns -/

/-- A special function on an FP32 pattern, rounded once under rne (R146). -/
def sfuApply (f : FpVal → FpVal) (x : Nat) : Nat := fp32.round .rne (f (fp32.decode x))

/-- The FP32 value of a TACT function of codes 2 to 6 on an exact value (R206). GELU and SILU of -∞ are free values (log entry 22). -/
def tactFp32 (code : Nat) (x : FpVal) : Nat :=
  match code with
  | 2 => fp32.round .rne (sigmoidVal x)
  | 3 => fp32.round .rne (tanhVal x)
  | 4 => if x = .inf true then (Config.tactUnstated 4).toNat else fp32.round .rne (geluVal x)
  | 5 => if x = .inf true then (Config.tactUnstated 5).toNat else fp32.round .rne (siluVal x)
  | _ => fp32.round .rne (expVal x)

end Sys2Proof.Machine
end

