-- ==== Sys2Proof/Machine/Elementwise.lean ====
section
/-! DEFINITION. The commands of the elementwise engine (R195, R205 to R210, R282): each computes its whole result at its start and writes
it at its end (R187). -/

namespace Sys2Proof.Machine

/-- The arithmetic formats (R195). -/
def fmtArith (fmt : Nat) : Bool := fmt == 1 || fmt == 11 || fmt == 2 || fmt == 3 || fmt == 5 || fmt == 6 || fmt == 7 || fmt == 9 || fmt == 10

/-- A destination of an elementwise command (R195). -/
def destOk (d : Tile) : Bool := fmtArith d.fmt && d.block == 0

/-- Tiles of one shape. -/
def sameShape (a b : Tile) : Bool := a.rows == b.rows && a.cols == b.cols

/-- One value for each element of a destination tile, converted into its format under rne, with the SAT flag (R42, R186, R195). -/
def mapTile (hc : BitVec 32) (d : Tile) (f : Nat → Nat → FpVal) : Result :=
  let l := d.cells.map fun p => (p.1 * 256 + p.2, f p.1 p.2)
  { Result.done [.elems (tileRef hc) (l.map fun x => (x.1, fmtEncode d.fmt .rne x.2))] with
    flags := if l.any fun x => fmtSat d.fmt x.2 then 8 else 0 }

/-! ### TADD, TSUB, TMUL, TMAX, TSCALE (R205) -/

/-- The element of B that element (i, j) uses. -/
def bcastAt (k i j : Nat) : Nat × Nat := if k = 1 then (0, j) else if k = 2 then (i, 0) else (i, j)

/-- The shape that B must have. -/
def bcastOk (k : Nat) (a b : Tile) : Bool :=
  if k = 1 then b.rows == 1 && b.cols == a.cols else if k = 2 then b.rows == a.rows && b.cols == 1 else sameShape a b

/-- An elementwise operation of two tiles. -/
def binaryCmd (what : String) (c : CmdArgs) (op : FpVal → FpVal → FpVal) (s : State) : Out :=
  let k := c.opsBits 0 2
  startCommand what c (k == 3) (fun _ _ _ a b d =>
    if !fmtArith a.fmt ∨ !fmtArith b.fmt ∨ !destOk d then .fail 4 0
    else if !bcastOk k a b ∨ !sameShape a d then .fail 6 0
    else if a.badAny then poisoned c.ha
    else if b.badAny then poisoned c.hb
    else mapTile c.hc d fun i j => let p := bcastAt k i j; op (a.value i j) (b.value p.1 p.2)) s

/-- TADD (R205). -/
def execTadd (c : CmdArgs) (s : State) : Out := binaryCmd "TADD" c (fun x y => .sum .rne [x, y]) s

/-- TSUB (R205). -/
def execTsub (c : CmdArgs) (s : State) : Out := binaryCmd "TSUB" c (fun x y => .sum .rne [x, y.negate]) s

/-- TMUL (R205). -/
def execTmul (c : CmdArgs) (s : State) : Out := binaryCmd "TMUL" c FpVal.mul s

/-- TMAX (R138, R205). -/
def execTmax (c : CmdArgs) (s : State) : Out := binaryCmd "TMAX" c FpVal.maxNum s

/-- An elementwise operation of one tile. -/
def unaryCmd (what : String) (c : CmdArgs) (bad : Bool) (op : FpVal → FpVal) (s : State) : Out :=
  startCommand what c bad (fun _ _ _ a _ d =>
    if !fmtArith a.fmt ∨ !destOk d then .fail 4 0
    else if !sameShape a d then .fail 6 0
    else if a.badAny then poisoned c.ha
    else mapTile c.hc d fun i j => op (a.value i j)) s

/-- An FP32 immediate of OPS. -/
def opsFp32 (c : CmdArgs) (i : Nat) : FpVal := fp32.decode (c.opsBits i 32)

/-- TSCALE (R205). -/
def execTscale (c : CmdArgs) (s : State) : Out :=
  unaryCmd "TSCALE" c false (fun x => .sum .rne [x.mul (opsFp32 c 0), opsFp32 c 32]) s

/-! ### TACT (R206) -/

/-- x > 0. -/
def FpVal.positive (x : FpVal) : Bool := x.compare (.fin false 0 0) == some .gt

/-- The value of a function of TACT. -/
def tactValue (code : Nat) (q x : FpVal) : FpVal :=
  match code with
  | 0 => if x.isNan then .nan else if x.positive then x else .fin false 0 0
  | 1 => if x.positive then x else x.mul q
  | _ => fp32.decode (tactFp32 code x)

/-- TACT (R206). -/
def execTact (c : CmdArgs) (s : State) : Out :=
  let code := c.opsBits 0 4
  unaryCmd "TACT" c (decide (7 ≤ code) || (code != 1 && c.opsBits 32 32 != 0)) (tactValue code (opsFp32 c 32)) s

/-! ### TROWRED, TSOFTMAX (R52, R207, R208) -/

/-- A reduction in FP32 in the order of the terms, starting from the first (R52). -/
def sumFp32 : List FpVal → Nat
  | [] => 0
  | x :: l => l.foldl (fun acc y => fp32.round .rne (.sum .rne [fp32.decode acc, y])) (fp32.round .rne x)

/-- The reduction of a row. -/
def rowReduce (k : Nat) (l : List FpVal) : FpVal :=
  match k with
  | 0 => fp32.decode (sumFp32 l)
  | 1 => l.tail.foldl FpVal.maxNum (l.headD .nan)
  | 2 => l.tail.foldl FpVal.minNum (l.headD .nan)
  | _ => fp32.decode (sumFp32 (l.map fun x => x.mul x))

/-- The values of a row of a tile. -/
def Tile.rowValues (t : Tile) (i : Nat) : List FpVal := (List.range t.cols).map (t.value i)

/-- TROWRED (R207). -/
def execTrowred (c : CmdArgs) (s : State) : Out :=
  startCommand "TROWRED" c false (fun _ _ _ a _ d =>
    if !fmtArith a.fmt ∨ d.fmt ≠ 7 then .fail 4 0
    else if d.rows ≠ a.rows ∨ d.cols ≠ 1 then .fail 6 0
    else if a.badAny then poisoned c.ha
    else mapTile c.hc d fun i _ => rowReduce (c.opsBits 0 2) (a.rowValues i)) s

/-- A row of TSOFTMAX before its last division: the terms and their sum; a row that holds a NaN or whose maximum is infinite has none. -/
def softmaxRow (t : FpVal) (l : List FpVal) : Option (List Nat × Nat) :=
  let y := l.map fun x => fp32.decode (fp32.round .rne (x.mul t))
  let m := y.tail.foldl FpVal.maxNum (y.headD .nan)
  if y.any FpVal.isNan || l.any FpVal.isNan || m == .inf false || m == .inf true then none
  else
    let e := y.map fun x => tactFp32 6 (fp32.decode (fp32.round .rne (.sum .rne [x, m.negate])))
    some (e, sumFp32 (e.map fp32.decode))

/-- Element j of a row of TSOFTMAX. -/
def softmaxAt (r : Option (List Nat × Nat)) (j : Nat) : FpVal :=
  match r with
  | none => .nan
  | some (e, s) => (fp32.decode (e.getD j 0)).quot (fp32.decode s)

/-- TSOFTMAX (R208). -/
def execTsoftmax (c : CmdArgs) (s : State) : Out :=
  let t := opsFp32 c 0
  startCommand "TSOFTMAX" c (t.isNan || t == .inf false || t == .inf true) (fun _ _ _ a _ d =>
    if !fmtArith a.fmt ∨ !fmtUpdateDest d.fmt then .fail 4 0
    else if !sameShape a d then .fail 6 0
    else if a.badAny then poisoned c.ha
    else
      let rows := (List.range a.rows).map fun i => softmaxRow t (a.rowValues i)
      mapTile c.hc d fun i j => softmaxAt (rows.getD i none) j) s
where
  fmtUpdateDest (fmt : Nat) : Bool := fmt == 5 || fmt == 6 || fmt == 7

/-! ### QUANT and the Skimmer, DEQUANT (R209, R210, R282) -/

/-- F of R209. -/
def quantBound (fmt : Nat) : Nat := match fmt with
  | 1 => 127
  | 11 => 255
  | 9 => 64
  | _ => 16

/-- The larger of two magnitudes, a NaN ignored. -/
def maxAbs (m x : FpVal) : FpVal := m.maxNum x.absVal

/-- The columns that are skimmed or would be: those whose largest magnitude exceeds the threshold. -/
def overColumns (a : Tile) (tau : FpVal) : List Nat :=
  (List.range a.cols).filter fun j =>
    ((List.range a.rows).foldl (fun m i => maxAbs m (a.value i j)) (.fin false 0 0)).compare tau == some .gt

/-- The scale of a block of elements (R209). -/
def blockScale (fmt : Nat) (l : List FpVal) : Int :=
  if l.any fun x => x == .inf false || x == .inf true then 127
  else match (l.filter fun x => !x.isNan).foldl maxAbs (.fin false 0 0) with
    | .fin _ m e => if m = 0 then 0 else clampInt (-128) 127 (ceilLog2Ratio m e (quantBound fmt))
    | _ => 0

/-- The scale of block b of row i of the destination, over its unskimmed columns; 0 with BLOCK = 0. -/
def quantScale (a d : Tile) (skim : List Nat) (i b : Nat) : Int :=
  if d.block = 0 then 0
  else
    let n := blockLen d.block
    blockScale d.fmt (((List.range n).filterMap fun k =>
      let j := b * n + k
      if j < a.cols ∧ !skim.contains j then some (a.value i j) else none))

/-- The result of a QUANT: the skim tile first, then the destination (R282). -/
def quantResult (c : CmdArgs) (a d : Tile) (tau : FpVal) : Result :=
  let tall := if c.hb = 0 then [] else overColumns a tau
  let skim := tall.take 8
  let n := blockLen d.block
  let scales := (List.range d.rows).map fun i => (List.range d.blocks).map fun b => quantScale a d skim i b
  let scaleOf := fun (i j : Nat) => if d.block = 0 then 0 else (scales.getD i []).getD (j / n) 0
  let cells := d.cells.map fun p => (p, if skim.contains p.2 then none else some ((a.value p.1 p.2).scale (-(scaleOf p.1 p.2))))
  let hb := (List.range a.rows).flatMap fun i => (List.range 8).map fun k =>
    (i * 256 + k, if h : k < skim.length then bf16.round .rne (a.value i skim[k]) else 0)
  let sc := (List.range d.rows).flatMap fun i => (List.range d.blocks).map fun b => (i * 256 + b, BitVec.ofInt 8 ((scales.getD i []).getD b 0))
  { Result.done ((if c.hb = 0 then [] else [Effect.elems (tileRef c.hb) hb]) ++
      [Effect.elems (tileRef c.hc) (cells.map fun x => (x.1.1 * 256 + x.1.2, (x.2.map (fmtEncode d.fmt .rne)).getD 0))] ++
      (if d.block = 0 then [] else [Effect.scales (tileRef c.hc) sc])) with
    flags := (if 8 < tall.length then 2 else 0) + (if cells.any fun x => (x.2.map (fmtSat d.fmt)).getD false then 8 else 0)
    skim := skim.length
    w0 := w64 (((List.range skim.length).map fun k => skim.getD k 0 * 2 ^ (8 * k)).sum) }

/-- QUANT (R209, R282). -/
def execQuant (c : CmdArgs) (s : State) : Out :=
  let tau := opsFp32 c 0
  let bad := tau.isNan || tau.compare (.fin false 0 0) == some .lt || (c.hb == 0 && tau != .inf false)
  startCommand "QUANT" c bad (fun _ _ _ a b d =>
    if !(a.fmt == 7 || a.fmt == 6 || a.fmt == 5) ∨ !fmtScalable d.fmt ∨ (c.hb ≠ 0 ∧ b.fmt ≠ 6) then .fail 4 0
    else if !sameShape a d ∨ (c.hb ≠ 0 ∧ (b.rows ≠ a.rows ∨ b.cols ≠ 8 ∨ c.hb = c.ha ∨ c.hb = c.hc)) then .fail 6 0
    else if a.badAny then poisoned c.ha
    else quantResult c a d tau) s

/-- DEQUANT (R45, R210). -/
def execDequant (c : CmdArgs) (s : State) : Out :=
  startCommand "DEQUANT" c false (fun _ _ _ a _ d =>
    if !fmtScalable a.fmt ∨ !(d.fmt == 7 || d.fmt == 6 || d.fmt == 5) then .fail 4 0
    else if !sameShape a d then .fail 6 0
    else if a.badAny then poisoned c.ha
    else mapTile c.hc d a.value) s

end Sys2Proof.Machine
end

