-- ==== Sys2Proof/Machine/Events.lean ====
section
/-! DEFINITION. Event instructions (R211 to R221) and what happens to their requests at the banks (R216, R313, R316, R319, R330). -/

namespace Sys2Proof.Machine

/-! ### The instructions -/

/-- The head of an event instruction: profile N1, class S (R211). -/
def headEvent (i : Instr) (g : Guard) (names takes : BitVec 8) : Head := { headOf i g names takes with profile := .n1 }

/-- The head of an event instruction of class W (R211). -/
def headEventWait (i : Instr) (g : Guard) (names takes : BitVec 8) : Head := { headWait i g names takes with profile := .n1 }

/-- The event address in a register (R211). -/
def evAddr (x : Word) : BitVec 32 := x.setWidth 32

/-- The bit of the die of an event address (R211). -/
def evDieBit (a : BitVec 32) : BitVec 4 := dieBit (evDie a)

/-- EVSND and EVARM (R213, R214): the event takes a send-buffer entry; without a free one the turn is idle. -/
def eventOp (i : Instr) (g : Guard) (arm rel : Bool) (a b cc : Src) (s : State) : Out :=
  issue (headEvent i g (a.nameMask ||| b.nameMask ||| cc.nameMask) (takes2 a b ||| cc.takeMask)) s fun t key l0 l =>
    if t.sendFree l0.c.here then
      let addr := evAddr (l0.c.src a)
      let (l, time) := if rel then l.stamp t else (l, 0)
      let e : Ev := { addr := addr, value := BitVec.ofInt 48 ((l0.c.src b).setWidth 32).toInt, step := (l0.c.src cc).setWidth 32
                      asid := l0.c.asid, arm := arm, rel := rel, count := 1, time := time }
      .next ((t.pushSend l0.c.here (.event e .context) (some key) l0.c.asid l0.at_ []).setLine key (l.touch (evDieBit addr)))
    else idleTurn s key l0

/-- EVSND[.rel] ga, gb, gc (R213). -/
def execEvsnd (g : Guard) (rel : Bool) (a b cc : Src) (s : State) : Out := eventOp (.evsnd g rel a b cc) g false rel a b cc s

/-- EVARM[.rel] ga, gb, gc (R213). -/
def execEvarm (g : Guard) (rel : Bool) (a b cc : Src) (s : State) : Out := eventOp (.evarm g rel a b cc) g true rel a b cc s

/-- A request leaves for a bank, and the context waits for its answer with kind 3. -/
def askBank (t : State) (key : Nat) (l : Line) (what : BankWhat) (addr : BitVec 32) (d : Nat) : Out :=
  let r : BankReq := { what := what, addr := addr, asid := l.c.asid, d := d, line := key, seq := t.sched.seq }
  waitPast ({ t with fl := { t.fl with banks := t.fl.banks ++ [r] } }.nextSeq) key (l.touch (evDieBit addr)) 3 0 0

/-- EVSTEP gd, ga, gb (R216). -/
def execEvstep (g : Guard) (d : Reg) (a b : Src) (s : State) : Out :=
  issue (headEventWait (.evstep g d a b) g (names3 d a b) (takes2 a b)) s fun t key l0 l =>
    askBank t key l (.step ((l0.c.src b).setWidth 32)) (evAddr (l0.c.src a)) d.val

/-- EVRD.mem gd, ga (R217). -/
def execEvrdMem (g : Guard) (d : Reg) (a : Src) (s : State) : Out :=
  issue (headEventWait (.evrdMem g d a) g (names2 d a) a.takeMask) s fun t key l0 l => askBank t key l .rdMem (evAddr (l0.c.src a)) d.val

/-- EVRD.step gd, ga (R217). -/
def execEvrdStep (g : Guard) (d : Reg) (a : Src) (s : State) : Out :=
  issue (headEventWait (.evrdStep g d a) g (names2 d a) a.takeMask) s fun t key l0 l => askBank t key l .rdStep (evAddr (l0.c.src a)) d.val

/-- EVRD.late gd, ga (R217). -/
def execEvrdLate (g : Guard) (d : Reg) (a : Src) (s : State) : Out :=
  issue (headEventWait (.evrdLate g d a) g (names2 d a) a.takeMask) s fun t key l0 l => askBank t key l .rdLate (evAddr (l0.c.src a)) d.val

/-- EVWR gd, ga, gb (R218). -/
def execEvwr (g : Guard) (d : Reg) (a b : Src) (s : State) : Out :=
  issue (headEventWait (.evwr g d a b) g (names3 d a b) (takes2 a b)) s fun t key l0 l =>
    askBank t key l (.wr (l0.c.src b)) (evAddr (l0.c.src a)) d.val

/-- EVCFG (R221): the record is read before the request leaves; its faults are precise. -/
def cfgOp (i : Instr) (g : Guard) (clr : Bool) (d : Reg) (a b : Src) (s : State) : Out :=
  let h := headEventWait i g (names3 d a b) (takes2 a b)
  issue h s fun t key l0 l =>
    let va := effAddr (l0.c.src b) 0
    if s.orderBusy key l0 then idleTurn s key l0
    else if va.toNat % 32 ≠ 0 then trapOut h t key l0 0x04 (vaWord va)
    else if !s.inReach l0.c va.toNat 32 then idleTurn s key l0
    else match t.transBytes l0.c.here l0.c.asid l0.c.level .engine .read va.toNat 32 with
      | .error (f, x) => trapOut h t key l0 f.code (w64 x)
      | .ok (pas, swc) =>
        if t.poisonedAt l0.c.dieNum swc pas || pas.any t.homeGone then trapOut h t key l0 0x16 (vaWord va)
        else
          let rec_ := BitVec.ofNat 256 (leNat ((flagged pas swc).map fun y => t.loadByte (ctxName key l0) t.sched.seq l0.c.dieNum y.2 y.1))
          askBank t key l (.cfg rec_ clr) (evAddr (l0.c.src a)) d.val

/-- EVCFG gd, ga, gb (R221). -/
def execEvcfg (g : Guard) (d : Reg) (a b : Src) (s : State) : Out := cfgOp (.evcfg g d a b) g false d a b s

/-- EVCFG.clr gd, ga, gb (R221). -/
def execEvcfgClr (g : Guard) (d : Reg) (a b : Src) (s : State) : Out := cfgOp (.evcfgClr g d a b) g true d a b s

/-- FENCE.EV (R215): the context waits with kind 3 until its events are acknowledged. -/
def execFenceEv (g : Guard) (s : State) : Out :=
  issue (headEventWait (.fenceEv g) g 0 0) s fun t key l0 l =>
    let r : OrderReq := { line := key, kind := .fenceEv, pc := l0.at_, asid := l.c.asid, cluster := l.c.here, seq := t.sched.seq }
    waitPast ({ t with fl := { t.fl with orders := t.fl.orders ++ [r] } }.nextSeq) key l 3 0 0

/-! ### Requests at a bank (R212, R216 to R218, R221) -/

/-- A status in gd[63:56] (R211). -/
def evCode (n : Nat) : Word := w64 (n * 2 ^ 56)

/-- The bank of an address serves requests: no action of it goes on, and its die's CHURN bit is set (R325, R397), or the die is gone (R3). -/
def State.bankUp (s : State) (a : BitVec 32) : Bool := s.bankIdle a && (s.dieGone (evDie a) || s.isReady (evDie a) 3)

/-- What EVWR makes of a member (R218). -/
def Member.written (x : Member) (v : Word) : Member :=
  { x with v := v.setWidth 32, refr := v.extractLsb' 32 8, armed := v.getLsbD 40 }

/-- What EVCFG.clr makes of a group (R221). -/
def Group.cleared (g : Group) : Group :=
  { (List.range 256).foldl (fun (g : Group) m =>
      g.setMember m { Member.reset with v := g.resetValue, time := (g.member m).time }) g with
    S := 0, late := 0, cal := [], logn := 0 }

/-- EVRD, EVWR or EVCFG at the bank: the new state and gd. -/
def State.bankAct (s : State) (r : BankReq) : State × Word :=
  let st := s.evStatus r.addr r.asid
  if st ≠ 0 then (s, evCode st)
  else
    let gk := evGroup r.addr
    let s := s.syncGroup gk
    let g := s.group gk
    let m := evMember r.addr
    match r.what with
    | .rdMem =>
      let x := g.member m
      (s, w64 (x.v.toNat + x.refr.toNat * 2 ^ 32 + if x.armed then 2 ^ 40 else 0))
    | .rdStep => (s, w64 g.S.toNat)
    | .rdLate => (s, w64 g.late.toNat)
    | .wr v => (s.setGroup gk (g.setMember m ((g.member m).written v)), 0)
    | .cfg rec_ clr =>
      if cfgBad g rec_ clr then (s, evCode 2)
      else
        let g := { g with cfg := rec_ }
        (s.setGroup gk (if clr then g.cleared else g), 0)
    | .step _ => (s, 0)

/-- An EVSTEP at the bank (R216). -/
def State.stepAct (s : State) (r : BankReq) (S : BitVec 32) : State × Word :=
  let st := s.evStatus r.addr r.asid
  if st ≠ 0 then (s, evCode st)
  else
    let gk := evGroup r.addr
    let s := s.syncGroup gk
    let g := s.group gk
    if !g.en || g.immediate then (s, evCode 2)
    else if g.S ≠ S then (s, evCode 1 ||| w64 g.S.toNat)
    else
      (s.bankDo (gk / 256) (closeStep gk r.asid), w64 (nextStep g.S).toNat)

/-- Remove the k-th bank request. -/
def State.dropBank (s : State) (k : Nat) : State := { s with fl := { s.fl with banks := removeAt k s.fl.banks } }

/-- GROUP_REQUEST_AT_BANK (R212, R217, R218, R221): the k-th bank request, an EVRD, EVWR or EVCFG, is performed as one action. -/
def execGroupRequestAtBank (k : Nat) (s : State) : Out :=
  match nth? s.fl.banks k with
  | none => notNow "GROUP_REQUEST_AT_BANK"
  | some r =>
    match r.what with
    | .step _ => notNow "GROUP_REQUEST_AT_BANK"
    | _ =>
      if s.bankUp r.addr then
        let (t, v) := ((s.dropBank k).seenBy r.seq).bankAct r
        .next ((t.withDies s).answer r.line r.d v)
      else notNow "GROUP_REQUEST_AT_BANK"

/-- STEP_CLOSE (R216, R319): the k-th bank request, an EVSTEP, reaches its bank once the earlier events of its context are
acknowledged. -/
def execStepClose (k : Nat) (s : State) : Out :=
  match nth? s.fl.banks k with
  | none => notNow "STEP_CLOSE"
  | some r =>
    match r.what with
    | .step S =>
      if s.bankUp r.addr ∧ !(s.fl.sends.any fun b => b.2.any fun e => e.line == some r.line && decide (e.id < r.seq) && e.what.isEvent) then
        let (t, v) := ((s.dropBank k).seenBy r.seq).stepAct r S
        .next ((t.withDies s).answerAfter (evBank r.addr) r.line r.d v)
      else notNow "STEP_CLOSE"
    | _ => notNow "STEP_CLOSE"

/-- GROUP_CLEAR (R313): a bank whose group-table entry has changed clears the group. -/
def execGroupClear (gk : Nat) (s : State) : Out :=
  if (s.group gk).owner = s.groupOwner gk ∨ !(s.chain (gk / 256)).isEmpty then notNow "GROUP_CLEAR" else .next (s.syncGroup gk)

/-! ### Events at a bank (R214, R316, R330) -/

/-- A release event is accepted only after its sender's earlier accesses have been performed (R213, R303); one that the device sends when
a context has retired, after those of the contexts that have. -/
def State.eventOrdered (s : State) (e : SendEntry) (x : Ev) : Bool :=
  !x.rel ||
    match e.line with
    | some key => !s.openBefore (s.nameOf key) e.id
    | none => !(s.mem.stores.any fun y => s.nameOf (y.who / 2 ^ 14) != y.who && decide (y.seq < e.id))

/-- An event can be accepted or refused: its bank serves requests, and its order is kept. -/
def State.eventReady (s : State) (e : SendEntry) (x : Ev) : Bool := s.bankUp x.addr && s.eventOrdered e x

/-- What a sender learns from the bank's answer: a refused completion is recorded (R184), a CANCEL of a job ends (R234). -/
def State.eventAnswered (s : State) (buf : Nat) (e : SendEntry) (src : EvSrc) (ok : Bool) : State :=
  match src with
  | .completion i => if ok then s else (s.addUndeliv e.asid 1).engineError i 2 0 (bufDie buf)
  | .cancel seq => s.cancelAnswered seq
  | .pin c id => s.pinAnswered c id ok
  | .stream c id => s.streamAnswered c id ok
  | _ => s

/-- An entry whose event has been merged into another entry's. -/
def State.eventMerged (s : State) (buf id : Nat) : Bool := s.fl.sends.any fun b => b.2.any fun e => e.merged.contains (buf, id)

/-- The bank of an entry's event has taken it, and its action has not come to its end (R325). -/
def State.eventTaken (s : State) (buf id : Nat) : Bool := s.chains.any fun x => x.2.any fun w => match w with
  | .accepted b e _ _ => b == buf && e.id == id
  | _ => false

/-- The sender of an event has its answer, which frees the entry and those merged into it. -/
def State.endEvent (s : State) (buf : Nat) (e : SendEntry) (src : EvSrc) (ok : Bool) : State :=
  (((buf, e.id) :: e.merged).foldl (fun u y => u.freeEntry y.1 y.2) s).eventAnswered buf e src ok

/-- What a bank owes the sender of the event that began its action, once nothing else of the action is left. -/
def State.bankOwes (s : State) (c : Nat) : State :=
  match s.chain c with
  | [.accepted buf e src ok] =>
    let t := { s with chains := SMap.put s.chains c [] [] }
    if (t.sendsOf buf).any fun x => x.id == e.id then t.endEvent buf e src ok else t
  | _ => s

/-- A bank goes on with the action at hand (R325). -/
def bankGoesOn (c : Nat) (s : State) : Out := if (s.chain c).isEmpty then notNow "BANK" else .next ((s.bankDo c (s.chain c)).bankOwes c)

/-- EVENT_ACCEPT (R316): entry k of a send buffer, an event, reaches its bank, where it is accepted or refused; either answer frees
the entry and those merged into it, when the action that the event causes has come to its end (R325). -/
def execEventAccept (buf k : Nat) (s : State) : Out :=
  match nth? (s.sendsOf buf) k with
  | none => notNow "EVENT_ACCEPT"
  | some e =>
    match e.what with
    | .event x src =>
      if s.eventReady e x ∧ !s.eventMerged buf e.id then
        let (t, ok, l) := (s.seenBy e.id).acceptOne none x
        let c := evBank x.addr
        .next (((t.bankDo c (l.map (.event none) ++ [.accepted buf e src ok])).withDies s).bankOwes c)
      else notNow "EVENT_ACCEPT"
    | _ => notNow "EVENT_ACCEPT"

/-- Two events that a switch may merge (R330). -/
def mergeable (x y : Ev) : Bool :=
  x.addr == y.addr && x.asid == y.asid && x.step == y.step && x.step != BitVec.allOnes 32 && !x.arm && !y.arm && !x.rel && !y.rel

/-- EVENT_MERGE (R330, R383): the events of two entries become one request, whose answer acknowledges both. The second entry
is not offered on its own. -/
def execEventMerge (buf1 k1 buf2 k2 : Nat) (s : State) : Out :=
  match nth? (s.sendsOf buf1) k1, nth? (s.sendsOf buf2) k2 with
  | some e, some f =>
    match e.what, f.what with
    | .event x src, .event y _ =>
      if (buf1, e.id) ≠ (buf2, f.id) ∧ mergeable x y ∧ !s.eventMerged buf1 e.id ∧ !s.eventMerged buf2 f.id ∧ !s.eventTaken buf1 e.id ∧ !s.eventTaken buf2 f.id ∧
          src = .context ∧ f.what.isEvent then
        let z := { x with value := x.value + y.value, count := x.count + y.count }
        let t := s.setEntry buf1 e.id fun q => { q with what := .event z src, merged := e.merged ++ (buf2, f.id) :: f.merged }
        .next (t.setEntry buf2 f.id fun q => { q with merged := [] })
      else notNow "EVENT_MERGE"
    | _, _ => notNow "EVENT_MERGE"
  | _, _ => notNow "EVENT_MERGE"

end Sys2Proof.Machine
end

