-- ==== Sys2Proof/Machine/Messages.lean ====
section
/-! DEFINITION. Messages and tasks (R164 to R178); QUIT.done stands with the launches. -/

namespace Sys2Proof.Machine

/-! ### Sends (R165 to R167) -/

/-- A SEND or DEP: it waits for a free entry of its cluster's send buffer, and then leaves with the release that a fence gave it. -/
def sendOp (h : Head) (s : State) (handle : Ctx → Word) (what : Ctx → SendWhat) : Out :=
  issue h s fun t key l0 l =>
    if s.orderBusy key l0 then idleTurn s key l0
    else if t.sendFree l0.c.here then
      let x := handle l0.c
      let t := t.pushSend l0.c.here (what l0.c) (some key) l0.c.asid l0.at_ l0.fenceTags
      .next (t.setLine key (l.touch (t.handleDie l0.c.here l0.c.asid x)))
    else waitAt s key l0 4 0 0

/-- Word i of a SEND of n words from register b. -/
def sendWord (c : Ctx) (b : Reg) (n i : Nat) : Word := if i < n then c.reg (regPlus b i) else 0

/-- SEND ga, gb, n (R165). -/
def execSend (g : Guard) (n : BitVec 2) (a b : Src) (s : State) : Out :=
  let k := n.toNat + 1
  let m := spanMask b.reg.val k
  sendOp (headWait (.send g n a b) g (a.nameMask ||| m) (a.takeMask ||| if b.take then m else 0)) s (fun c => c.src a) fun c =>
    .msg (c.src a) (sendWord c b.reg k 0) (sendWord c b.reg k 1) (sendWord c b.reg k 2) (sendWord c b.reg k 3) k .context

/-- DEP ga, gm, gb (R166). -/
def execDep (g : Guard) (m : Reg) (a b : Src) (s : State) : Out :=
  sendOp (headWait (.dep g m a b) g (a.nameMask ||| b.nameMask) (takes2 a b)) s (fun c => c.src a) fun c =>
    .dep (c.src a) m.val (c.src b)

/-! ### Receives (R170, R171, R173) -/

/-- The four words of a quadruple, written. -/
def Ctx.setQuad (c : Ctx) (d : Reg) (w : Nat → Word) : Ctx :=
  (((c.setReg d (w 0)).setReg (regPlus d 1) (w 1)).setReg (regPlus d 2) (w 2)).setReg (regPlus d 3) (w 3)

/-- RECV gd:gd+3 (R170): it waits for a message, and pops the head of the ring. DESIGN CHOICE (log entry 78): a ring in a page that is not COH is read
as an engine reads (R288); R170 requires COH of the handler and names no trap. -/
def execRecv (g : Guard) (d : Reg) (s : State) : Out :=
  let h := headWait (.recv g d) g (quadMask d) 0
  issue h s fun t key l0 l =>
    if s.orderBusy key l0 then idleTurn s key l0
    else if l0.c.inboxCount = 0 then waitAt s key l0 2 0 0
    else
      let va := l0.c.headSlot
      if !s.inReach l0.c va 32 then idleTurn s key l0
      else match t.transBytes l0.c.here l0.c.asid l0.c.level .engine .read va 32 with
      | .error (f, x) => trapOut h t key l0 f.code (w64 x)
      | .ok (pas, _) =>
        if t.poisoned pas then
          trapOut h (t.memoryError 1 l0.c.asid l0.handle (vaWord l0.at_) (w64 va) (pas.headD 0) 0 l0.c.dieNum) key l0 0x16 (w64 va)
        else
          let w := fun (i : Nat) => w64 (leNat (t.readBytes ((pas.drop (8 * i)).take 8)))
          let l := { l with c := (l.c.setQuad d w).popInbox }
          .next (t.setLine key (l.hear (t.tagsAt l0.c.dieNum [] (pas.take 1))))

/-- QRED.t gd, ga la=n (R171): it waits behind an earlier reduction of the context, and hands its two registers to the reducer. -/
def execQred (g : Guard) (la : BitVec 4) (k : RedKind) (d a : Reg) (s : State) : Out :=
  let h := headLong (.qred g la k d a) g la (regMask d ||| regMask a) 0
  issue h s fun t key l0 l =>
    if s.orderBusy key l0 then idleTurn s key l0
    else if s.redRegs key ≠ 0 then waitAt s key l0 8 0 (s.redRegs key)
    else
      let r : Reduction :=
        { line := key, kind := k, acc := l0.c.reg d, cnt := (l0.c.reg a).toNat, dreg := d.val, areg := a.val, pc := l0.at_, word := h.word
          seq := t.sched.seq }
      let l := { l.pending (regMask d ||| regMask a) with qred := (l0.at_, h.word) }
      .next (({ t with fl := { t.fl with reds := t.fl.reds ++ [r] } }.nextSeq).setLine key l)

/-- A request leaves for a line's owner. -/
def State.askOwner (t : State) (key : Nat) (l : Line) (what : OwnerWhat) (h : Word) (d : Nat) : State :=
  let r : OwnerReq :=
    { what := what, until_ := none, asid := l.c.asid, handle := h, d := d, line := key, die := l.c.dieNum, seq := t.sched.seq }
  { t with fl := { t.fl with owners := t.fl.owners ++ [r] } }.nextSeq

/-- The ticks that an RGET waits: 2^20 - 1 at most (R173). -/
def rgetTicks (x : Word) : Nat := min x.toNat (2 ^ 20 - 1)

/-- RGET gd, pj:pj+1, ga, m, gb la=n (R173). -/
def execRget (g : Guard) (la : BitVec 4) (m : Reg) (pk : BitVec 2) (d : Reg) (a b : Src) (s : State) : Out :=
  issue (headLong (.rget g la m pk d a b) g la (names3 d a b) (takes2 a b)) s fun t key l0 l =>
    let x := l0.c.src a
    let l := (l.pending (regMask d)).touch (t.handleDie l0.c.here l0.c.asid x)
    if t.orderBusy key l0 then idleTurn t key l0
    else .next ((t.askOwner key l (.rget m.val pk (rgetTicks (l0.c.src b))) x d.val).setLine key l)

/-! ### Tasks (R174 to R178) -/

/-- A pool can give a line: it is not empty (R350, R351). -/
def State.poolReady (s : State) (c : Nat) (a : BitVec 12) : Bool := !s.clusterGone c && (s.poolPeek c a).isSome

/-- The cluster of a list whose pool has the largest TOP; the earliest of a tie. -/
def State.fullestPool (s : State) (a : BitVec 12) (l : List Nat) : Option Nat :=
  (l.foldl (fun (r : Option (Nat × Nat)) c =>
    if s.poolReady c a then
      match r with
      | none => some (c, s.poolTop c a)
      | some (b, n) => if n < s.poolTop c a then some (c, s.poolTop c a) else some (b, n)
    else r) none).map (·.1)

/-- The home of a SPAWN to any cluster (R351); none when every pool of the ASID is empty. -/
def State.anyHome (s : State) (issuer : Nat) (a : BitVec 12) : Option Nat :=
  if s.poolReady issuer a then some issuer
  else
    (s.fullestPool a (rangeFrom (dieOf issuer * 48) 48)).or ((List.range Config.clusters).find? fun c => s.poolReady c a)

/-- What a SPAWN makes (R174). -/
def spawnedBy (l0 : Line) (key seq : Nat) (entry time : Word) : NewCtx :=
  { regs := [l0.c.g[0], l0.c.g[1], l0.c.g[2], l0.c.g[3]], pc := entry.setWidth 57, cls := l0.c.st.cls, priv := l0.c.st.priv, roam := false
    asid := l0.c.asid, launch := l0.c.launch, floor := time, dies := 0, onIssue := some time, after := some (ctxName key l0, seq) }

/-- The context waits for a line with kind 5 and keeps its place among those that wait (R351). -/
def State.awaitPool (s : State) (key home : Nat) : State :=
  if s.ctx.spawnWait.contains (key, home) then s
  else { s with ctx := { s.ctx with spawnWait := (s.ctx.spawnWait.filter fun x => x.1 != key) ++ [(key, home)] } }

/-- SPAWN gd, ga, gb (R174). DESIGN CHOICE (log entry 74): a bad cluster is found before a bad entry. -/
def execSpawn (g : Guard) (d : Reg) (a b : Src) (s : State) : Out :=
  let h := headWait (.spawn g d a b) g (names3 d a b ||| spanMask 0 4) (takes2 a b)
  issue h s fun t key l0 l =>
    let v := l0.c.src a
    let e := l0.c.src b
    let any := v == BitVec.allOnes 64
    if !any && decide (192 ≤ v.toNat) then trapOut h t key l0 0x07 v
    else if e &&& 7 ≠ 0 then trapOut h t key l0 0x05 e
    else if !any && s.clusterGone v.toNat then .next (t.setLine key { l with c := l.c.setReg d 0 })
    else
      let home := if any then s.anyHome l0.c.here l0.c.asid else some v.toNat
      let (l, time) := l.stamp t
      if home.any fun c => !s.reaches narrow l0.c.dieNum (dieOf c) then idleTurn s key l0
      else match home.bind fun c => t.createFrom c l0.c.asid (spawnedBy l0 key t.sched.seq e time) with
      | some (t, child) => .next (t.setLine key { l with c := l.c.setReg d child.handle })
      | none =>
        let obj := v.toNat % 256
        waitAt (s.awaitPool key obj) key l0 5 (BitVec.ofNat 60 obj) 0

/-- The waits of QUIT (R175): for pending results, then for acknowledgements; none when both are over. -/
def quitWait (s : State) (key : Nat) (l0 : Line) : Option Out :=
  if l0.c.st.pend ≠ 0 then some (waitAt s key l0 8 0 0xFF)
  else if s.unacked key then some (waitAt s key l0 4 0 1)
  else none

/-- QUIT (R175). -/
def execQuit (g : Guard) (s : State) : Out :=
  issue (headWait (.quit g) g 0 0) s fun t key l0 l => (quitWait s key l0).getD (.next (t.retire key l))

/-- MIG ga (R176). -/
def execMig (g : Guard) (a : Src) (s : State) : Out :=
  let h := headWait (.mig g a) g a.nameMask a.takeMask
  issue h s fun t key l0 l =>
    let v := l0.c.src a
    if 192 ≤ v.toNat then trapOut h t key l0 0x07 v
    else if v.toNat = l0.c.here then .next (t.setLine key l)
    else if t.clusterGone v.toNat then trapOut h t key l0 0x20 0
    else .next (t.leaveFor key l v.toNat 0)

/-- What SELF writes (R177). -/
def selfWord (l : Line) (f : SelfFact) : Word :=
  match f with
  | .handle => l.handle
  | .ident => l.c.identWord
  | .loc => w64 (l.c.here + l.c.st.unit.toNat * 2 ^ 8 + l.c.st.slot.toNat * 2 ^ 10)
  | .inbox => w64 l.c.inboxCount.toNat

/-- SELF.f gd (R177). -/
def execSelf (g : Guard) (f : SelfFact) (d : Reg) (s : State) : Out :=
  issue (headOf (.self g f d) g (regMask d) 0) s fun t key l0 l => .next (t.setLine key { l with c := l.c.setReg d (selfWord l0 f) })

/-- A line with other full bits. -/
def Ctx.setFull (c : Ctx) (m : BitVec 8) : Ctx := { c with st := { c.st with full := m } }

/-- FSET (R178). -/
def execFset (g : Guard) (m : BitVec 8) (s : State) : Out :=
  issueReg (headOf (.fset g m) g m 0) s fun _ c => c.setFull (c.st.full ||| m)

/-- FCLR (R178). -/
def execFclr (g : Guard) (m : BitVec 8) (s : State) : Out :=
  issueReg (headOf (.fclr g m) g m 0) s fun _ c => c.setFull (c.st.full &&& ~~~m)

end Sys2Proof.Machine
end

