-- ==== Sys2Proof/Machine/System.lean ====
section
/-! DEFINITION. System instructions (R222 to R235) but LAUNCH and CANCEL, the control and status registers (R226 to R229, R356, R375,
R397, R401, R404) and the device's writes of them. -/

namespace Sys2Proof.Machine

/-! ### Traps on purpose (R223) -/

/-- TRAP n, ga (R223): code 0x40 + n, the detail is ga, the PC word is past the TRAP. -/
def execTrap (g : Guard) (n : BitVec 4) (a : Src) (s : State) : Out :=
  let h := headWait (.trap g n a) g a.nameMask a.takeMask
  issue h s fun t key l0 l =>
    .next (t.takeTrap key l
      { code := 0x40 + n.setWidth 8, pc := l.c.pc, obj := l0.reissue.map markerObj, at_ := l0.at_
        src := if l0.jumped && l0.reissue.isNone then l0.src else l0.at_, va := 0, word := h.word, detail := l0.c.src a })

/-- BKPT (R223): the PC word holds its own address. -/
def execBkpt (g : Guard) (s : State) : Out :=
  let h := headWait (.bkpt g) g 0 0
  issue h s fun t key l0 _ => .next (issueTrap t key l0 h.word 0x30 0 0)

/-! ### RESUME and EVICT (R224, R231) -/

/-- The head of a system instruction that needs supervisor privilege (R222). -/
def headSuper (i : Instr) (g : Guard) (names takes : BitVec 8) : Head := { headWait i g names takes with level := 1 }

/-- RESUME gd, ga (R224): a release at PKG scope, and then a request at the target's owner. -/
def execResume (g : Guard) (d : Reg) (a : Src) (s : State) : Out :=
  issue (headSuper (.resume g d a) g (names2 d a) a.takeMask) s fun t key l0 l =>
    let (l, _) := l.stamp t
    waitPast (t.askOwner key l .resume (l0.c.src a) d.val) key l 3 0 0

/-- The line that a handle names is the context's own. -/
def State.isSelf (s : State) (key : Nat) (l : Line) (h : Word) : Bool :=
  match s.target l.c.here l.c.asid h with
  | .line k _ _ => k == key
  | _ => false

/-- EVICT (R231): of the issuing context itself at the end of its turn, of another by a request at its owner. -/
def evictOp (i : Instr) (g : Guard) (toMem : Bool) (d : Reg) (a : Src) (s : State) : Out :=
  issue (headSuper i g (names2 d a) a.takeMask) s fun t key l0 l =>
    let x := l0.c.src a
    if t.isSelf key l0 x then
      match (t.setLine key { l with c := l.c.setReg d 0 }).evictAt l0.c.here l0.c.asid x toMem with
      | some (u, _) => .next u
      | none => idleTurn s key l0
    else waitPast (t.askOwner key l (.evict toMem) x d.val) key l 3 0 0

/-- EVICT.l2 gd, ga (R231). -/
def execEvictL2 (g : Guard) (d : Reg) (a : Src) (s : State) : Out := evictOp (.evictL2 g d a) g false d a s

/-- EVICT.mem gd, ga (R231). -/
def execEvictMem (g : Guard) (d : Reg) (a : Src) (s : State) : Out := evictOp (.evictMem g d a) g true d a s

/-! ### Control and status registers (R225 to R229) -/

/-- The registers of R226. -/
inductive CsrName where
  | profileMask | ctxHandler | undelivCount | evRefused | trapRing | trapHead | trapTail | trapOverflow | arrivalLimit | readyMap
  | dieOrient | powerStatus | secverFuse | tenantWeight
  deriving DecidableEq, Repr

/-- The register of a number (R226). -/
def csrOf (n : BitVec 12) : Option CsrName :=
  match n.toNat with
  | 0x001 => some .profileMask
  | 0x010 => some .ctxHandler
  | 0x011 => some .undelivCount
  | 0x012 => some .evRefused
  | 0x013 => some .trapRing
  | 0x014 => some .trapHead
  | 0x015 => some .trapTail
  | 0x016 => some .trapOverflow
  | 0x020 => some .arrivalLimit
  | 0x030 => some .readyMap
  | 0x031 => some .dieOrient
  | 0x032 => some .powerStatus
  | 0x033 => some .secverFuse
  | 0x040 => some .tenantWeight
  | _ => none

/-- The least privilege of a read (R226). -/
def CsrName.readLevel : CsrName → Nat
  | .profileMask | .undelivCount | .evRefused | .arrivalLimit | .readyMap | .dieOrient | .powerStatus | .secverFuse => 0
  | .ctxHandler | .trapRing | .trapHead | .trapTail | .trapOverflow | .tenantWeight => 1

/-- The least privilege of a write; none for a read-only register (R226). -/
def CsrName.writeLevel : CsrName → Option Nat
  | .trapHead | .readyMap | .dieOrient | .powerStatus => none
  | .secverFuse | .tenantWeight => some 3
  | .profileMask | .ctxHandler | .undelivCount | .evRefused | .trapRing | .trapTail | .trapOverflow | .arrivalLimit => some 1

/-- DIE_ORIENT of a die (R375). -/
def dieOrient (d : Nat) : Word :=
  match d with
  | 0 => 0xD000
  | 1 => 0x2501
  | 2 => 0x7A02
  | _ => 0x8F03

/-- ARRIVAL_LIMIT of a cluster (R229). -/
def State.arrivalLimit (s : State) (c : Nat) : Nat := SMap.getD s.ctx.limits c 64

/-- The value of a register for an ASID at a cluster (R226). -/
def State.csrRead (s : State) (a : BitVec 12) (c : Nat) (r : CsrName) : Word :=
  let x := s.asidRegs a
  match r with
  | .profileMask => x.profile.setWidth 64
  | .ctxHandler => x.handler
  | .undelivCount => x.undeliv
  | .evRefused => x.refused
  | .trapRing => (x.ringBase.setWidth 64 <<< 12) ||| x.ringSize.setWidth 64
  | .trapHead => x.ringHead.setWidth 64
  | .trapTail => x.ringTail.setWidth 64
  | .trapOverflow => x.ringOver
  | .arrivalLimit => w64 (s.arrivalLimit c)
  | .readyMap => s.mgmt.ready
  | .dieOrient => dieOrient (dieOf c)
  | .powerStatus =>
    w64 (s.mgmt.power.toNat + s.mgmt.limit.toNat * 2 ^ 16 + (if s.mgmt.alarm then 2 ^ 28 else 0) + s.mgmt.rises.toNat * 2 ^ 32)
  | .secverFuse => s.mgmt.secver.setWidth 64
  | .tenantWeight => (x.quota.setWidth 64 <<< 32) ||| x.weight.setWidth 64

/-- SIZE of a trap ring as it is stored (R228). -/
def ringSizeOf (v : BitVec 5) : BitVec 5 := if 6 ≤ v.toNat ∧ v.toNat ≤ 16 then v else 0

/-- A write of TRAP_RING (R228): TRAP_HEAD and TRAP_TAIL become 0. -/
def AsidRegs.setRing (x : AsidRegs) (v : Word) : AsidRegs :=
  { x with ringBase := v.extractLsb' 12 45, ringSize := ringSizeOf (v.setWidth 5), ringHead := 0, ringTail := 0 }

/-- A write of TENANT_WEIGHT (R356). -/
def AsidRegs.setWeight (x : AsidRegs) (v : Word) : AsidRegs :=
  { x with quota := (if (v.extractLsb' 32 11).toNat ≤ 1024 then v.extractLsb' 32 11 else 0)
           weight := if v.setWidth 16 = (0 : BitVec 16) then 1 else v.setWidth 16 }

/-- The limit that a write of ARRIVAL_LIMIT stores (R229). -/
def limitOf (v : Word) : Nat := let n := v.toNat % 128; if n = 0 ∨ 64 < n then 64 else n

/-- A write of ARRIVAL_LIMIT of a cluster (R229). -/
def State.setArrivalLimit (s : State) (c : Nat) (v : Word) : State :=
  { s with ctx := { s.ctx with limits := SMap.put s.ctx.limits c (limitOf v) 64 } }

/-- A write of SECVER_FUSE (R401). -/
def State.burnSecver (s : State) (v : Word) : State :=
  { s with mgmt := { s.mgmt with secver := if s.mgmt.secver.ult (v.setWidth 32) then v.setWidth 32 else s.mgmt.secver } }

/-- A write of a register for an ASID at a cluster (R226 to R229, R356, R401): reserved bits are ignored. -/
def State.csrWrite (s : State) (a : BitVec 12) (c : Nat) (r : CsrName) (v : Word) : State :=
  let x := s.asidRegs a
  match r with
  | .profileMask => s.setAsid a { x with profile := (v.setWidth 4 &&& 0xE) ||| 1 }
  | .ctxHandler => s.setAsid a { x with handler := v }
  | .undelivCount => s.setAsid a { x with undeliv := v }
  | .evRefused => s.setAsid a { x with refused := v }
  | .trapRing => s.setAsid a (x.setRing v)
  | .trapTail => s.setAsid a { x with ringTail := v.setWidth 32 }
  | .trapOverflow => s.setAsid a { x with ringOver := v }
  | .arrivalLimit => s.setArrivalLimit c v
  | .secverFuse => s.burnSecver v
  | .tenantWeight => s.setAsid a (x.setWeight v)
  | .trapHead | .readyMap | .dieOrient | .powerStatus => s

/-- The head of an access to a control register: an unlisted number, or a write form of a read-only register, is an illegal encoding
with detail 8, and the privilege is the register's (R225, R226). -/
def headCsr (i : Instr) (g : Guard) (num : BitVec 12) (wr : Bool) (names takes : BitVec 8) : Head :=
  let h := headOf i g names takes
  match csrOf num with
  | none => { h with bad := some 8 }
  | some r =>
    if wr then
      match r.writeLevel with
      | none => { h with bad := some 8 }
      | some n => { h with level := max n r.readLevel }
    else { h with level := r.readLevel }

/-- A control register read into gd, and written where the form writes it (R225). -/
def csrOp (h : Head) (num : BitVec 12) (d : Reg) (new : Word → Ctx → Option Word) (s : State) : Out :=
  issue h s fun t key l0 l =>
    match csrOf num with
    | none => .next (t.setLine key l)
    | some r =>
      let old := t.csrRead l0.c.asid l0.c.here r
      let t := match new old l0.c with
        | some v => t.csrWrite l0.c.asid l0.c.here r v
        | none => t
      .next (t.setLine key { l with c := l.c.setReg d old })

/-- CSRR gd, csr (R225). -/
def execCsrr (g : Guard) (d : Reg) (num : BitVec 12) (s : State) : Out :=
  csrOp (headCsr (.csrr g d num) g num false (regMask d) 0) num d (fun _ _ => none) s

/-- CSRW gd, csr, ga (R225). -/
def execCsrw (g : Guard) (d : Reg) (a : Src) (num : BitVec 12) (s : State) : Out :=
  csrOp (headCsr (.csrw g d a num) g num true (names2 d a) a.takeMask) num d (fun _ c => some (c.src a)) s

/-- CSRS gd, csr, ga (R225). -/
def execCsrs (g : Guard) (d : Reg) (a : Src) (num : BitVec 12) (s : State) : Out :=
  csrOp (headCsr (.csrs g d a num) g num true (names2 d a) a.takeMask) num d (fun old c => some (old ||| c.src a)) s

/-- CSRC gd, csr, ga (R225). -/
def execCsrc (g : Guard) (d : Reg) (a : Src) (num : BitVec 12) (s : State) : Out :=
  csrOp (headCsr (.csrc g d a num) g num true (names2 d a) a.takeMask) num d (fun old c => some (old &&& ~~~(c.src a))) s

/-! ### The same writes as steps of the device -/

/-- TRAP_RING_WRITE (R228). -/
def execTrapRingWrite (asid : BitVec 12) (v : Word) (s : State) : Out := .next (s.setAsid asid ((s.asidRegs asid).setRing v))

/-- SECVER_FUSE_WRITE (R401). -/
def execSecverFuseWrite (v : Word) (s : State) : Out := .next (s.burnSecver v)

/-- ARRIVAL_LIMIT_WRITE (R229). -/
def execArrivalLimitWrite (c : Nat) (v : Word) (s : State) : Out :=
  if c < Config.clusters then .next (s.setArrivalLimit c v) else notNow "ARRIVAL_LIMIT_WRITE"

/-- TENANT_WEIGHT_WRITE (R356). -/
def execTenantWeightWrite (asid : BitVec 12) (v : Word) (s : State) : Out := .next (s.setAsid asid ((s.asidRegs asid).setWeight v))

/-! ### Translations, time, the touched-dies mask (R230, R232, R235) -/

/-- TLBINV.scope ga, gb (R230). -/
def execTlbinvRange (g : Guard) (sc : Scope) (a b : Src) (s : State) : Out :=
  let h := headSuper (.tlbinvRange g sc a b) g (a.nameMask ||| b.nameMask) (takes2 a b)
  issue h s fun t key l0 l =>
    let lo := (l0.c.src a).toNat % 2 ^ 57
    let n := (l0.c.src b).toNat
    if 2 ^ 57 < lo + n then trapOut h t key l0 0x08 0
    else if n = 0 then .next (t.setLine key l)
    else beginOrder t key l0.at_ l (.tlbinv sc lo (lo + n))

/-- TLBINV.all.scope (R230). -/
def execTlbinvAll (g : Guard) (sc : Scope) (s : State) : Out :=
  issue (headSuper (.tlbinvAll g sc) g 0 0) s fun t key l0 l => beginOrder t key l0.at_ l (.tlbinv sc 0 (2 ^ 57))

/-- TIME gd (R232). -/
def execTime (g : Guard) (d : Reg) (s : State) : Out :=
  issue (headOf (.time g d) g (regMask d) 0) s fun t key _ l =>
    let (l, time) := l.stamp t
    .next (t.setLine key { l with c := l.c.setReg d time })

/-- MASKCLR (R235): it orders as FENCE.sc.pkg does, and carries a release as that does (R299, R305). -/
def execMaskclr (g : Guard) (s : State) : Out :=
  issue (headWait (.maskclr g) g 0 0) s fun t key l0 l =>
    beginOrder t key l0.at_ (l.fenced t key .pkg) .maskclr

end Sys2Proof.Machine
end

