-- ==== Sys2Proof/Machine/Launch.lean ====
section
/-! DEFINITION. Launches: LAUNCH, CANCEL and QUIT.done (R175, R233, R234, R331, R336 to R346), spawn requests (R327, R342, R350, R351), and
what the host submits (R347, R348). -/

namespace Sys2Proof.Machine

/-! ### Reading the request and the maquette (R233, R336, R339, R341) -/

/-- An access of LAUNCH that a precise trap ends: its code and the address (R233). -/
abbrev LaunchTrap := BitVec 8 × Nat

/-- Bytes that LAUNCH reads for its context. -/
def State.launchRead (s : State) (c : Ctx) (va n : Nat) : Except LaunchTrap (List Byte) :=
  match s.transBytes c.here c.asid c.level .engine .read (va % 2 ^ 57) n with
  | .error (f, x) => .error (f.code, x)
  | .ok (pas, swc) =>
    match s.firstBad c.dieNum swc pas with
    | some i => .error (0x16, (va + i) % 2 ^ 57)
    | none => .ok (s.seenBytes c.dieNum swc pas)

/-- Bytes that LAUNCH writes for its context. -/
def State.launchWrite (s : State) (c : Ctx) (va : Nat) (bytes : List Byte) : Except LaunchTrap State :=
  match s.transBytes c.here c.asid c.level .engine .write (va % 2 ^ 57) bytes.length with
  | .error (f, x) => .error (f.code, x)
  | .ok (pas, swc) =>
    match s.firstBad c.dieNum swc pas with
    | some i => .error (0x16, (va + i) % 2 ^ 57)
    | none => .ok (((s.syncTable pas).performWrite c.dieNum swc pas bytes []).servePushes s pas)

/-- The request and the maquette of a LAUNCH are in reach (R19, R377). -/
def State.launchReach (s : State) (c : Ctx) (va : Nat) : Bool :=
  s.inReach c va 128 && (match s.launchRead c va 128 with
    | .error _ => true
    | .ok l =>
      let m := wordAt l 0 % 2 ^ 57
      s.inReach c m 64 && (match s.launchRead c m 64 with
        | .error _ => true
        | .ok h => s.inReach c m (64 + 64 * (wordAt h 0 % 2 ^ 8))))

/-- A launch request (R339). -/
structure LaunchReq where
  maq : Nat
  ni : Nat
  job : Nat
  done : Word
  jobacc : BitVec 32
  acl : Option Nat
  work : Nat
  worksz : Nat
  /-- A bit that must be zero is not, or a base is not aligned. -/
  bad : Bool
  deriving DecidableEq, Repr

/-- A launch request from its 128 bytes (R339). -/
def launchReqOf (l : List Byte) : LaunchReq :=
  let w := wordAt l
  { maq := w 0 % 2 ^ 57, ni := w 1 % 2 ^ 13, job := w 1 / 2 ^ 32 % 2 ^ 16, done := w64 (w 2), jobacc := BitVec.ofNat 32 (w 3)
    acl := if w 4 / 2 ^ 8 % 2 = 1 then some (w 4 % 2 ^ 8) else none
    work := w 5 % 2 ^ 57, worksz := w 6 % 2 ^ 32
    bad := decide (2 ^ 57 ≤ w 0) || w 0 % 64 != 0 || w 1 / 2 ^ 13 % 2 ^ 19 != 0 || decide (2 ^ 48 ≤ w 1) || decide (2 ^ 32 ≤ w 3) ||
      decide (2 ^ 9 ≤ w 4) || decide (2 ^ 57 ≤ w 5) || w 5 % 4096 != 0 || decide (2 ^ 32 ≤ w 6) ||
      (List.range 9).any fun k => w (7 + k) != 0 }

/-- The nodes n to NN - 1 of a maquette. -/
def State.readNodes (s : State) (c : Ctx) (maq : Nat) : Nat → Nat → Except LaunchTrap (List Node)
  | 0, _ => .ok []
  | k + 1, n =>
    match s.launchRead c (maq + 64 + 64 * n) 64 with
    | .error e => .error e
    | .ok l =>
      match State.readNodes s c maq k (n + 1) with
      | .error e => .error e
      | .ok r => .ok (nodeOf l :: r)

/-- The nodes of a maquette; none for a bad header (R336). -/
def State.readMaquette (s : State) (c : Ctx) (maq : Nat) : Except LaunchTrap (Option (List Node)) :=
  match s.launchRead c maq 64 with
  | .error e => .error e
  | .ok h =>
    let nn := wordAt h 0
    if nn = 0 ∨ 256 ≤ nn ∨ (List.range 7).any (fun k => wordAt h (k + 1) != 0) then .ok none
    else match s.readNodes c maq nn 0 with
      | .error e => .error e
      | .ok l => .ok (some l)

/-! ### What LAUNCH takes (R341) -/

/-- The instances of a node. -/
def Node.count (n : Node) (ni : Nat) : Nat := if n.ninst = 0 then ni else n.ninst
/-- The groups that a node with a dependence count takes. -/
def Node.groups (n : Node) (ni : Nat) : Nat := (n.count ni + 255) / 256
/-- A valid edge to a node that is not there. -/
def Node.badEdge (n : Node) (nn : Nat) : Bool := (List.range 4).any fun e => n.edge e / 256 % 2 == 1 && decide (nn ≤ n.edge e % 256)

/-- The first groups of the runs of k free groups of a cluster besides those taken already. -/
def State.runStarts (s : State) (a : Nat) (taken : List Nat) (k : Nat) : List Nat :=
  if !s.mgmt.based then []
  else
    ((List.range (257 - k)).filter fun g =>
      (List.range k).all fun j => (s.groupOwner (a * 256 + g + j)).isNone && !taken.contains (a * 256 + g + j)).map fun g => a * 256 + g

/-- Runs of groups besides those taken, each run where the later ones still find their places: none when there is no such choice. -/
def State.freeRuns (s : State) (a : Nat) : List Nat → List Nat → Option (List Nat)
  | _, [] => some []
  | taken, k :: l => (s.runStarts a taken k).findSome? fun g => (State.freeRuns s a (taken ++ rangeFrom g k) l).map fun r => g :: r

/-- The spawn requests that LAUNCH has queued, or will queue, and whose homes have not served them, by the backlog that each has reserved. -/
def State.reserved (s : State) (c : Nat) : Nat :=
  (s.fl.spawns.filter fun r => r.origin == .launch && r.home.getD r.issuer == c).length +
    (s.fl.launches.flatMap fun w => w.roots.filter fun x => (x.2.1.homeOf x.2.2).getD w.cluster == c).length

/-- The instances with no dependence: node number, node, instance. -/
def roots (nodes : List Node) (ni : Nat) : List (Nat × Node × Nat) :=
  ((List.range nodes.length).zip nodes).flatMap fun x =>
    if x.2.deps = 0 then (List.range (x.2.count ni)).map fun i => (x.1, x.2, i) else []

/-- The spawn backlogs can reserve one entry for each root. -/
def State.canReserve (s : State) (issuer : Nat) (rs : List (Nat × Node × Nat)) : Bool :=
  let homes := rs.map fun x => (x.2.1.homeOf x.2.2).getD issuer
  homes.dedup.all fun c =>
    s.clusterGone c || decide ((s.backlog c).length + s.reserved c + (homes.filter (· == c)).length ≤ Config.backlogEntries)

/-- What a LAUNCH that succeeds takes. -/
structure LaunchPlan where
  req : LaunchReq
  nodes : List Node
  slot : Nat
  /-- The group L. -/
  own : Nat
  /-- Each node with a dependence count, by number, with the first group of its run. -/
  runs : List (Nat × Nat)
  deriving DecidableEq, Repr

/-- How a LAUNCH turns out before it writes anything. -/
inductive LaunchFate where
  | trap (t : LaunchTrap)
  | status (n : Nat)
  | plan (p : LaunchPlan)
  deriving DecidableEq, Repr

/-- The checks of R341 with status 1. -/
def State.launchBad (s : State) (r : LaunchReq) (nodes : List Node) : Bool :=
  (nodes.any fun n => s.nodeBad n || n.badEdge nodes.length || n.count r.ni == 0 || decide (4096 < n.count r.ni)) ||
    (match r.acl with
     | some a => s.clusterGone a
     | none => false)

/-- The checks of R341 with status 2, on the slot and the runs of groups that are free: the launch's own group first. -/
def State.launchPick (s : State) (c : Ctx) (r : LaunchReq) (nodes : List Node) (deps : List (Nat × Node)) (need : Nat) :
    Option Nat → Option (List Nat) → LaunchFate
  | some slot, some (own :: runs) =>
    if (1 < need ∧ r.worksz < 1024 + 64 * (need - 1)) ∨ !s.canReserve c.here (roots nodes r.ni) then .status 2
    else .plan { req := r, nodes := nodes, slot := slot, own := own, runs := (deps.map (·.1)).zip runs }
  | some _, some [] => .status 2
  | some _, none => .status 2
  | none, _ => .status 2

/-- What a launch takes (R341): a free slot, and groups for itself and for each dependent node. -/
def State.launchTake (s : State) (c : Ctx) (r : LaunchReq) (nodes : List Node) : LaunchFate :=
  let a := r.acl.getD c.here
  let deps := ((List.range nodes.length).zip nodes).filter fun x => x.2.deps != 0
  let sizes := deps.map fun x => x.2.groups r.ni
  s.launchPick c r nodes deps (1 + sizes.sum) ((List.range Config.launchSlots).find? fun k => (SMap.get? s.launch.table k).isNone)
    (s.freeRuns a [] (1 :: sizes))

/-- LAUNCH as far as its checks (R233, R341). -/
def State.launchFate (s : State) (c : Ctx) (va : Nat) : LaunchFate :=
  match s.launchRead c va 128 with
  | .error t => .trap t
  | .ok l =>
    let r := launchReqOf l
    if r.bad then .status 1
    else
      match s.readMaquette c r.maq with
      | .error t => .trap t
      | .ok none => .status 1
      | .ok (some nodes) => if s.launchBad r nodes then .status 1 else s.launchTake c r nodes

/-! ### What LAUNCH does (R331, R341) -/

/-- The configuration record of a launch's groups: EN, IMMEDIATE, INT32, LE 0, RESET 0x7FFF_FFFF. -/
def launchCfg (action arg0 : Nat) : BitVec 256 :=
  BitVec.ofNat 256 (2 ^ 35 + 2 ^ 36 + action * 2 ^ 57 + 2 ^ 63 + 0x7FFFFFFF * 2 ^ 96 + arg0 * 2 ^ 128)

/-- Take a group for an ASID and configure it, with the value of each member. -/
def State.seedGroup (s : State) (gk : Nat) (asid : BitVec 12) (cfg : BitVec 256) (v : Nat → BitVec 32) : State :=
  let t := ((s.syncGroup gk).writeNat (s.groupEntry gk) 8 (2 ^ 63 + asid.toNat)).syncGroup gk
  t.setGroup gk ((List.range 256).foldl (fun (g : Group) m => g.setMember m { Member.reset with v := v m }) { t.group gk with cfg := cfg })

/-- The node of a number. -/
def LaunchPlan.node (p : LaunchPlan) (n : Nat) : Node := p.nodes.getD n { w := [] }
/-- The instances of each node. -/
def LaunchPlan.insts (p : LaunchPlan) : List Nat := p.nodes.map fun n => n.count p.req.ni
/-- The dependence groups in order: node number, number within its run, group. -/
def LaunchPlan.deps (p : LaunchPlan) : List (Nat × Nat × Nat) :=
  p.runs.flatMap fun x => (List.range ((p.node x.1).groups p.req.ni)).map fun k => (x.1, k, x.2 + k)

/-- The copy of a node that a dependence group names (R341). -/
def LaunchPlan.copy (p : LaunchPlan) (n k : Nat) : List Byte :=
  ((p.node n).w.set 4 (p.slot + 256 * k * 2 ^ 32)).flatMap (leBytes 8)

/-- The m-th dependence group, with its copy. -/
def State.launchDep (s : State) (c : Ctx) (p : LaunchPlan) (m n k gk : Nat) : Except LaunchTrap State :=
  let at_ := (p.req.work + 1024 + 64 * m) % 2 ^ 57
  match s.launchWrite c at_ (p.copy n k) with
  | .error t => .error t
  | .ok s =>
    let x := p.node n
    .ok (s.seedGroup gk c.asid (launchCfg 3 at_) fun j =>
      if 256 * k + j < x.count p.req.ni then BitVec.ofNat 32 x.deps else 0x7FFFFFFF)

/-- All of them from the m-th. -/
def State.launchDeps (s : State) (c : Ctx) (p : LaunchPlan) : Nat → List (Nat × Nat × Nat) → Except LaunchTrap State
  | _, [] => .ok s
  | m, (n, k, gk) :: l =>
    match s.launchDep c p m n k gk with
    | .error t => .error t
    | .ok s => State.launchDeps s c p (m + 1) l

/-- The map entry of a node: G(n), or 0. -/
def LaunchPlan.mapEntry (p : LaunchPlan) (n : Nat) : Nat :=
  ((p.runs.find? fun x => x.1 == n).map fun x => (groupAddr x.2).toNat).getD 0

/-- The map of the work area: a word for each node. -/
def LaunchPlan.map (p : LaunchPlan) : List Byte := (List.range p.nodes.length).flatMap fun n => leBytes 4 (p.mapEntry n)

/-- The launch as its slot holds it (R340). -/
def LaunchPlan.record (p : LaunchPlan) (asid : BitVec 12) : Launch :=
  { asid := asid, job := p.req.job, jobacc := p.req.jobacc, maq := p.req.maq, work := p.req.work, group := p.own
    groups := p.deps.map fun x => (x.2.2, x.1), insts := p.insts, cancelled := false, byJob := false }

/-- The groups, the copies, the map and the slot of a launch, or the trap of a write into its work area, which leaves nothing. -/
def State.launchBuild (s : State) (c : Ctx) (p : LaunchPlan) : Except LaunchTrap State :=
  let own := s.seedGroup p.own c.asid (launchCfg (if p.req.done = 0 then 0 else 2) p.req.done.toNat) fun m =>
    if m = 0 then BitVec.ofNat 32 p.insts.sum else 0x7FFFFFFF
  match own.launchDeps c p 0 p.deps with
  | .error t => .error t
  | .ok s =>
    match s.launchWrite c p.req.work p.map with
    | .error t => .error t
    | .ok s => .ok { s with launch := { s.launch with table := SMap.set s.launch.table p.slot (p.record c.asid) } }

/-- The spawn request of one root, or its drop when its arguments cannot be read (R342). -/
def State.launchRoot (s : State) (w : LaunchWait) (x : Nat × Node × Nat) : State :=
  let (n, node, i) := x
  match s.devRead w.cluster w.asid ((node.args + node.stride * i) % 2 ^ 57) 32 with
  | .error (_, va) =>
    (s.eventError 4 w.asid 0 0 (w64 va) 0 (dieOf w.cluster)).dropSpawn (some (w.slot, n, i)) w.cluster w.asid w.time
  | .ok a =>
    s.pushSpawn (node.request i ((List.range 4).map fun k => w64 (wordAt a k)) w.asid w.cluster true w.slot w.time 0 .launch
      (some (w.slot, n, i)))

/-- The requests of every root. -/
def State.launchRoots (s : State) (w : LaunchWait) : State := w.roots.foldl (fun t x => t.launchRoot w x) s

/-- A LAUNCH before its requests are queued. -/
def launchWait (p : LaunchPlan) (key : Nat) (l : Line) (d event : Nat) (time : Word) : LaunchWait :=
  { line := key, d := d, cluster := l.c.here, asid := l.c.asid, slot := p.slot, event := event, time := time, roots := roots p.nodes p.req.ni }

/-- A launch that has been built: with a job the context waits for the acknowledgement of its event; else the LAUNCH is done. -/
def State.launchGo (t : State) (key : Nat) (l : Line) (p : LaunchPlan) (d : Nat) : Out :=
  if p.req.jobacc = 0 then
    .next ((t.launchRoots (launchWait p key l d 0 (t.timeOf l.c))).setLine key { l with c := l.c.setReg (regOf d) (w64 p.slot) })
  else
    let (l, time) := l.stamp t
    let w := launchWait p key l d t.sched.seq time
    let t := t.pushSend l.c.here (.event (nowEvent p.req.jobacc 1 l.c.asid time) .device) (some key) l.c.asid l.c.pc []
    waitPast { t with fl := { t.fl with launches := t.fl.launches ++ [w] } } key l 3 0 0

/-- The k-th waiting LAUNCH goes on once its job's event is acknowledged: its spawn requests are queued, and gd takes the slot (R341). -/
def launchGoesOn (k : Nat) (s : State) : Out :=
  match nth? s.fl.launches k with
  | none => notNow "LAUNCH"
  | some w =>
    if s.fl.sends.any fun b => b.2.any fun e => e.id == w.event then notNow "LAUNCH"
    else .next (({ s with fl := { s.fl with launches := removeAt k s.fl.launches } }.launchRoots w).answer w.line w.d (w64 w.slot))

/-- LAUNCH gd, ga (R233, R341). -/
def execLaunch (g : Guard) (d : Reg) (a : Src) (s : State) : Out :=
  let h := headSuper (.launch g d a) g (names2 d a) a.takeMask
  issue h s fun t key l0 l =>
    let va := (l0.c.src a).toNat % 2 ^ 57
    if va % 128 ≠ 0 then trapOut h t key l0 0x04 (w64 va)
    else if s.orderBusy key l0 || t.mem.stores.any (fun x => x.who == ctxName key l0) || !s.launchReach l0.c va || !s.chains.isEmpty then idleTurn s key l0
    else
      match t.launchFate l0.c va with
      | .trap (code, x) => trapOut h t key l0 code (w64 x)
      | .status n => .next (t.setLine key { l with c := l.c.setReg d (evCode n) })
      | .plan p =>
        if !t.isReady (dieOf (p.own / 256)) 3 then idleTurn s key l0
        else
          match t.launchBuild l0.c p with
          | .error (code, x) => trapOut h t key l0 code (w64 x)
          | .ok t => t.launchGo key l p d.val

/-! ### CANCEL (R234, R346) -/

/-- A context of a cancelled launch that is at an instruction boundary and has no result to come retires; another does so at its next. -/
def State.cancelLine (s : State) (key : Nat) : State :=
  match SMap.get? s.ctx.lines key with
  | none => s
  | some l =>
    let l := { l with cancelled := true, marked := s.sched.cycle + 1 }
    if l.midway ∨ l.c.st.state = .running then s.setLine key l
    else
      let (s, l) := s.stopReduction key l
      (s.setLine key l).reap key

/-- A launch is marked cancelled: its contexts but the issuing one retire, its commands that have not started and its waiting spawn
requests are discarded. -/
def State.cancelSlot (s : State) (issuer slot : Nat) (asid : BitVec 12) (byJob : Bool) : State :=
  let mark := fun (x : Launch) => { x with cancelled := true, byJob := x.byJob || byJob }
  let ours := fun (r : SpawnReq) => r.asid == asid && (match r.acct with
    | some (k, _, _) => k == slot
    | none => false)
  let s := { s with
    launch := { s.launch with
      table := match SMap.get? s.launch.table slot with
        | some x => SMap.set s.launch.table slot (mark x)
        | none => s.launch.table
      backlogs := s.launch.backlogs.filterMap fun (b : Nat × List SpawnReq) =>
        let l := b.2.filter fun r => !ours r
        if l.isEmpty then none else some (b.1, l) }
    fl := { s.fl with
      spawns := s.fl.spawns.filter fun r => !ours r
      sends := s.fl.sends.map fun (b : Nat × List SendEntry) => (b.1, b.2.map fun (e : SendEntry) =>
        if (e.what matches .post _ _ _) ∧ e.asid = asid ∧ (e.line.bind fun k => SMap.get? s.ctx.lines k).any (fun (y : Line) => y.ofLaunch asid slot) then { e with void := true } else e)
      launches := s.fl.launches.map fun (w : LaunchWait) => if w.asid = asid ∧ w.slot = slot then { w with roots := [] } else w }
    eng := { s.eng with queues := s.eng.queues.map fun (q : Nat × List QEntry) =>
      (q.1, q.2.map fun (e : QEntry) => if e.asid = asid ∧ e.slot.toNat = slot then { e with cancelled := true } else e) } }
  ((s.ctx.lines.filter fun x => x.1 != issuer && x.2.ofLaunch asid slot).map (·.1)).foldl State.cancelLine s

/-- A CANCEL of the launches in these slots begins; the context waits with kind 3 until it is done. -/
def State.cancelBegin (t : State) (key : Nat) (l : Line) (d : Nat) (slots : List Nat) (byJob : Bool) : Out :=
  let jobacc := ((slots.head?).bind fun k => SMap.get? t.launch.table k).elim 0 (·.jobacc)
  let r : CancelReq :=
    { line := key, d := d, asid := l.c.asid, cluster := l.c.here, retiring := slots, firing := [], byJob := byJob, sent := false, jobacc := jobacc
      result := 0, seq := t.sched.seq }
  let t := (t.setLine key (l.waits 3 0 0)).nextSeq
  let t := slots.foldl (fun u k => u.cancelSlot key k l.c.asid byJob) t
  .next ({ t with fl := { t.fl with cancels := t.fl.cancels ++ [r] } }.cancelProgress)

/-- The slots of the live launches of an ASID that satisfy a condition, in increasing order. -/
def State.liveSlots (s : State) (asid : BitVec 12) (f : Nat → Launch → Bool) : List Nat :=
  (s.launch.table.filter fun x => x.2.asid == asid && f x.1 x.2).map (·.1)

/-- CANCEL.launch gd, ga (R234, R346). -/
def execCancelLaunch (g : Guard) (d : Reg) (a : Src) (s : State) : Out :=
  issue (headSuper (.cancelLaunch g d a) g (names2 d a) a.takeMask) s fun t key l0 l =>
    let slots := t.liveSlots l0.c.asid fun k _ => k == (l0.c.src a).toNat % 4096
    if slots.isEmpty then .next (t.setLine key { l with c := l.c.setReg d 1 })
    else t.cancelBegin key l d.val slots false

/-- CANCEL.job gd, ga (R234, R346). -/
def execCancelJob (g : Guard) (d : Reg) (a : Src) (s : State) : Out :=
  issue (headSuper (.cancelJob g d a) g (names2 d a) a.takeMask) s fun t key l0 l =>
    let job := (l0.c.src a).toNat % 2 ^ 16
    let slots := t.liveSlots l0.c.asid fun _ x => x.job == job
    if slots.isEmpty then .next (t.setLine key { l with c := l.c.setReg d 1 })
    else t.cancelBegin key l d.val slots true

/-! ### QUIT.done (R175, R343) -/

/-- QUIT.done (R175, R343): the events of the instance are posted, and the line retires. -/
def execQuitDone (g : Guard) (s : State) : Out :=
  issue (headWait (.quitDone g) g 0 0) s fun t key l0 l =>
    match quitWait s key l0 with
    | some o => o
    | none =>
      let (l, time) := l.stamp t
      let x := l.c.launch.toNat
      .next ((t.postDone (x % 2 ^ 12) (x / 2 ^ 12 % 2 ^ 8) (x / 2 ^ 20) l.c.here l.c.asid time (some key)).retire key l)

/-! ### Spawn requests (R327, R342, R350, R351) -/

/-- A spawn request that cannot be served is dropped, with the record of its origin. -/
def State.refuseSpawn (s : State) (r : SpawnReq) (cause : Nat) (c : Nat) : State :=
  match r.origin with
  | .host => (s.addUndeliv r.asid 1).hostError 3 r.asid 0 (vaWord r.entry) (dieOf c)
  | _ =>
    let s := if cause = 5 then s.addUndeliv r.asid 1 else s
    (s.eventError cause r.asid r.addr r.step 0 r.v (dieOf c)).dropSpawn r.acct c r.asid r.floor

/-- A launch that has been cancelled discards its requests. -/
def State.spawnCancelled (s : State) (r : SpawnReq) : Bool :=
  match r.acct with
  | some (k, _, _) => match SMap.get? s.launch.table k with
    | some x => x.asid == r.asid && x.cancelled
    | none => false
  | none => false

/-- A spawn request is served at its home (R342, R351): it takes a line from the home's pool, or waits in its spawn backlog. -/
def State.serveSpawn (s : State) (r : SpawnReq) : State :=
  if s.spawnCancelled r then s
  else
    let home := match r.home with
      | some c => c
      | none => (s.anyHome r.issuer r.asid).getD r.issuer
    if s.clusterGone home then s.refuseSpawn r 4 r.issuer
    else
      match s.createFrom home r.asid (r.newCtx home) with
      | some (t, _) => t
      | none =>
        let others := if r.origin = .launch then 0 else s.reserved home
        if (s.backlog home).length + others < Config.backlogEntries then s.setBacklog home (s.backlog home ++ [r])
        else s.refuseSpawn r 5 r.issuer

/-- SPAWN_REQUEST (R342): the k-th spawn request is served at its home. -/
def execSpawnRequest (k : Nat) (s : State) : Out :=
  match nth? s.fl.spawns k with
  | none => notNow "SPAWN_REQUEST"
  | some r => .next ({ s with fl := { s.fl with spawns := removeAt k s.fl.spawns } }.serveSpawn r)

/-! ### The host's submissions (R347, R348) -/

/-- Word k of a submission. -/
def subWord (data : BitVec 512) (k : Nat) : Word := data.extractLsb' (64 * k) 64

/-- SUBMISSION_WRITE (R347): a host write to a submission window leaves as a SEND of four words from the port's own send buffer, a
release at SYS scope. -/
def execSubmissionWrite (port : Nat) (asid : BitVec 12) (data : BitVec 512) (s : State) : Out :=
  let h := subWord data 0
  let die := 2 * port
  if !s.portUp port || h == 0 then notNow "SUBMISSION_WRITE"
  else if data.extractLsb' 320 192 ≠ (0 : BitVec 192) then .next (s.hostError 1 asid h (subWord data 1) die)
  else if s.sendFree (192 + port) then
    .next (s.pushSend (192 + port) (.msg h (subWord data 1) (subWord data 2) (subWord data 3) (subWord data 4) 4 .submission) none asid 0
      [{ time := s.timeAt die, scope := .sys, cluster := 192 + port, auto := true, who := none, seq := 0 }])
  else notNow "SUBMISSION_WRITE"

/-- A start request that is well formed (R348). -/
def startOk (data : BitVec 512) : Bool :=
  let pc := subWord data 1
  let home := subWord data 2
  pc.toNat % 8 == 0 && decide (pc.toNat < 2 ^ 57) && decide (home.toNat < 2 ^ 12) && data.extractLsb' 320 192 == (0 : BitVec 192)

/-- The spawn request of a start request (R348). -/
def startReq (s : State) (asid : BitVec 12) (data : BitVec 512) : SpawnReq :=
  let home := subWord data 2
  let c := home.toNat % 256
  { asid := asid, home := some c, issuer := c, entry := (subWord data 1).setWidth 57, regs := [subWord data 3, subWord data 4]
    cls := home.extractLsb' 8 2, priv := if home.getLsbD 10 then 1 else 0, roam := home.getLsbD 11, launch := 0xFFF
    floor := s.timeAt (dieOf c), dies := 0, addr := 0, v := 0, step := 0, acct := none, origin := .host, id := 0 }

/-- START_REQUEST (R348): a host write with a zero handle creates one context of the ASID, or is discarded. -/
def execStartRequest (port : Nat) (asid : BitVec 12) (data : BitVec 512) (s : State) : Out :=
  if !s.portUp port || subWord data 0 != 0 then notNow "START_REQUEST"
  else
    let r := startReq s asid data
    if startOk data && !s.clusterGone r.issuer then .next (s.serveSpawn r)
    else .next ((s.addUndeliv asid 1).hostError 3 asid 0 (subWord data 1) (2 * port))

end Sys2Proof.Machine
end

