-- ==== Sys2Proof/Machine/Scheduling.lean ====
section
/-! DEFINITION. The scheduler of a cluster: selection, claims, swaps, roaming, backlog rings, arrivals and ageing (R249 to R263, R352 to
R357), and what a slot does in place of an instruction: a replay, a restart, a failed fetch (R128, R153, R172). -/

namespace Sys2Proof.Machine

/-! ### Roaming (R355) -/

/-- The first live cluster of a list. -/
def State.firstLive (s : State) (l : List Nat) : Option Nat := l.find? fun c => !s.clusterGone c

/-- The next live cluster below, wrapping from 0 to 191. -/
def State.lowerNeighbour (s : State) (c : Nat) : Option Nat := s.firstLive ((List.range 191).map fun i => (c + 191 - i) % 192)

/-- The next live cluster above, wrapping from 191 to 0. -/
def State.upperNeighbour (s : State) (c : Nat) : Option Nat := s.firstLive ((List.range 191).map fun i => (c + 1 + i) % 192)

/-- The entries of a cluster's run lists, from list 3 down to list 0, each from head to tail: a context that has given up its slot is in none
before its turn ends (R123). -/
def State.entries (s : State) (c : Nat) : List RunEntry :=
  (s.runList c 3 ++ s.runList c 2 ++ s.runList c 1 ++ s.runList c 0).filter fun e => decide (e.from_ ≤ s.sched.cycle)

/-- A slot that is empty, or whose context waits. -/
def State.slotIdle (s : State) (c u sl : Nat) : Bool :=
  match (s.slot c u sl).line with
  | none => true
  | some key => match SMap.get? s.ctx.lines key with
    | some l => l.c.st.state == .waiting
    | none => true

/-- A cluster has no slot that is empty or waiting. -/
def State.slotsBusy (s : State) (c : Nat) : Bool := (List.range 32).all fun i => !s.slotIdle c (i / 8) (i % 8)

/-- Whether the line of an entry roams. -/
def State.roams (s : State) (key : Nat) : Bool := match SMap.get? s.ctx.lines key with
  | some l => l.c.st.roam
  | none => false

/-- The listed line that the head of a backlog ring names (R259): none for an entry whose line has gone on without it. -/
def State.ringLine (s : State) (c : Nat) : Option Nat :=
  if s.ringCount c = 0 then none
  else (s.ringKeys c).head?.bind fun key => match SMap.get? s.ctx.lines key with
    | some l => if l.c.st.queued && l.handle == s.ringHead c then some key else none
    | none => none

/-- What a roaming neighbour offers: an entry of its lists while all of its slots are busy, or the head of its backlog ring. -/
def State.roamPick (s : State) (c' : Nat) : Option Nat :=
  (if s.slotsBusy c' then ((s.entries c').find? fun e => s.roams e.line).map (·.line) else none).or
    ((s.ringLine c').bind fun key => if s.roams key then some key else none)

/-- The line that a slot of a cluster would roam for: from the lower neighbour, or else from the upper one. -/
def State.roamCandidate (s : State) (c : Nat) : Option Nat :=
  ((s.lowerNeighbour c).bind s.roamPick).or ((s.upperNeighbour c).bind s.roamPick)

/-- Roam is reached: the cluster's lists and its backlog ring are empty (R354). -/
def State.mayRoam (s : State) (c : Nat) : Bool := (s.entries c).isEmpty && s.ringCount c == 0

/-! ### Claims (R255) -/

/-- A cluster is a roaming neighbour of another (R355). -/
def State.neighbours (s : State) (c c' : Nat) : Bool := s.lowerNeighbour c == some c' || s.upperNeighbour c == some c'

/-- The conditions of a claim at the line's owner. Of the roaming rule the owner tests the line and the two clusters; the state of their lists and
slots was the claiming cluster's to look at when it sent the claim (R256, R355; log entry 77). -/
def State.claimable (s : State) (key : Nat) (l : Line) (c : Nat) : Bool :=
  l.c.st.state == .ready && !l.c.st.valid && decide (l.out ≤ s.sched.cycle) &&
    (l.c.here == c || (l.c.st.roam && s.neighbours c l.c.here && !s.unacked key))

/-- The age that a line has in its run list (R353). -/
def State.listedAge (s : State) (key : Nat) : Nat :=
  ((s.ctx.run.flatMap (·.2)).find? fun e => e.line == key).elim 0 (·.ageAt s.sched.cycle)

/-- The entry of a line in the backlog ring of its cluster is dropped, when it is the head (R355). -/
def State.ringDrop (s : State) (key : Nat) (l : Line) : State :=
  if l.c.st.queued ∧ s.ringLine l.c.here = some key then (s.ringTake l.c.here).heldAppend l.c.here (SMap.getD s.ctx.heldAppends l.c.here [])
  else s

/-- The slot's context leaves it for a swap, carrying every change of the window that has ended (R249, R254): it waits, or was woken
after the swap began. -/
def State.clearSlot (s : State) (c u sl : Nat) : State :=
  match (s.slot c u sl).line with
  | none => s
  | some key => match SMap.get? s.ctx.lines key with
    | some l => if l.c.st.state = .waiting ∨ l.c.st.state = .ready then (s.evictSlot key l).reap key else s
    | none => s

/-- A claim that has succeeded (R255): the line is RUNNING under the slot that claimed it. A line in the slot's own context L1 begins its
swap; another leaves its place and its reducer, and moves to that L1 (R171, R254): within its cluster, or across the Armature under the ownership
of its home slice (R248, R261). -/
def State.claimed (s : State) (key : Nat) (l : Line) (c u sl : Nat) : State :=
  let age := s.listedAge key
  let s := (s.ringDrop key l).runDrop key
  let near := l.place == .l1 c u
  let (s, l) := if near then (s, l) else s.stopReduction key l
  let st := { l.c.st with
    state := .running, valid := true, unit := BitVec.ofNat 2 u, slot := BitVec.ofNat 3 sl, die := BitVec.ofNat 2 (dieOf c)
    cluster := BitVec.ofNat 6 (localOf c), dies := l.c.st.dies ||| (1#4 <<< dieOf c)
    queued := if l.place = .memory ∧ l.c.here ≠ c then false else l.c.st.queued }
  let way := if l.place.cluster? = some c then Place.toL1 c u sl else .toSlot c u sl
  let s := s.setLine key { l with place := if near then l.place else way, moved := if l.c.here = c then l.moved else s.sched.seq
                                  c := { l.c with st := st } }
  s.setSlot c u sl { s.slot c u sl with coming := some key, next := age, asking := none, swap := if near then some s.sched.cycle else none }

/-- A claim of a line by a slot (R255): none when it returns OWNED. A line that has touched a lost die is trapped instead (R387). -/
def State.claim (s : State) (key c u sl : Nat) : Option State :=
  match SMap.get? s.ctx.lines key with
  | none => none
  | some l => if s.claimable key l c then some (s.claimed key l c u sl) else none

/-- The first entry whose claim succeeds; losses of a die that entries meet on the way are applied. -/
def State.firstClaim (s : State) (c u sl : Nat) : List RunEntry → State × Bool
  | [] => (s, false)
  | e :: l =>
    let s := (s.applyLoss e.line).meetPoison e.line
    match s.claim e.line c u sl with
    | some t => (t, true)
    | none => State.firstClaim s c u sl l

/-- The slot's context has issued, or left it, in the turn that runs: what it has become holds from the end of the turn (R122, R249,
R250). -/
def State.slotBusy (s : State) (c u sl : Nat) : Bool :=
  let r := s.slot c u sl
  r.freed == s.sched.cycle + 1 ||
    (r.turn == s.sched.cycle + 1 && (match r.line.bind fun k => SMap.get? s.ctx.lines k with
      | some l => decide (r.seq ≤ l.issued)
      | none => false))

/-- A slot that may select (R254): its cluster runs, it is at its issue cycle and has not selected in it, it is empty or its context
waits, no swap has begun, and no claim of it is under way. -/
def State.maySelect (s : State) (c u sl : Nat) : Bool :=
  let r := s.slot c u sl
  decide (u < 4) && decide (sl < 8) && s.canIssue c && s.slotCycle sl && r.chosen != s.sched.cycle + 1 && s.slotIdle c u sl &&
    !s.slotBusy c u sl && r.swap.isNone && r.asking.isNone

/-- The line that comes to a slot has arrived in its issue unit's context L1. -/
def State.arrived (s : State) (c u sl : Nat) : Bool :=
  match (s.slot c u sl).coming.bind fun k => SMap.get? s.ctx.lines k with
  | some l => l.place == .l1 c u
  | none => false

/-- SLOT_SELECT (R254, R354): the slot claims the first entry it can; with empty lists it leaves its backlog ring to the fill, or sends a
claim of the line it would roam for (R355). A slot whose line has arrived begins its swap instead, and one whose line is still on its way
selects nothing. -/
def execSlotSelect (c u sl : Nat) (s : State) : Out :=
  if s.maySelect c u sl then
    let r := { s.slot c u sl with chosen := s.sched.cycle + 1 }
    let s := s.setSlot c u sl r
    if r.coming.isSome then .next (if s.arrived c u sl then s.setSlot c u sl { r with swap := some s.sched.cycle } else s)
    else
      let (t, ok) := s.firstClaim c u sl (s.entries c)
      if ok || !t.mayRoam c then .next t
      else match t.roamCandidate c with
        | some key => .next (t.setSlot c u sl { t.slot c u sl with asking := some key })
        | none => .next t
  else notNow "SLOT_SELECT"

/-- CLAIM (R255, R256, R355): the claim that a slot has sent for a line reaches the line's owner; OWNED changes nothing in the line. -/
def execClaim (key c u sl : Nat) (s : State) : Out :=
  if (s.slot c u sl).asking = some key then
    let t := s.setSlot c u sl { s.slot c u sl with asking := none }
    let t := (t.applyLoss key).meetPoison key
    .next (if t.canIssue c then (t.claim key c u sl).getD t else t)
  else notNow "CLAIM"

/-! ### Swaps (R254) -/

/-- CONTEXT_L1_FILL (R254, R257, R261): the line that a slot has claimed arrives in its issue unit's context L1; one with uncorrectable data is
lost (R391). -/
def execContextL1Fill (c u sl : Nat) (s : State) : Out :=
  match (s.slot c u sl).coming with
  | none => notNow "CONTEXT_L1_FILL"
  | some key =>
    match SMap.get? s.ctx.lines key with
    | none => notNow "CONTEXT_L1_FILL"
    | some l =>
      if l.place ≠ .toSlot c u sl ∧ l.place ≠ .toL1 c u sl then notNow "CONTEXT_L1_FILL"
      else if l.lost &&& l.c.st.dies ≠ 0 then .next (s.applyLoss key)
      else if s.poisoned (rangeFrom (128 * key) 128) then .next (s.meetPoison key)
      else match s.roomL1 c u with
        | none => notNow "CONTEXT_L1_FILL"
        | some t => .next (t.setLine key { l with place := .l1 c u })

/-- The cycle in which the line of a swap is loaded: one turn after the swap began (R254). -/
def SlotRec.loadsAt (r : SlotRec) (cycle : Nat) : Bool := match r.swap with
  | some t => cycle == t + 8
  | none => false

/-- SWAP_LOAD (R254): in the turn after the swap began, the outgoing line having left, the incoming line is loaded into its slot; it
issues in the next turn. -/
def execSwapLoad (c u sl : Nat) (s : State) : Out :=
  if (s.slot c u sl).loadsAt s.sched.cycle then
    match (s.slot c u sl).coming with
    | none => notNow "SWAP_LOAD"
    | some key =>
      let s := (s.clearSlot c u sl).applyLoss key
      let r := { s.slot c u sl with swap := none, turn := s.sched.cycle + 1, seq := s.sched.seq }
      match SMap.get? s.ctx.lines key with
      | none => .next (s.setSlot c u sl r)
      | some l =>
        if l.place = .l1 c u ∧ r.coming = some key ∧ r.line = none then
          .next ((s.setLine key { l with place := .slot c u sl }).setSlot c u sl { r with line := some key, age := r.next, coming := none })
        else .next (s.setSlot c u sl r)
  else notNow "SWAP_LOAD"

/-! ### Backlog rings, arrivals, ageing (R259, R260, R353) -/

/-- The held appends of a cluster are offered again, the head of its ring having advanced (R352). -/
def State.ringAdvance (s : State) (c : Nat) : State := (s.ringTake c).heldAppend c (SMap.getD s.ctx.heldAppends c [])

/-- A line that is no longer listed. -/
def State.unlist (s : State) (key : Nat) : State :=
  match SMap.get? s.ctx.lines key with
  | some l => s.setLine key { l with c := { l.c with st := { l.c.st with queued := false } } }
  | none => s

/-- BACKLOG_FILL (R259): the head of a cluster's backlog ring enters its context L2; a stale entry is dropped, and one whose line has
another current cluster moves to that cluster's ring. -/
def execBacklogFill (c : Nat) (s : State) : Out :=
  if s.ringCount c = 0 ∨ !s.canIssue c then notNow "BACKLOG_FILL"
  else
    match s.ringLine c with
    | none => .next (s.ringAdvance c)
    | some key =>
      let s := (s.applyLoss key).meetPoison key
      match SMap.get? s.ctx.lines key with
      | none => .next (s.ringAdvance c)
      | some l =>
        if l.place ≠ .memory ∨ l.c.st.state ≠ .ready then .next ((s.ringAdvance c).unlist key)
        else if l.c.here ≠ c then .next (((s.ringAdvance c).unlist key).ringAppend key { l with c := { l.c with st := { l.c.st with queued := false } } })
        else match s.roomL2 c false with
          | none => notNow "BACKLOG_FILL"
          | some t =>
            let l := { l with place := .l2 c, c := { l.c with st := { l.c.st with queued := false } } }
            .next ((t.ringAdvance c).enterReady key l 0)

/-- ARRIVAL_ACCEPT (R260): a line in transit is accepted at its destination, in the first of the three places that can take it. A line
toward a cluster that has gone stays where it is (R387). -/
def execArrivalAccept (key : Nat) (s : State) : Out :=
  match SMap.get? s.ctx.lines key with
  | none => notNow "ARRIVAL_ACCEPT"
  | some l =>
    match l.place with
    | .transit dest => if s.clusterGone dest then notNow "ARRIVAL_ACCEPT" else .next (s.acceptAt key l dest)
    | _ => notNow "ARRIVAL_ACCEPT"

/-- An entry of a run list whose effective class has risen above the list's (R353). -/
def State.ripe (s : State) (cls : Nat) (e : RunEntry) : Bool :=
  match SMap.get? s.ctx.lines e.line with
  | some l => decide (cls < effClass l.c.st.cls (e.ageAt s.sched.cycle))
  | none => false

/-- AGING_STEP (R263, R353): an entry that has spent 4,096 turns more in lists has a higher effective class, and moves to the tail of the
higher list with its age. -/
def execAgingStep (c cls k : Nat) (s : State) : Out :=
  match nth? (s.runList c cls) k with
  | none => notNow "AGING_STEP"
  | some e =>
    match SMap.get? s.ctx.lines e.line with
    | none => notNow "AGING_STEP"
    | some l =>
      if s.ripe cls e then .next ((s.runDrop e.line).runAdd c e.line l.c.st.cls (e.ageAt s.sched.cycle) 0) else notNow "AGING_STEP"

/-! ### What a slot does in place of an instruction -/

/-- REPLAY_REISSUE (R153): the context at issue takes its replay marker; the marked instruction issues next. -/
def execReplayReissue (s : State) : Out :=
  match s.atIssue with
  | none => notNow "REPLAY_REISSUE"
  | some (key, l) => if l.replays then .next (s.setLine key l.takeMarker) else notNow "REPLAY_REISSUE"

/-- QRED_RESTART (R172): the context at issue restarts its stopped reduction before it issues anything else. -/
def execQredRestart (s : State) : Out :=
  match s.issuing with
  | none => notNow "QRED_RESTART"
  | some (key, l) =>
    if l.c.st.qkind ≠ 0 ∧ l.goTo = none ∧ l.fault = none ∧ !l.cancelled then .next (s.restartReduction key l) else notNow "QRED_RESTART"

/-- FETCH_FAULT (R128): the fetch of the word that the context at issue comes to fails, and the context is TRAPPED before it issues. -/
def execFetchFault (s : State) : Out :=
  match s.issuing with
  | none => notNow "FETCH_FAULT"
  | some (key, l) =>
    match s.fetch l.c l.at_ with
    | .ok _ => notNow "FETCH_FAULT"
    | .error code =>
      .next (s.takeTrap key l { code := code, pc := l.c.pc, obj := l.reissue.map markerObj, at_ := l.at_
                                src := if l.reissue.isSome then l.at_ else l.src, va := vaWord l.at_, word := 0, detail := 0 })

end Sys2Proof.Machine
end

