-- ==== Sys2Proof/Machine/Network.lean ====
section
/-! DEFINITION. The Armature and the link planes as requests cross them: power of switches and lanes (R384), ports and paths (R380), planes
and ways (R377, R378), and the requests that cross them (R357, R377). -/

namespace Sys2Proof.Machine

/-! ### Power of switches and lanes (R384) -/

/-- The idle cycles after which a switch powers down. -/
def switchIdle : Nat := 512
/-- The idle cycles after which a bulk lane powers down. -/
def laneIdle : Nat := 4096
/-- The cycles from a wake to the power being up. -/
def wakeDelay : Nat := 24

/-- Whether a flit passes in a fabric cycle: what is up passes it, and so does what would have decided to power down in the cycle before, where
the flit's own wake has won; what has come up passes flits from the next cycle. -/
def PowerState.passes (p : PowerState) (idle now : Nat) : Bool :=
  match p with
  | .up t from_ => decide (from_ ≤ now) && decide (now ≤ t + idle + 1)
  | .waking t => decide (t < now) && decide (now ≤ t + idle + 1)
  | .down _ => false

/-- A power state after the decision that its idle count makes: none before that. -/
def PowerState.sleep (p : PowerState) (idle now : Nat) : Option PowerState :=
  match p with
  | .up t _ => if t + idle ≤ now then some (.down (t + idle)) else none
  | .waking t => if t + idle ≤ now then some (.down (t + idle)) else none
  | .down _ => none

/-- A power state after a wake: what is up, or decides to power down in this cycle, stays up and counts from 0. -/
def PowerState.wake (p : PowerState) (idle now : Nat) : PowerState :=
  let again := fun (decided : Nat) => if now ≤ decided then PowerState.up now (now + 1) else .waking (now + wakeDelay)
  match p with
  | .up t _ => again (t + idle)
  | .down t => again t
  | .waking t => if now < t then .waking t else again (t + idle)

/-- A power state that comes up: none when it is not due. -/
def PowerState.rise (p : PowerState) (now : Nat) : Option PowerState :=
  match p with
  | .waking t => if t ≤ now then some (.up t (t + 1)) else none
  | .up _ _ => none
  | .down _ => none

/-- What is coming up in this cycle or a later one. -/
def PowerState.comes (p : PowerState) (now : Nat) : Bool :=
  match p with
  | .waking t => decide (now ≤ t)
  | .up _ _ => false
  | .down _ => false

/-- A power state after a flit has passed. -/
def PowerState.carry (p : PowerState) (now : Nat) : PowerState :=
  match p with
  | .up _ from_ => .up now from_
  | .waking t => .up now (t + 1)
  | .down t => .down t

/-- The switches of a die: two networks of 6 stages of 32 switches (R380). -/
def switchesPerDie : Nat := 2 * 6 * 32

/-- The die of a switch. -/
def switchDie (sw : Nat) : Nat := sw / switchesPerDie

/-- The power of a switch. -/
def State.switch (s : State) (sw : Nat) : PowerState := SMap.getD s.fab.switches sw (.up 0 0)

/-- Set it. -/
def State.setSwitch (s : State) (sw : Nat) (p : PowerState) : State :=
  { s with fab := { s.fab with switches := SMap.set s.fab.switches sw p } }

/-- The plane of a lane, by boundary × 2 + plane: plane 1 is the bulk plane. Lane numbers count 2^16 for each plane. -/
def lanePlane (ln : Nat) : Nat := ln / 2 ^ 16

/-- A lane. -/
def State.fabLane (s : State) (ln : Nat) : Lane := SMap.getD s.fab.lanes ln { power := .up 0 0, errors := 0, retired := false }

/-- Set it. -/
def State.setFabLane (s : State) (ln : Nat) (x : Lane) : State := { s with fab := { s.fab with lanes := SMap.set s.fab.lanes ln x } }

/-- A power state of a lane whose plane last carried a flit in a cycle. -/
def PowerState.since (p : PowerState) (carried : Nat) : PowerState :=
  match p with
  | .up t from_ => .up (max t carried) from_
  | .waking t => if t < carried then .up carried (t + 1) else .waking t
  | .down t => .down t

/-- The power of a bulk lane: its idle count starts again with each flit of its plane. -/
def State.lanePower (s : State) (ln : Nat) : PowerState :=
  (s.fabLane ln).power.since (SMap.getD s.fab.carried (lanePlane ln / 2) 0)

/-- The bulk plane of a boundary passes a flit: a lane of it does that is not retired. A lane that no step has named is as it was at reset
(log entry 66). -/
def State.lanesPass (s : State) (b : Nat) : Bool :=
  ((PowerState.up 0 0).since (SMap.getD s.fab.carried b 0)).passes laneIdle s.sched.cycle ||
    s.fab.lanes.any fun x => lanePlane x.1 == 2 * b + bulk && !x.2.retired && (s.lanePower x.1).passes laneIdle s.sched.cycle

/-! ### Ports and paths (R380) -/

/-- The port of a die's link edge toward a neighbour: 48 and 49 north, 50 and 51 east, the narrow plane first. -/
def edgePort (d e plane : Nat) : Nat := (if (d + 1) % 4 = e then 48 else 50) + plane

/-- The gang sequencer's port. -/
def sequencerPort : Nat := 58

/-- The agents beside the slices at a die's ports. -/
inductive PortAgent where
  | cluster (c : Nat)
  | northEdge (plane : Nat)
  | eastEdge (plane : Nat)
  | cxl (port : Nat)
  | duset (port : Nat)
  | neriup
  | sequencer
  | none
  deriving DecidableEq, Repr

/-- The agent at port p of a die; slice p is there too. -/
def portAgent (die p : Nat) : PortAgent :=
  if p < 48 then .cluster (48 * die + p)
  else if p < 50 then .northEdge (p - 48)
  else if p < 52 then .eastEdge (p - 50)
  else if p = 52 then (if die = 0 then .cxl 0 else if die = 2 then .cxl 1 else .none)
  else if p < 57 then .duset (p - 53)
  else if p = 57 then .neriup
  else if p = sequencerPort then .sequencer
  else .none

/-- The wires before each stage of an omega network shuffle its 64 positions perfectly (log entry 66). -/
def shuffle (x : Nat) : Nat := x * 2 % 64 + x / 32

/-- The path to port j from a position with n stages to go: the stage, the switch and the input of each. At stage k a flit leaves by the
output that bit 5 − k of j selects. -/
def omegaFrom (j : Nat) : Nat → Nat → List (Nat × Nat × Nat)
  | 0, _ => []
  | n + 1, x => let y := shuffle x; (5 - n, y / 2, y % 2) :: omegaFrom j n (y / 2 * 2 + j / 2 ^ n % 2)

/-- The one path from port i to port j. -/
def omegaPath (i j : Nat) : List (Nat × Nat × Nat) := omegaFrom j 6 i

/-- What a flit passes on a way from port i to port j: the dies, each with the port by which it comes in and that by which it leaves. -/
def legs (plane i j : Nat) : List Nat → List (Nat × Nat × Nat)
  | [] => []
  | [d] => [(d, i, j)]
  | d :: e :: l => (d, i, edgePort d e plane) :: legs plane (edgePort e d plane) j (e :: l)

/-- The switches of a leg, in the request network, 0, or the reply network, 1. -/
def legSwitches (net : Nat) (x : Nat × Nat × Nat) : List Nat :=
  (omegaPath x.2.1 x.2.2).map fun y => x.1 * switchesPerDie + net * 192 + y.1 * 32 + y.2.1

/-- The boundaries on a way. -/
def wayBoundaries : List Nat → List Nat
  | a :: b :: l => boundaryOf a b :: wayBoundaries (b :: l)
  | _ => []

/-- The switches on a path. Ports are numbered die × 64 + port. -/
def pathSwitches (net plane src dst : Nat) (way : List Nat) : List Nat := (legs plane (src % 64) (dst % 64) way).flatMap (legSwitches net)

/-- A flit passes a path now: the planes on it are up, and no switch and no bulk plane on it has powered down (R384). -/
def State.pathUp (s : State) (net plane src dst : Nat) (way : List Nat) : Bool :=
  s.wayUp plane way && (pathSwitches net plane src dst way).all (fun sw => (s.switch sw).passes switchIdle s.sched.cycle) &&
    (plane == narrow || (wayBoundaries way).all s.lanesPass)

/-- The idle counts after a flit has passed a path. -/
def State.pathUsed (s : State) (net plane src dst : Nat) (way : List Nat) : State :=
  { s with fab := { s.fab with
      switches := (pathSwitches net plane src dst way).foldl (fun m sw => SMap.set m sw ((s.switch sw).carry s.sched.cycle)) s.fab.switches
      carried := if plane = narrow then s.fab.carried else (wayBoundaries way).foldl (fun m b => SMap.set m b s.sched.cycle) s.fab.carried } }

/-- The way between the dies of two ports. -/
def State.portWay (s : State) (src dst : Nat) : List Nat := s.way (src / 64) (dst / 64)

/-- A die of two ports is gone: an operation between them ends for its loss, and waits for nothing. -/
def State.portGone (s : State) (src dst : Nat) : Bool := s.dieGone (src / 64) || s.dieGone (dst / 64)

/-! ### Requests (R357, R377) -/

/-- The CXL port through which the device reaches a byte of host memory (R396): the spec does not say which of two that are up. -/
def State.hostPort (s : State) (pa : Nat) : Nat := if s.portUp 1 ∧ (!s.portUp 0 ∨ Config.hostPort pa % 2 = 1) then 2 * 64 + 52 else 52

/-- The port of the slice at which a die's access to a byte is made: of its own die copy, of the home slice, or a CXL port (R17, R289, R396). -/
def State.bytePort (s : State) (die : Nat) (swc : Bool) (pa : Nat) : Nat :=
  match s.homeDie pa with
  | none => s.hostPort pa
  | some h => (if swc then die else h) * 64 + Config.homeSlice (pa / 128) % 64

/-- The port of a line's home slice. -/
def State.homePort (s : State) (key : Nat) : Nat := s.bytePort 0 false (128 * key)

/-- The port of a line's owner (R248). -/
def State.ownerPort (s : State) (key : Nat) : Nat :=
  match (SMap.get? s.ctx.lines key).bind fun l => l.place.cluster? with
  | some c => portOf c
  | none => s.homePort key

/-- The port of the cluster at which the context of a line is. -/
def State.linePort (s : State) (key die : Nat) : Nat := match SMap.get? s.ctx.lines key with
  | some l => portOf l.c.here
  | none => die * 64

/-- A request that has not been performed. -/
structure Request where
  /-- Three times the number of its operation; of its line, and 1, for a line on its way; of its slot, and 2, for a claim. -/
  id : Nat
  /-- Its place in its port's queue. -/
  order : Nat
  asid : BitVec 12
  /-- The port that injects it and the port of its destination, by die × 64 + port. -/
  src : Nat
  dst : Nat
  plane : Nat
  /-- The plane of its answer (R377): data of lines comes on the bulk plane, an acknowledgement on the narrow one. -/
  answer : Nat
  /-- The 128-byte lines that it names. -/
  lines : List Nat
  /-- The line of its context. -/
  who : Option Nat
  /-- It carries a release. -/
  rel : Bool
  /-- What its own context must have done before it has been done. -/
  ready : Bool
  /-- It is an acquire that waits at its destination for what a release that it meets stands behind. -/
  waits : Bool
  /-- The cluster at whose handle table it is applied, in the order of arrival (R272). -/
  table : Option Nat := none
  deriving DecidableEq, Repr

/-- The request of an access: a read of a line, on the bulk plane. -/
def State.accessRequest (s : State) (p : Pending) (a : Access) : Option Request :=
  let a := s.translated a
  match a.bytes with
  | [] => none
  | pa :: _ =>
    let die := dieOf a.cluster
    let who := s.nameOf p.line
    if s.isMerged p.seq then none
    else some
      { id := 3 * p.seq, order := p.seq, asid := a.asid, src := portOf a.cluster, dst := s.bytePort die (a.swc.headD false) pa, plane := bulk
        answer := bulk, lines := (a.bytes.map (· / 128)).dedup, who := some p.line, rel := a.rel || !a.tags.isEmpty
        ready := (match a.kind with
          | .amo _ _ _ _ => !s.mustWait who p.seq a.bytes true && s.tagsReady a.tags
          | _ => !s.mustWait who p.seq a.bytes (a.bytes.any s.inLive))
        waits := a.acq && !s.heardReady a.scope a.cluster who (s.tagsAt die a.swc a.bytes) }

/-- The request of a result in flight: none for one that is no access. -/
def State.pendRequest (s : State) (p : Pending) : Option Request := p.access?.bind (s.accessRequest p)

/-- The request of a store. -/
def State.storeRequest (s : State) (x : Store) : Request :=
  let pa := x.pas.headD 0
  { id := 3 * x.seq, order := x.seq, asid := x.asid, src := portOf x.cluster, dst := s.bytePort (dieOf x.cluster) (x.swc.headD false) pa
    plane := bulk, answer := narrow, lines := (x.pas.map (· / 128)).dedup, who := some (x.who / 2 ^ 14), rel := x.rel || !x.tags.isEmpty
    ready := s.canDrain x, waits := false }

/-- The port and the line to which a request goes that names a context by its handle. -/
def State.handlePort (s : State) (cluster : Nat) (asid : BitVec 12) (h : Word) : Nat × List Nat :=
  match s.handlePage cluster asid h with
  | some (pa, _) => (s.ownerPort (pa / 128), [pa / 128])
  | none => (portOf cluster, [])

/-- The request of entry k of a send buffer: none while it is held back after a NACK, or merged, for a notice, and for a command that
completes at the posting cluster. -/
def State.sendRequest (s : State) (buf k : Nat) (e : SendEntry) : Option Request :=
  let r : Request :=
    { id := 3 * e.id, order := e.id, asid := e.asid, src := portOf buf, dst := 0, plane := narrow, answer := narrow, lines := [], who := e.line
      rel := !e.tags.isEmpty, ready := false, waits := false }
  let named := fun (h : Word) =>
    let x := s.handlePort (min buf 191) e.asid h
    some { r with dst := x.1, lines := x.2, ready := s.mayOffer (s.sendsOf buf) k e }
  if e.hold.isSome then none
  else match e.what with
    | .msg h _ _ _ _ _ _ => named h
    | .dep h _ _ => named h
    | .event x _ =>
      if s.eventMerged buf e.id ∨ s.eventTaken buf e.id then none
      else some { r with dst := evDie x.addr * 64 + x.addr.toNat / 2 ^ 24 % 64, rel := x.rel, ready := s.eventOrdered e x }
    | .post w _ _ => match s.homeOf w with
      | .ok (c, _) => some { r with dst := portOf c, ready := s.mayPost (s.sendsOf buf) k e w }
      | .error _ => none
    | .notice _ _ _ _ => none

/-- The request of an RGET, RESUME or EVICT, until it waits at its target's owner. -/
def State.ownerRequest (s : State) (r : OwnerReq) : Option Request :=
  if r.until_.isSome then none
  else
    let x := s.handlePort (r.die * 48) r.asid r.handle
    some { id := 3 * r.seq, order := r.seq, asid := r.asid, src := s.linePort r.line r.die, dst := x.1, plane := narrow, answer := narrow, lines := x.2
           who := some r.line, rel := false, ready := true, waits := false }

/-- The request of a context at a bank. -/
def State.bankRequest (s : State) (r : BankReq) : Request :=
  { id := 3 * r.seq, order := r.seq, asid := r.asid, src := s.linePort r.line (evDie r.addr)
    dst := evDie r.addr * 64 + r.addr.toNat / 2 ^ 24 % 64, plane := narrow, answer := narrow, lines := [], who := some r.line, rel := false, ready := true
    waits := false }

/-- The request of a context at a handle table. -/
def State.handleRequest (s : State) (r : HandleReq) : Request :=
  let c := r.what.cluster
  { id := 3 * r.seq, order := r.seq, asid := r.asid, src := s.linePort r.line (dieOf c), dst := portOf c, plane := narrow, answer := narrow, lines := []
    who := some r.line, rel := false, ready := true, waits := false, table := some c }

/-- A spawn request: to a home that is chosen when it is served, it has no way to go. -/
def spawnRequest (r : SpawnReq) : Request :=
  { id := 3 * r.id, order := r.id, asid := r.asid, src := portOf r.issuer, dst := portOf (r.home.getD r.issuer), plane := narrow, answer := narrow, lines := []
    who := none, rel := false, ready := true, waits := false }

/-- A line that moves to another cluster: it leaves at the end of its turn (R249). -/
def State.moveRequest (s : State) (key : Nat) (l : Line) : Option Request :=
  match l.place with
  | .transit dest => some
    { id := 3 * key + 1, order := l.issued, asid := l.c.asid, src := portOf l.c.here, dst := portOf dest, plane := bulk, answer := narrow, lines := [key]
      who := some key, rel := false, ready := decide (l.out ≤ s.sched.cycle), waits := false }
  | _ => none

/-- The claim that a slot has sent. -/
def State.claimRequest (s : State) (slot : Nat) (r : SlotRec) : Option Request :=
  r.asking.map fun key =>
    { id := 3 * slot + 2, order := r.seq, asid := (SMap.get? s.ctx.lines key).elim 0 (·.c.asid), src := portOf (slot / 32)
      dst := s.ownerPort key, plane := narrow, answer := narrow, lines := [key], who := none, rel := false, ready := true, waits := false }

/-- Every request. -/
def State.requests (s : State) : List Request :=
  s.fl.pend.filterMap s.pendRequest ++ s.mem.stores.map s.storeRequest ++
  (s.fl.sends.flatMap fun b => (List.range b.2.length).filterMap fun k => (nth? b.2 k).bind fun e => s.sendRequest b.1 k e) ++
  s.fl.owners.filterMap s.ownerRequest ++ s.fl.banks.map s.bankRequest ++ s.fl.handles.map s.handleRequest ++
  s.fl.spawns.map spawnRequest ++ (s.ctx.lines.filterMap fun x => s.moveRequest x.1 x.2) ++
  s.ctx.slots.filterMap fun x => s.claimRequest x.1 x.2

/-- The flit of a request: none while it waits at its port. -/
def State.flit (s : State) (r : Request) : Option Flit := SMap.get? s.fab.sent r.id

/-- The request that a step performs. -/
def State.requestOf (s : State) : Choice → Option Request
  | .drain k => (nth? s.mem.stores k).map s.storeRequest
  | .event i =>
    let entry := fun (buf k : Nat) => (nth? (s.sendsOf buf) k).bind (s.sendRequest buf k)
    match i with
    | .lineWrite k => (nth? s.fl.pend k).bind s.pendRequest
    | .messageDelivery buf k => entry buf k
    | .depositDelivery buf k => entry buf k
    | .eventAccept buf k => entry buf k
    | .commandAccept buf k => entry buf k
    | .requestAtLineOwner k => (nth? s.fl.owners k).bind s.ownerRequest
    | .groupRequestAtBank k => (nth? s.fl.banks k).map s.bankRequest
    | .stepClose k => (nth? s.fl.banks k).map s.bankRequest
    | .handleTableRequest k _ => (nth? s.fl.handles k).map s.handleRequest
    | .spawnRequest k => (nth? s.fl.spawns k).map spawnRequest
    | .arrivalAccept key => (SMap.get? s.ctx.lines key).bind (s.moveRequest key)
    | .claim _ c u sl => s.claimRequest (slotKey c u sl) (s.slot c u sl)
    | _ => none
  | _ => none

end Sys2Proof.Machine
end

