-- ==== Sys2Proof/Machine/Traffic.lean ====
section
/-! DEFINITION. The traffic of the Armature that is no request of its own between an issue and its performance (R377): what engines, gangs, caches,
schedulers and slices carry in the step in which they act, each with its plane, its ports, the ASID that it is charged to (R357) and its lines
(R379, R381). -/

namespace Sys2Proof.Machine

/-! ### Steps of the engines and the schedulers -/

/-- Steps of the engines. -/
def State.engineSteps (s : State) : List Choice :=
  (s.eng.queues.map fun q => Choice.start (q.1 / 3) (q.1 % 3)) ++
  (s.eng.running.flatMap fun q => (List.range q.2.length).map fun k => .event (.engineCommandEnd (q.1 / 3) (q.1 % 3) k)) ++
  (List.range 4).map (fun d => .event (.gangTicketGrant d 0)) ++
  (s.eng.lanes.flatMap fun l => .event (.gangSliceStart l.1 0) :: (List.range l.2.length).flatMap fun k =>
    [.sliceArrive l.1 k, .event (.gangSliceEnd l.1 k)]) ++
  (s.eng.running.flatMap fun q => if q.1 % 3 = 1 then (List.range q.2.length).map (.bagRead (q.1 / 3)) else []) ++
  (s.chains.map fun x => .bankGoOn x.1) ++
  (List.range 4).map fun d => .event (.rowCacheHalving d)

/-- Steps of the schedulers. -/
def State.scheduleSteps (s : State) : List Choice :=
  (s.ctx.slots.flatMap fun x =>
    (if x.2.coming.isSome then [Choice.event (.contextL1Fill (x.1 / 32) (x.1 / 8 % 4) (x.1 % 8))] else []) ++
    (match x.2.asking with
      | some key => [.event (.claim key (x.1 / 32) (x.1 / 8 % 4) (x.1 % 8))]
      | none => [])) ++
  (s.ctx.lines.flatMap fun x => match x.2.c.st.state with
    | .inTransit => [Choice.event (.arrivalAccept x.1)]
    | .waiting => [.event (.fetchArrive x.1)]
    | _ => []) ++
  ((s.ctx.lines.filter fun x => x.2.c.st.queued).map fun x => Choice.event (.backlogFill x.2.c.here))

/-! ### Traffic (R377) -/

/-- A flit and its answer: their planes, the port that sends it and the port to which it goes, the ASID whose token it takes, and its lines. -/
structure Crossing where
  plane : Nat
  answer : Nat
  src : Nat
  dst : Nat
  asid : Option (BitVec 12)
  lines : List Nat
  deriving DecidableEq, Repr

/-- Of bytes in order, the first of each run in one line. -/
def lineHeads (prev : Option Nat) : List (Nat × Bool) → List (Nat × Bool)
  | [] => []
  | x :: l => if prev = some (x.1 / 128) then lineHeads prev l else x :: lineHeads (some (x.1 / 128)) l

/-- What a cluster reads or writes of memory for an ASID: a flit for each line, to the slice at which the line is reached. -/
def State.linesTraffic (s : State) (c : Nat) (asid : BitVec 12) (answer : Nat) (pas : List Nat) (swc : List Bool) : List Crossing :=
  (lineHeads none (flagged pas swc)).map fun x =>
    { plane := bulk, answer := answer, src := portOf c, dst := s.bytePort (dieOf c) x.2 x.1, asid := some asid, lines := [x.1 / 128] }

/-- The lines of a range that a command reads. -/
def State.rangeTraffic (s : State) (c : Nat) (asid : BitVec 12) (r : Nat × Nat) : List Crossing :=
  match s.transBytes c asid 0 .engine .read (r.1 % 2 ^ 57) r.2 with
  | .ok (pas, swc) => s.linesTraffic c asid bulk pas swc
  | .error _ => []

/-- Elements of a tile on their way between its cluster and another. -/
def tileTraffic (c : Nat) (asid : BitVec 12) (answer : Nat) (r : TileRef) : Crossing :=
  { plane := bulk, answer := answer, src := portOf c, dst := portOf (refCluster r), asid := some asid, lines := [] }

/-- The current-version word of a bag's descriptor and the record that it names (R366). -/
def State.versionRanges (s : State) (c : Nat) (e : QEntry) : List (Nat × Nat) :=
  let at_ := descOf (cmdArgsOf e.cmd) (copOf e.cmd) + 0x10
  (at_, 8) :: (match s.engRead c e.asid at_ 8 with
    | .ok l => [(wordAt l 0, 128)]
    | .error _ => [])

/-- The slots between which a requested move copies a row, and its entry of the migration table (R372). -/
def Pinned.moveRanges (p : Pinned) (c : Nat) : List (Nat × Nat) :=
  (List.range p.moves.length).flatMap fun i => match nth? p.moves i with
    | some m => if m.phase = 1 ∧ m.row < p.table.rows ∧ p.table.owner m.row = c then
        [(p.slot m.row, p.version.pitch), (m.na, p.version.pitch), (p.version.moves + 16 * i, 16)] else []
    | none => []

/-- The slots of the rows that a POOL or ROWADD reads. -/
def Pinned.rowRanges (p : Pinned) (c : Nat) (e : QEntry) (b : Bag) : List (Nat × Nat) :=
  let row := fun (x : Nat) => (p.slot x, p.table.slotBytes)
  if copOf e.cmd = 0x08 then
    b.a.filterMap fun x =>
      let i := bitsInt 32 x
      if 0 ≤ i ∧ i < p.table.rows ∧ p.table.owner i.toNat = c then some (row i.toNat) else none
  else [row (cmdArgsOf e.cmd).hb.toNat]

/-- What a POOL or ROWADD reads and writes of memory once it has pinned its version. -/
def State.bagRanges (s : State) (c : Nat) (e : QEntry) (b : Bag) : List (Nat × Nat) :=
  match b.phase, (tableOf b.desc).bind fun t => (versionOf t b.record).map fun v => (t, v) with
  | .pinned _, some (t, v) =>
    [(v.moves, 16 * v.nmove), (v.shards, 8 * t.owners.length)] ++ (match s.pinnedTable c e.asid t v with
      | .ok p => p.moveRanges c ++ p.rowRanges c e b
      | .error _ => [])
  | _, _ => []

/-- What a command reads of memory at its start: a TLOAD its rows, an MMAG its table, a POOL or ROWADD its descriptor and its version. -/
def State.startRanges (s : State) (c : Nat) (e : QEntry) : List (Nat × Nat) :=
  let a := cmdArgsOf e.cmd
  let cop := copOf e.cmd
  if cop = 0x01 then
    match s.liveTile e.asid a.hc with
    | .ok t => (List.range t.rows).map fun r => (memRow a (fatPtr a.ha a.hb) r, if sclBit a then t.blocks else t.rowSize)
    | .error _ => []
  else if cop = 0x21 then [(a.opsBits 0 57, 16 * gangRows a * gangCols a)]
  else if cop = 0x08 ∨ cop = 0x09 then (descOf a cop, 128) :: s.versionRanges c e
  else []

/-- The traffic of the start of a command: the ranges that it reads, and the tiles of other clusters. -/
def State.startTraffic (s : State) (c : Nat) (e : QEntry) : List Crossing :=
  (s.startRanges c e).flatMap (s.rangeTraffic c e.asid) ++
  (((namedTiles (copOf e.cmd) (cmdArgsOf e.cmd)).map tileRef).filter fun r =>
    refCluster r != c && !(writtenTiles (copOf e.cmd) (cmdArgsOf e.cmd)).contains r).map (tileTraffic c e.asid bulk)

/-- The traffic of a command's write at its end. -/
def State.effectTraffic (s : State) (c : Nat) (asid : BitVec 12) : Effect → List Crossing
  | .elems r _ => [tileTraffic c asid narrow r]
  | .scales r _ => [tileTraffic c asid narrow r]
  | .mem swc pas _ => s.linesTraffic c asid narrow pas swc

/-- The traffic of the slice of an entry of a gang lane: from its home to the member, and the broadcasts of its tiles. -/
def State.sliceTraffic (s : State) (c k : Nat) (arrival : Bool) : List Crossing :=
  match nth? (s.lane c) k with
  | none => []
  | some x =>
    match (s.runs x.home 0).find? fun r => r.e.id == x.cmd with
    | none => []
    | some r =>
      if arrival then
        if x.arrival.isNone then [{ plane := narrow, answer := narrow, src := portOf x.home, dst := portOf c, asid := some r.e.asid, lines := [] }] else []
      else match r.gang.bind fun g => nth? g.slices x.index with
        | some y =>
          if x.arrival.isSome ∧ y.phase = .waits then
            [y.a, y.b].map fun t => { plane := bulk, answer := narrow, src := portOf (refCluster t), dst := portOf c, asid := some r.e.asid, lines := [] }
          else []
        | none => []

/-- The word for which a context waits with kind 7 comes from here. -/
def State.fetchTraffic (s : State) (key : Nat) : List Crossing :=
  match SMap.get? s.ctx.lines key with
  | none => []
  | some l =>
    if l.c.st.state = .waiting ∧ l.c.waitKind = 7 then
      match s.transBytes l.c.here l.c.asid l.c.level .fetch .exec l.at_.toNat 8 with
      | .ok (pas, swc) => s.linesTraffic l.c.here l.c.asid bulk pas swc
      | .error _ => []
    else []

/-- A context line that a cluster reads from its home slice. -/
def State.fillTraffic (s : State) (c key : Nat) : List Crossing :=
  match SMap.get? s.ctx.lines key with
  | some l => [{ plane := bulk, answer := bulk, src := portOf c, dst := s.homePort key, asid := some l.c.asid, lines := [key] }]
  | none => []

/-- A line that a die's slice takes a copy of, or writes back: the traffic of slices is made for no agent, and takes no token. -/
def State.copyTraffic (s : State) (die line answer : Nat) : Crossing :=
  { plane := bulk, answer := answer, src := die * 64 + Config.homeSlice line % 64, dst := s.homePort line, asid := none, lines := [line] }

/-- The traffic that a step needs before it acts: reads and writes of engines, tile data, slices and broadcasts of gangs, fills and fetches. -/
def State.crossings (s : State) : Choice → List Crossing
  | .start c q => match s.queue c q with
    | [] => []
    | e :: _ => if s.mayStart c q e then s.startTraffic c e else []
  | .replaceCopy die line => if ((SMap.get? s.mem.copies (copyKey die line)).map (·.dirty)).getD 0 = 0 then [] else [s.copyTraffic die line narrow]
  | .takeCopy die line => [s.copyTraffic die line bulk]
  | .sliceArrive c k => s.sliceTraffic c k true
  | .bagRead c k => match nth? (s.runs c 1) k with
    | some r => (s.versionRanges c r.e).flatMap (s.rangeTraffic c r.e.asid)
    | none => []
  | .readRow c k i => match nth? (s.runs c 1) k with
    | some r =>
      let a := cmdArgsOf r.e.cmd
      let t := s.heldTile (tileRef a.hc)
      s.rangeTraffic c r.e.asid (memRow a (fatPtr a.ha a.hb) (r.made + i), if sclBit a then t.blocks else t.rowSize)
    | none => []
  | .makeWrite c q k i => ((nth? (s.runs c q) k).bind fun r => (nth? r.effects i).map (s.effectTraffic c r.e.asid)).getD []
  | .event i =>
    match i with
    | .contextL1Fill c u sl => match (s.slot c u sl).coming with
      | some key => if ((SMap.get? s.ctx.lines key).map (·.place)) = some (.toSlot c u sl) then s.fillTraffic c key else []
      | none => []
    | .backlogFill c => match s.ringLine c with
      | some key => s.fillTraffic c key
      | none => []
    | .fetchArrive key => s.fetchTraffic key
    | .engineCommandEnd c q k => (nth? (s.runs c q) k).elim [] fun r =>
        r.effects.flatMap (s.effectTraffic c r.e.asid) ++ r.bag.elim [] fun b => (s.bagRanges c r.e b).flatMap (s.rangeTraffic c r.e.asid)
    | .gangSliceStart c k => s.sliceTraffic c k false
    | _ => []
  | _ => []

/-- The traffic that waits for its turn. -/
def State.traffic (s : State) : List Crossing := (s.engineSteps ++ s.scheduleSteps).flatMap s.crossings

/-! ### Lines and copies that a step moves (R248, R259, R289, R377) -/

/-- Steps of the management plane and losses of dies: what is lost with a die does not move, and no traffic holds them back. -/
def unheld (x : Choice) : Bool :=
  match x with
  | .event i => match i with
    | .dieReset _ _ => true
    | .dieDrainEnd _ => true
    | .dieDrainDeadline _ => true
    | .allLinksDown _ => true
    | .linkPlaneDown _ _ => true
    | .mapOutCluster _ => true
    | .coldReset => true
    | _ => false
  | _ => false

/-- A step drops copies without writing them back (R162). -/
def State.discards (s : State) (x : Choice) : Bool :=
  match x with
  | .event i => match i with
    | .rangeOperationEnd k => ((nth? s.fl.ranges k).map (·.kind)) == some .discard
    | _ => false
  | _ => false

/-- The context lines that a step takes from a cluster to their home slices, or from there to a cluster. -/
def State.linesCarried (s t : State) : List Crossing :=
  t.ctx.lines.filterMap fun x =>
    let go := fun (c answer : Nat) => some ({ plane := bulk, answer := answer, src := portOf c, dst := s.homePort x.1, asid := none, lines := [x.1] } : Crossing)
    match SMap.get? s.ctx.lines x.1 with
    | none => x.2.place.cluster?.bind fun c => go c bulk
    | some l => match l.place.cluster?, x.2.place with
      | some c, .memory => go c narrow
      | some c, .toSlot _ _ _ => go c narrow
      | _, _ => none

/-- The die copies that a step writes back. -/
def State.copiesCarried (s t : State) : List Crossing :=
  s.mem.copies.filterMap fun x =>
    if x.2.dirty ≠ 0 ∧ ((SMap.get? t.mem.copies x.1).map (·.dirty)).getD 0 = 0 then some (s.copyTraffic (x.1 / 2 ^ 45) (x.1 % 2 ^ 45) narrow)
    else none

/-- What a step carries of lines and copies. -/
def State.carried (s t : State) (x : Choice) : List Crossing :=
  if unheld x then []
  else s.linesCarried t ++ (if s.discards x ∨ (x matches .replaceCopy _ _) then [] else s.copiesCarried t)

end Sys2Proof.Machine
end

