-- ==== Sys2Proof/Machine/Armature.lean ====
section
/-! DEFINITION. The Armature at work: tokens (R357), the injection, arrival and performance of requests in the orders of R379 to R381, the merging of
requests (R382, R383), and what a step of the device needs of it. -/

namespace Sys2Proof.Machine

/-! ### Tokens (R357) -/

/-- A port's buckets. -/
def State.port (s : State) (p : Nat) : Port := SMap.getD s.fab.ports p { buckets := [], active := [], last := 4095, filled := 0 }

/-- The tokens of an ASID at a port. -/
def State.tokens (s : State) (p : Nat) (asid : BitVec 12) : Nat := SMap.getD (s.port p).buckets asid.toNat 0

/-- Take a token of an ASID at a port. -/
def State.takeToken (s : State) (p : Nat) (asid : BitVec 12) : State :=
  let q := s.port p
  let active := if q.active.contains asid.toNat then q.active else q.active ++ [asid.toNat]
  { s with fab := { s.fab with
    ports := SMap.set s.fab.ports p { q with buckets := SMap.set q.buckets asid.toNat (s.tokens p asid - 1), active := active } } }

/-- Spend one token of an ASID at a port; none when its bucket is empty. -/
def State.spend (s : State) (p : Nat) (asid : BitVec 12) : Option State := if s.tokens p asid = 0 then none else some (s.takeToken p asid)

/-- The requests that wait at a port. -/
def State.waitingAt (s : State) (p : Nat) : List Request := s.requests.filter fun r => r.src == p && (s.flit r).isNone

/-- The ASIDs with a request or other traffic waiting at a port, or that injected in the interval just ended, in increasing order. -/
def State.portAsids (s : State) (p : Nat) (q : Port) : List Nat :=
  let waiting := ((s.waitingAt p).map fun r => r.asid.toNat) ++ (s.traffic.filter fun x => x.src == p).filterMap fun x => x.asid.map (·.toNat)
  (List.range Config.asids).filter fun a => waiting.contains a || q.active.contains a

/-- The members of an interval's remainder: r of them in increasing order, starting after the one that began the last, and wrapping. -/
def remainderFrom (l : List Nat) (last r : Nat) : List Nat :=
  ((l.filter fun a => decide (last < a)) ++ l.filter fun a => decide (a ≤ last)).take r

/-- A port after a refill. -/
def State.refill (s : State) (p : Nat) : Port :=
  let q := s.port p
  let l := s.portAsids p q
  let weight := fun a => (s.asidRegs (BitVec.ofNat 12 a)).weight.toNat
  let total := (l.map weight).sum
  let share := fun a => if total = 0 then 0 else 1024 * weight a / total
  let more := remainderFrom l q.last (1024 - (l.map share).sum)
  { buckets := l.foldl (fun b a =>
      let n := share a + if more.contains a then 1 else 0
      SMap.set b a (min (SMap.getD b a 0 + n) (2 * n))) q.buckets
    active := [], last := more.headD q.last, filled := s.sched.cycle + 1 }

/-- It is the cycle of a port's refill, which it has not had. -/
def State.refills (s : State) (p : Nat) : Bool := s.sched.cycle % 1024 == 0 && (s.port p).filled != s.sched.cycle + 1

/-- TOKEN_REFILL (R357): every 1,024 fabric cycles an injection port refills its buckets. -/
def execTokenRefill (die port : Nat) (s : State) : Out :=
  if die < 4 ∧ port < 64 ∧ s.refills (die * 64 + port) then
    .next { s with fab := { s.fab with ports := SMap.set s.fab.ports (die * 64 + port) (s.refill (die * 64 + port)) } }
  else notNow "TOKEN_REFILL"

/-- The ports that refill in this cycle: those with requests or other traffic waiting, or that injected in the interval just ended. -/
def State.refillsDue (s : State) : List Nat :=
  if s.sched.cycle % 1024 = 0 then
    (((s.requests.filter fun r => (s.flit r).isNone).map (·.src)) ++ (s.traffic.map (·.src)) ++ ((s.fab.ports.filter fun p => !p.2.active.isEmpty).map (·.1))).dedup.filter
      s.refills
  else []

/-! ### Injection (R357, R381) -/

/-- The requests of one ASID that wait at a request's port and stand before it in the queue. -/
def State.before (s : State) (r : Request) : List Request :=
  (s.waitingAt r.src).filter fun q => q.asid == r.asid && decide (q.order < r.order)

/-- How often a waiting request has been passed. -/
def State.passed (s : State) (q : Request) : Nat := SMap.getD s.fab.passes q.id 0

/-- A request may pass an earlier one of its ASID (R381): one that has not been passed 16 times, that names no line of it, and that carries
no release of its context. -/
def State.mayPass (s : State) (r q : Request) : Bool :=
  decide (s.passed q < 16) && !overlaps q.lines r.lines && !(q.rel && q.who == r.who && q.who.isSome)

/-- The planes of a request and of its answer are up, or one of its dies is gone (R377). -/
def State.linked (s : State) (plane answer src dst : Nat) : Bool :=
  s.portGone src dst || (s.wayUp plane (s.portWay src dst) && s.wayUp answer (s.portWay dst src))

/-- Host memory is there for the lines named: a CXL port is up (R396, R397). -/
def State.hostUp (s : State) (lines : List Nat) : Bool := s.portUp 0 || s.portUp 1 || lines.all fun x => !isHostPa (128 * x)

/-- A request may be injected: it waits at its port, what its context must have done first has been done, it passes only those that it may,
and its planes, or its CXL port, are up (R377, R381, R396). -/
def State.mayInject (s : State) (r : Request) : Bool :=
  (s.flit r).isNone && r.ready && (s.before r).all (s.mayPass r) && s.linked r.plane r.answer r.src r.dst && s.hostUp r.lines

/-- The translation with which an access leaves is the one with which it is performed. -/
def State.fixAccess (s : State) (id : Nat) : State :=
  { s with fl := { s.fl with pend := s.fl.pend.map fun p => match p.what with
      | .access a => if 3 * p.seq = id then { p with what := .access (s.translated a) } else p
      | .value _ _ => p } }

/-- A request leaves its port: it costs a token of its ASID, and those that it passes have been passed once more. -/
def State.injected (s : State) (r : Request) : State :=
  { s.fixAccess r.id with fab := { s.fab with
      sent := SMap.set s.fab.sent r.id { left := s.fab.left, way := s.portWay r.src r.dst, arrived := false }
      passes := (s.before r).foldl (fun m q => SMap.set m q.id (s.passed q + 1)) (SMap.erase s.fab.passes r.id)
      left := s.fab.left + 1 } }

/-- The request of a number is injected at its port (R357, R381). -/
def injects (id : Nat) (s : State) : Out :=
  match s.requests.find? fun r => r.id == id with
  | none => notNow "INJECT"
  | some r =>
    if s.mayInject r then
      match s.spend r.src r.asid with
      | some t => .next (t.injected r)
      | none => notNow "INJECT"
    else notNow "INJECT"

/-! ### Arrival (R380, R384) -/

/-- Another request is ahead on one path: it left before from the same port to the same port by the same way, and has not arrived. -/
def State.behind (s : State) (r : Request) (f : Flit) : Bool :=
  s.requests.any fun q => q.id != r.id && q.src == r.src && q.dst == r.dst && q.plane == r.plane && (match s.flit q with
    | some g => !g.arrived && decide (g.left < f.left) && g.way == f.way
    | none => false)

/-- The request of a number comes to its destination's port: flits on one path keep their order, and a flit is held while a switch or a
plane on its path is down. -/
def arrives (id : Nat) (s : State) : Out :=
  match s.requests.find? fun r => r.id == id with
  | none => notNow "ARRIVE"
  | some r =>
    match s.flit r with
    | none => notNow "ARRIVE"
    | some f =>
      if !f.arrived ∧ !s.behind r f ∧ s.pathUp 0 r.plane r.src r.dst f.way then
        let t := s.pathUsed 0 r.plane r.src r.dst f.way
        .next { t with fab := { t.fab with sent := SMap.set t.fab.sent r.id { f with arrived := true, came := t.fab.left }, left := t.fab.left + 1 } }
      else notNow "ARRIVE"

/-! ### Performance (R379) -/

/-- A request of the same source die to a line of this one left before it and is not performed: it comes first (R379), unless it waits for
another context's access. -/
def State.lineBusy (s : State) (r : Request) (f : Flit) : Bool :=
  s.requests.any fun q => q.id != r.id && q.src / 64 == r.src / 64 && overlaps q.lines r.lines && !q.waits && (match s.flit q with
    | some g => decide (g.left < f.left)
    | none => false)

/-- An earlier request of the context of a release that crosses a boundary with it has not been performed: it comes first (R379). -/
def State.releaseLate (s : State) (r : Request) : Bool :=
  r.rel && r.who.isSome && !(wayBoundaries (s.portWay r.src r.dst)).isEmpty && s.requests.any fun q =>
    q.id != r.id && q.who == r.who && decide (q.order < r.order) &&
      overlaps (wayBoundaries (s.portWay q.src q.dst)) (wayBoundaries (s.portWay r.src r.dst))

/-- Another request to the handle table of this one arrived there before it (R272). -/
def State.tableLate (s : State) (r : Request) (f : Flit) : Bool :=
  r.table.isSome && s.requests.any fun q => q.id != r.id && q.table == r.table && (match s.flit q with
    | some g => g.arrived && decide (g.came < f.came)
    | none => false)

/-- A request is performed at its destination now: it has arrived, the orders of its line, of its context and of a handle table allow it, and its
answer has its path. -/
def State.mayPerform (s : State) (r : Request) : Bool :=
  match s.flit r with
  | none => false
  | some f => f.arrived && !s.lineBusy r f && !s.releaseLate r && !s.tableLate r f && s.hostUp r.lines && s.pathUp 1 r.answer r.dst r.src (s.portWay r.dst r.src)

/-- What the Armature keeps of requests that are no more. -/
def State.tidy (s : State) : State :=
  if s.fab.sent.isEmpty && s.fab.passes.isEmpty then s
  else
    let ids := s.requests.map (·.id)
    { s with fab := { s.fab with
        sent := s.fab.sent.filter fun x => ids.contains x.1, passes := s.fab.passes.filter fun x => ids.contains x.1 } }

/-- A request is no longer in the Armature: performed, or turned back by a NACK. -/
def State.drawn (s : State) (id : Nat) : State := { s with fab := { s.fab with sent := SMap.erase s.fab.sent id } }.tidy

/-! ### Merging (R382, R383) -/

/-- Two paths meet at the two inputs of a switch on the way to one output, the first on the upper input. -/
def pathsMeet (x y : Nat × Nat × Nat) : Bool :=
  x.1 == y.1 && x.2.2 == y.2.2 && x.2.1 != y.2.1 &&
    (match ((omegaPath x.2.1 x.2.2).zip (omegaPath y.2.1 y.2.2)).find? fun z => z.1.2.1 == z.2.2.1 with
     | some z => z.1.2.2 == 0
     | none => false)

/-- Two requests on their way meet at a switch of the request network, the first at its upper input. -/
def State.meet (s : State) (r q : Request) : Bool :=
  match s.flit r, s.flit q with
  | some f, some g =>
    !f.arrived && !g.arrived && r.plane == q.plane &&
      (legs r.plane (r.src % 64) (r.dst % 64) f.way).any fun x => (legs q.plane (q.src % 64) (q.dst % 64) g.way).any (pathsMeet x)
  | _, _ => false

/-- The two requests that a step merges. -/
def State.mergePair (s : State) : Choice → Option (Option Request × Option Request)
  | .event i =>
    let entry := fun (buf k : Nat) => (nth? (s.sendsOf buf) k).bind (s.sendRequest buf k)
    match i with
    | .amoMerge k1 k2 => some ((nth? s.fl.pend k1).bind s.pendRequest, (nth? s.fl.pend k2).bind s.pendRequest)
    | .eventMerge b1 k1 b2 k2 => some (entry b1 k1, entry b2 k2)
    | _ => none
  | _ => none

/-! ### A step of the device with the Armature between its ends -/

/-- A flit is ahead on the path of other traffic: it has left the same port for the same port by the same way, and has not arrived (R380). -/
def State.flitAhead (s : State) (x : Crossing) : Bool :=
  s.requests.any fun q => q.src == x.src && q.dst == x.dst && q.plane == x.plane && (match s.flit q with
    | some g => !g.arrived && g.way == s.portWay x.src x.dst
    | none => false)

/-- A request of the same die to a line of other traffic has left and is not performed: it comes first (R379). -/
def State.lineAhead (s : State) (x : Crossing) : Bool :=
  s.requests.any fun q => q.src / 64 == x.src / 64 && overlaps q.lines x.lines && !q.waits && (s.flit q).isSome

/-- The requests that wait at the port of other traffic and that it passes: those of its ASID. -/
def State.passedBy (s : State) (x : Crossing) : List Request := (s.waitingAt x.src).filter fun q => some q.asid == x.asid

/-- Other traffic passes now, and its answer comes back: its ASID has a token (R357), it passes only those that it may (R381), none is ahead of it, and
its path and its answer's are up. -/
def State.crossable (s : State) (x : Crossing) : Bool :=
  x.src == x.dst || s.portGone x.src x.dst ||
    ((x.asid.all fun a => s.tokens x.src a != 0) && ((s.passedBy x).all fun q => decide (s.passed q < 16) && !overlaps q.lines x.lines) &&
      !s.flitAhead x && !s.lineAhead x && s.hostUp x.lines && s.pathUp 0 x.plane x.src x.dst (s.portWay x.src x.dst) &&
      s.pathUp 1 x.answer x.dst x.src (s.portWay x.dst x.src))

/-- The token that other traffic takes, and the passes of those that it has passed. -/
def State.charged (s : State) (x : Crossing) (behind : List Request) : State :=
  match x.asid with
  | none => s
  | some a =>
    let t := s.takeToken x.src a
    { t with fab := { t.fab with passes := behind.foldl (fun m q => SMap.set m q.id (SMap.getD m q.id 0 + 1)) t.fab.passes } }

/-- After it has passed. -/
def State.crossed (s : State) (x : Crossing) (behind : List Request) : State :=
  if x.src = x.dst ∨ s.portGone x.src x.dst then s
  else ((s.charged x behind).pathUsed 0 x.plane x.src x.dst (s.portWay x.src x.dst)).pathUsed 1 x.answer x.dst x.src (s.portWay x.dst x.src)

/-- What the Armature makes of a step: a request that the step performs has come to its destination and its turn; two that it merges meet;
other traffic, and the lines and copies that the step moves, pass. The idle counts of the switches and planes on the paths start again. -/
def overFabric (s : State) (x : Choice) (o : Out) : Out :=
  match o with
  | .next t =>
    match s.mergePair x with
    | some (some r, some q) => if s.meet r q then .next t.tidy else notNow "FABRIC"
    | some _ => notNow "FABRIC"
    | none =>
      match s.requestOf x with
      | some r =>
        let l := s.carried t x
        if s.portGone r.src r.dst ∧ s.hostUp r.lines then .next (t.drawn r.id)
        else if s.mayPerform r ∧ l.all s.crossable then
          .next (l.foldl (fun u y => u.crossed y []) ((t.drawn r.id).pathUsed 1 r.answer r.dst r.src (s.portWay r.dst r.src)))
        else notNow "FABRIC"
      | none =>
        let l := s.crossings x ++ s.carried t x
        if l.all s.crossable then .next (l.foldl (fun u y => u.crossed y (s.passedBy y)) t).tidy else notNow "FABRIC"
  | .fault f => .fault f
  | .refused r => .refused r

/-- The switches on the paths of requests on their way, and of other traffic, that hold it because they have powered down. -/
def State.sleepers (s : State) (l : List Crossing) : List Nat :=
  let path := fun (net plane src dst : Nat) (way : List Nat) => (pathSwitches net plane src dst way).filter fun sw =>
    !(s.switch sw).passes switchIdle s.sched.cycle && !(s.switch sw).comes s.sched.cycle
  let both := fun (plane answer src dst : Nat) (way : List Nat) =>
    if s.portGone src dst ∨ src = dst then [] else path 0 plane src dst way ++ path 1 answer dst src (s.portWay dst src)
  ((s.requests.flatMap fun r => match s.flit r with
    | some f => both r.plane r.answer r.src r.dst f.way
    | none => []) ++ l.flatMap fun x => both x.plane x.answer x.src x.dst (s.portWay x.src x.dst)).dedup

/-- The boundaries whose bulk planes hold traffic because their lanes have powered down. -/
def State.sleepingPlanes (s : State) (l : List Crossing) : List Nat :=
  let spans := fun (plane : Nat) (way : List Nat) => if plane = narrow then [] else wayBoundaries way
  let wakes := fun (b : Nat) => s.fab.lanes.any fun x => lanePlane x.1 == 2 * b + bulk && !x.2.retired && x.2.power.comes s.sched.cycle
  (((s.requests.flatMap fun r => match s.flit r with
    | some f => spans r.plane f.way ++ spans r.answer (s.portWay r.dst r.src)
    | none => []) ++ l.flatMap fun x => spans x.plane (s.portWay x.src x.dst) ++ spans x.answer (s.portWay x.dst x.src)).dedup).filter
    fun b => !s.lanesPass b && !wakes b

end Sys2Proof.Machine
end

