-- ==== Sys2Proof/Machine/Fabric.lean ====
section
/-! DEFINITION. The fabric and the loss of a die: switches, lanes and link planes (R377 to R384, R393, R394, R405), the quiesce, drain, fence
and rejoin of a die (R385 to R389), and the mapping out of a cluster (R394). -/

namespace Sys2Proof.Machine

/-! ### Power of switches and lanes (R384) -/

/-- A switch of a live die takes the power state that a step gives it. -/
def switchStep (what : String) (sw : Nat) (s : State) (p : Option PowerState) : Out :=
  match p with
  | some q => if switchDie sw < 4 ∧ (s.die (switchDie sw)).present ∧ !(s.die (switchDie sw)).lost then .next (s.setSwitch sw q) else notNow what
  | none => notNow what

/-- SWITCH_POWER_DOWN (R384). -/
def execSwitchPowerDown (sw : Nat) (s : State) : Out :=
  switchStep "SWITCH_POWER_DOWN" sw s ((s.switch sw).sleep switchIdle s.sched.cycle)

/-- SWITCH_WAKE (R384): a wake wins over the decision to power down. -/
def execSwitchWake (sw : Nat) (s : State) : Out := switchStep "SWITCH_WAKE" sw s (some ((s.switch sw).wake switchIdle s.sched.cycle))

/-- SWITCH_POWER_UP (R384). -/
def execSwitchPowerUp (sw : Nat) (s : State) : Out := switchStep "SWITCH_POWER_UP" sw s ((s.switch sw).rise s.sched.cycle)

/-! ### Lanes and planes (R12, R379, R384, R393) -/

/-- A lane carries traffic: its plane is up, and it is not retired. -/
def State.laneUp (s : State) (ln : Nat) : Bool := s.planeUp (lanePlane ln) && !(s.fabLane ln).retired

/-- A lane of a bulk plane takes the power state that a step gives it; the narrow plane never powers down. -/
def laneStep (what : String) (ln : Nat) (s : State) (p : Option PowerState) : Out :=
  match p with
  | some q => if s.laneUp ln ∧ lanePlane ln % 2 = 1 then .next (s.setFabLane ln { s.fabLane ln with power := q }) else notNow what
  | none => notNow what

/-- BULK_LANE_POWER_DOWN (R384). -/
def execBulkLanePowerDown (ln : Nat) (s : State) : Out :=
  laneStep "BULK_LANE_POWER_DOWN" ln s ((s.lanePower ln).sleep laneIdle s.sched.cycle)

/-- BULK_LANE_WAKE (R384). -/
def execBulkLaneWake (ln : Nat) (s : State) : Out := laneStep "BULK_LANE_WAKE" ln s (some ((s.lanePower ln).wake laneIdle s.sched.cycle))

/-- BULK_LANE_POWER_UP (R384). -/
def execBulkLanePowerUp (ln : Nat) (s : State) : Out :=
  laneStep "BULK_LANE_POWER_UP" ln s ((s.lanePower ln).rise s.sched.cycle)

/-- LINK_CRC_ERROR (R379): a flit of a lane fails its CRC and is resent, in its place in the order of its plane. -/
def execLinkCrcError (ln : Nat) (s : State) : Out :=
  if s.laneUp ln then .next (s.setFabLane ln { s.fabLane ln with errors := (s.fabLane ln).errors + 1 }) else notNow "LINK_CRC_ERROR"

/-- The lanes of a plane that are not retired (log entry 24). -/
def State.lanesLeft (s : State) (p : Nat) : Nat :=
  Config.planeLanes p - (s.fab.lanes.filter fun x => lanePlane x.1 == p && x.2.retired).length

/-- The bits of a LINK record that name a plane (R393). -/
def planeBits (p : Nat) : Nat := (boundaryDies (p / 2)).1 * 2 ^ 16 + (boundaryDies (p / 2)).2 * 2 ^ 18 + p % 2 * 2 ^ 20

/-- A bit of READY_MAP is set or cleared (R397). -/
def State.setReady (s : State) (i : Nat) (v : Bool) : State :=
  let m : Word := 1#64 <<< i
  { s with mgmt := { s.mgmt with ready := if v then s.mgmt.ready ||| m else s.mgmt.ready &&& ~~~m } }

/-- The replace-requested bit is set (R394). -/
def State.replace (s : State) : State := s.setReady 63 true

/-- The live die of the lowest number: its time base says when the others tick. -/
def State.firstDie (s : State) : Nat := ((List.range 4).find? s.live).getD 0

/-- LANE_RETIRE (R379, R393, R394): a lane that has failed its CRC repeatedly is retired. -/
def execLaneRetire (ln : Nat) (s : State) : Out :=
  if s.laneUp ln ∧ 2 ≤ (s.fabLane ln).errors then
    let s := (s.setFabLane ln { s.fabLane ln with retired := true }).replace
    .next (s.linkError 1 (planeBits (lanePlane ln)) (s.lanesLeft (lanePlane ln)) (boundaryDies (lanePlane ln / 2)).1)
  else notNow "LANE_RETIRE"

/-- A plane reports link-down: LINKS of its two dies clears, and a LINK record of cause 2 is written (R393, R397). -/
def State.planeDown (s : State) (p : Nat) : State :=
  let (a, b) := boundaryDies (p / 2)
  let s := { s with fab := { s.fab with planesDown := s.fab.planesDown ++ [p] } }
  ((s.setReady (8 * a + 6) false).setReady (8 * b + 6) false).linkError 2 (planeBits p) (s.lanesLeft p) a

/-- DUSET_LINK_LOSS (R405): a Duset port loses its link; DUSET clears and a LINK record names the port. -/
def execDusetLinkLoss (die port : Nat) (s : State) : Out :=
  if s.live die ∧ die < 4 ∧ port < 4 then
    .next ((s.setReady 34 false).linkError 2 (die * 2 ^ 16 + 2 ^ 21 + port * 2 ^ 22) 0 die)
  else notNow "DUSET_LINK_LOSS"

/-! ### What is lost with clusters (R386, R387, R394) -/

/-- A gang with a member among lost clusters: no further slice of it runs, and it completes with status 9 (R387). -/
def Gang.loseMember (g : Gang) (gone : Nat → Bool) : Gang :=
  if g.slices.any fun x => gone x.cluster then
    { g with slices := g.slices.map fun x =>
        if x.phase ≠ .ended ∨ x.status ≠ 0 then { x with phase := .ended, status := 9, w0 := 0 } else x }
  else g

/-- The tiles, queues, commands and gangs of lost clusters (R386): the handle tables keep their generations, no completion of their
commands is delivered, and a freed tile that only such a command held holds its granules no longer (R271). -/
def Engines.lose (x : Engines) (gone : Nat → Bool) : Engines :=
  let running := (x.running.filter fun q => !gone (q.1 / 3)).map fun q =>
    (q.1, q.2.map fun r => { r with gang := r.gang.map fun g => g.loseMember gone })
  let stays := fun (e : LaneEntry) => match (SMap.getD running (3 * e.home) []).find? fun r => r.e.id == e.cmd with
    | some r => match r.gang.bind fun g => nth? g.slices e.index with
      | some y => y.phase != .ended
      | none => false
    | none => false
  { x with
    tiles := x.tiles.map fun t => if gone (t.1 / Config.handleEntries) then (t.1, { Tile.reset with gen := t.2.gen }) else t
    held := x.held.filter fun h => !gone (refCluster h.ref) && running.any fun q => q.2.any fun r =>
      !r.ended && (r.reads.contains h.ref || r.writes.contains h.ref)
    queues := x.queues.filter fun q => !gone (q.1 / 3)
    accepted := x.accepted.filter fun q => !gone (q.1 / 3)
    running := running
    seqs := x.seqs.map fun q => { q with requests := q.requests.filter fun r => (SMap.getD running (3 * r.2.1) []).any fun y => y.e.id == r.2.2 &&
      (match y.gang with
       | some g => !g.finished
       | none => false) }
    lanes := (x.lanes.filter fun l => !gone l.1).filterMap fun l =>
      let m := l.2.filter stays
      if m.isEmpty then none else some (l.1, m) }

/-- A line is in a place of lost clusters. -/
def Place.within (p : Place) (gone : Nat → Bool) : Bool :=
  match p.cluster? with
  | some c => gone c
  | none => false

/-- A context line is lost (R386): a MEMORY record of cause 4 names it, with the structure that held it: a context cache, or the home slice
that owned it (R248, R393). -/
def State.loseRecorded (s : State) (key writer : Nat) : State :=
  match SMap.get? s.ctx.lines key with
  | some l => (s.loseLine key).memoryError 4 l.c.asid l.handle 0 0 (128 * key) (if l.place.cluster?.isSome then 2 else 1) writer
  | none => s

/-- A line elsewhere that a slot of a lost cluster had claimed stays with its owner, READY (R387): one on its way to the slot, with its home
slice. -/
def Line.unclaimed (l : Line) (gone : Nat → Bool) : Line :=
  if l.c.st.valid && gone l.c.here && !l.place.within gone then
    { l with
      place := l.place.settled
      c := { l.c with st := { l.c.st with valid := false, state := if l.c.st.state = .running then .ready else l.c.st.state } } }
  else l

/-- The requests in the SFU queues of lost clusters whose lines survive: QRED, SFU and divide operations complete normally (R387), their results
being on their way. -/
def State.sfuResults (s : State) (gone : Nat → Bool) : List Pending :=
  (s.fl.sfu.filter fun q => gone q.1).flatMap fun q => q.2.queue.map fun r =>
    { line := r.line, clear := r.clear, what := .value r.writes none, wake := false, tag := none, seq := r.seq }

/-- Clusters and all that they hold are lost (R386): their slots, lists, queues, tiles, banks, send buffers, and the accesses under way
from them. -/
def State.loseClusters (s : State) (gone : Nat → Bool) (writer : Nat) : State :=
  let s := ((s.ctx.lines.filter fun x => x.2.place.within gone).map (·.1)).foldl (fun t k => t.loseRecorded k writer) s
  { s with
    eng := s.eng.lose gone
    groups := s.groups.filter fun g => !gone (g.1 / 256)
    chains := s.chains.filter fun x => !gone x.1
    fl := { s.fl with
      sfu := s.fl.sfu.filter fun q => !gone q.1
      pend := s.fl.pend ++ s.sfuResults gone
      launches := s.fl.launches.filter fun w => !gone w.cluster
      sends := s.fl.sends.filter fun b => !(decide (b.1 < 192) && gone b.1) }
    ctx := { s.ctx with
      lines := s.ctx.lines.map fun x => (x.1, x.2.unclaimed gone)
      resid := s.ctx.resid.filter fun x => !x.2.1.within gone
      slots := s.ctx.slots.filter fun x => !gone (x.1 / 32)
      run := s.ctx.run.filter fun x => !gone (x.1 / 4)
      limits := s.ctx.limits.filter fun x => !gone x.1
      heldAppends := s.ctx.heldAppends.filter fun x => !gone x.1 }
    mem := { s.mem with stale := s.mem.stale.filter fun x => !gone x.1 } }

/-- The requests in the spawn backlogs of lost clusters are dropped (R342), and contexts that wait for a line of one issue their SPAWN
again. -/
def State.loseSpawns (s : State) (gone : Nat → Bool) (writer : Nat) : State :=
  let dropped := (s.launch.backlogs.filter fun b => gone b.1).flatMap (·.2)
  let s := { s with launch := { s.launch with backlogs := s.launch.backlogs.filter fun b => !gone b.1 } }
  let s := dropped.foldl (fun t r => t.refuseSpawn r 4 (writer * 48)) s
  let waiting := s.ctx.spawnWait.filter fun x => gone x.2
  let s := { s with ctx := { s.ctx with spawnWait := s.ctx.spawnWait.filter fun x => !gone x.2 } }
  waiting.foldl (fun t x => match SMap.get? t.ctx.lines x.1 with
    | some l => if l.c.st.state = .waiting ∧ l.c.waitKind = 5 then t.wake x.1 l else t
    | none => t) s

/-! ### Operations toward a die (R387, R388) -/

/-- An access from a die, or to memory homed on it. -/
def State.accessOn (s : State) (d : Nat) (a : Access) : Bool := dieOf a.cluster == d || a.bytes.any fun pa => s.homeDie pa == some d

/-- A result in flight that is such an access. -/
def State.pendOn (s : State) (d : Nat) (p : Pending) : Bool :=
  match p.access? with
  | some a => s.accessOn d a
  | none => false

/-- A store from a die, or to memory homed on it. -/
def State.storeOn (s : State) (d : Nat) (x : Store) : Bool := dieOf x.cluster == d || x.pas.any fun pa => s.homeDie pa == some d

/-- The die of the owner of the line that a handle names (R248). -/
def State.ownerDieOf (s : State) (asid : BitVec 12) (h : Word) : Option Nat :=
  (s.handlePage 0 asid h).bind fun x =>
    match SMap.get? s.ctx.lines (x.1 / 128) with
    | some l => l.place.ownerDie.or (s.homeDie x.1)
    | none => s.homeDie x.1

/-- The die of a posted command's home. -/
def postDie (w : BitVec 256) : Nat :=
  let c := cmdArgsOf w
  if ownerCop (copOf w) then dieOf (ownerOf c) else tileDie (homeHandle (copOf w) c)

/-- A request of a send buffer toward a die. -/
def State.sendToward (s : State) (d : Nat) (e : SendEntry) : Bool :=
  match e.what with
  | .event x _ => evDie x.addr == d
  | .post w _ _ => postDie w == d
  | .msg h _ _ _ _ _ _ => s.ownerDieOf e.asid h == some d
  | .dep h _ _ => s.ownerDieOf e.asid h == some d
  | .notice _ _ _ _ => false

/-- The operations in flight toward a die or from it, issued before operation q: accesses, stores, requests of send buffers, at banks, at
handle tables and at owners. -/
def State.opsOn (s : State) (d q : Nat) : Nat :=
  (s.fl.pend.filter fun p => decide (p.seq < q) && s.pendOn d p).length + (s.mem.stores.filter fun x => decide (x.seq < q) && s.storeOn d x).length +
  (s.fl.sends.flatMap fun b => b.2.filter fun e => decide (e.id < q) && (bufDie b.1 == d || s.sendToward d e)).length +
  (s.fl.banks.filter fun r => decide (r.seq < q) && evDie r.addr == d).length +
  (s.fl.handles.filter fun r => decide (r.seq < q) && dieOf r.what.cluster == d).length +
  (s.fl.owners.filter fun r => decide (r.seq < q) && s.ownerDieOf r.asid r.handle == some d).length

/-- A result in flight is an access from another die to memory homed on a die. -/
def State.pendToward (s : State) (d : Nat) (p : Pending) : Bool := match p.access? with
  | some a => dieOf a.cluster != d && a.bytes.any fun pa => s.homeDie pa == some d
  | none => false

/-- A range operation from another die whose range has memory of a die. -/
def State.rangeToward (s : State) (d : Nat) (r : RangeReq) : Bool :=
  match SMap.get? s.ctx.lines r.line with
  | none => false
  | some l =>
    let lo := (l.c.reg (regOf r.areg)).toNat % 2 ^ 57
    let hi := lo + (l.c.reg (regOf r.breg)).toNat
    dieOf r.cluster != d && s.mem.pages.any fun p => meetsPage l.c.asid lo hi p &&
      [max lo p.va, min hi (p.va + p.size) - 1].any fun va => s.homeDie (p.pa + (va - p.va)) == some d

/-- A request is from a context on another die. -/
def State.fromElsewhere (s : State) (d line : Nat) : Bool := match SMap.get? s.ctx.lines line with
  | some l => l.c.dieNum != d
  | none => true

/-- The MMAGs with a member on a die and a home on another that have not completed. -/
def State.gangsOver (s : State) (d : Nat) : Nat :=
  (s.eng.running.flatMap fun q => q.2.filter fun r => dieOf (q.1 / 3) != d && !r.ended && (match r.gang with
    | some g => g.slices.any fun x => dieOf x.cluster == d
    | none => false)).length

/-- The claims and line moves toward a die from others. -/
def State.movesToward (s : State) (d : Nat) : Nat :=
  (s.ctx.lines.filter fun x => match x.2.place with
    | .transit c => dieOf c == d && s.homeDie (128 * x.1) != some d
    | .toSlot c _ _ => dieOf c == d && s.homeDie (128 * x.1) != some d
    | _ => false).length +
  (s.ctx.slots.filter fun x => dieOf (x.1 / 32) != d && (x.2.asking.bind fun key => SMap.get? s.ctx.lines key).any fun l => l.place.ownerDie == some d).length

/-- The operations of R387's table that are in flight toward a die, or accepted there: accesses, stores, range operations, requests of other dies' send
buffers, at banks, at handle tables and at owners; commands at it, gangs over it, claims and lines that move to it (R393). -/
def State.opsToward (s : State) (d : Nat) : Nat :=
  (s.fl.pend.filter (s.pendToward d)).length +
  (s.mem.stores.filter fun x => dieOf x.cluster != d && x.pas.any fun pa => s.homeDie pa == some d).length +
  (s.fl.sends.flatMap fun b => b.2.filter fun e => bufDie b.1 != d && s.sendToward d e).length +
  (s.fl.ranges.filter (s.rangeToward d)).length + (s.fl.banks.filter fun r => s.fromElsewhere d r.line && evDie r.addr == d).length +
  (s.fl.handles.filter fun r => s.fromElsewhere d r.line && dieOf r.what.cluster == d).length +
  (s.fl.owners.filter fun r => r.die != d && s.ownerDieOf r.asid r.handle == some d).length +
  ((s.eng.queues.filter fun q => dieOf (q.1 / 3) == d).flatMap (·.2)).length +
  ((s.eng.running.filter fun q => dieOf (q.1 / 3) == d).flatMap (·.2)).length + s.gangsOver d + s.movesToward d

/-- Commands run at a die. -/
def State.dieRuns (s : State) (d : Nat) : Bool := s.eng.running.any fun q => dieOf (q.1 / 3) == d && q.2.any fun r => !r.ended

/-! ### The fence (R386 to R388) -/

/-- A line that is lost with a die (R248, R386): its owner lies there. -/
def State.lostWith (s : State) (d key : Nat) (l : Line) : Bool :=
  match l.place.ownerDie with
  | some e => e == d
  | none => s.homeDie (128 * key) == some d

/-- Whether a lost AMO was performed is unknown (R387, log entry 23): its word, where that is not lost, is written or not. -/
def State.lostAmo (s : State) (d : Nat) (p : Pending) (a : Access) : State :=
  match a.kind with
  | .amo op wide b cmp =>
    if (a.bytes.any fun pa => s.homeDie pa == some d) || a.bytes.isEmpty || s.poisoned a.bytes then s
    else if Config.lostAmoPerformed p.seq then
      let w := if wide then 64 else 32
      let x := leNat (s.readBytes a.bytes)
      s.writeBytes a.bytes (leBytes (w / 8) (amoNew op w x (b.toNat % 2 ^ w) (cmp.toNat % 2 ^ w)))
    else s
  | _ => s

/-- An access in flight that a fence ends (R387): the destination takes the replay address; a load leaves a replay marker, an AMO or an
acquiring load a record. What each line's trap names is kept by line: the first of its loads, or else of its other accesses. -/
def State.endAccess (s : State) (d : Nat) (m : SMap EndedAccess) (p : Pending) : State × SMap EndedAccess :=
  match p.access? with
  | none => (s, m)
  | some a =>
    let h := match SMap.get? s.ctx.lines p.line with
      | some l => l.handle
      | none => 0
    let note := fun (marker : Bool) => match SMap.get? m p.line with
      | some x => if marker && !x.marker then SMap.set m p.line { pc := a.pc, word := a.word, marker := marker } else m
      | none => SMap.set m p.line { pc := a.pc, word := a.word, marker := marker }
    match a.kind with
    | .amo _ _ _ _ | .acq _ =>
      (((s.lostAmo d p a).memoryError 6 a.asid h (vaWord a.pc) (vaWord a.va) (a.bytes.headD 0) 0 (dieOf a.cluster)).replayInstead p a, note false)
    | _ => (s.replayInstead p a, note true)

/-- A place in a slot or a context cache (R387): an arrival queue is neither. -/
def Place.inSlotOrCache : Place → Bool
  | .slot _ _ _ => true
  | .l1 _ _ => true
  | .l2 _ => true
  | .arrival _ => false
  | .transit _ => false
  | .toSlot _ _ _ => false
  | .toL1 _ _ _ => false
  | .memory => false

/-- A line that survives the fence of a die (R387): the context of an access that the fence has ended is trapped, and so is one in a slot or a
cache that has touched the die; any other that has is trapped at the first action applied to it. -/
def State.fenceLine (s : State) (d : Nat) (m : SMap EndedAccess) (key : Nat) : State :=
  match SMap.get? s.ctx.lines key with
  | none => s
  | some l =>
    match SMap.get? m key with
    | some x => s.trapLostAt key l (some x)
    | none =>
      if !l.c.st.dies.getLsbD d then s
      else if l.place.inSlotOrCache then s.trapLostAt key l none
      else s.setLine key { l with lost := l.lost ||| dieBit d }

/-! ### Operations through a die (R378, R387) -/

/-- The requests on their way through a die: they, or their replies, cross it between the dies on its two sides, or go to host memory by its CXL
port. -/
def State.through (s : State) (d : Nat) : List Request :=
  s.requests.filter fun r => match s.flit r with
    | some f =>
      let between := fun (way : List Nat) => way.length == 3 && way.getD 1 4 == d
      (!f.arrived && between f.way) || between (s.portWay r.dst r.src) ||
        (r.src / 64 != d && f.way.getLast? == some d && r.lines.any fun x => isHostPa (128 * x))
    | none => false

/-- A request that a step performs ends as toward a lost die: that of its destination. -/
def State.asToward (s : State) (e : Nat) (f : State → Out) : State :=
  match f { s with fab := { s.fab with dies := Vector.ofFn fun i => if i.val = e then { s.fab.dies[i] with lost := true } else s.fab.dies[i] } } with
  | .next t => t.withDies s
  | _ => s

/-- The first of a list's positions that holds an operation. -/
def opAt {α : Type} (l : List α) (f : α → Nat) (q : Nat) : Option Nat := l.findIdx? fun x => f x == q

/-- Entry k of a send buffer ends as toward a lost die, which is that of its destination. -/
def State.endSend (s : State) (die buf k : Nat) (e : SendEntry) : State :=
  match e.what with
  | .msg _ _ _ _ _ _ _ => s.asToward die (execMessageDelivery buf k)
  | .dep _ _ _ => s.asToward die (execDepositDelivery buf k)
  | .event _ _ => s.asToward die (execEventAccept buf k)
  | .post _ _ _ => s.asToward die (execCommandAccept buf k)
  | .notice _ _ _ _ => s

/-- The k-th bank request ends as toward a lost die. -/
def State.endBank (s : State) (die k : Nat) (r : BankReq) : State :=
  match r.what with
  | .step _ => s.asToward die (execStepClose k)
  | _ => s.asToward die (execGroupRequestAtBank k)

/-- A request that was on its way through a lost die ends (R387): a store is dropped, a claim leaves the line with its owner, a line stays
where it is; any other ends as toward a lost die. Accesses are ended by the fence itself. -/
def State.endThrough (s : State) (r : Request) : State :=
  let q := r.id / 3
  let e := r.dst / 64
  let s := s.drawn r.id
  if r.id % 3 = 2 then
    let (c, u, sl) := (q / 32, q / 8 % 4, q % 8)
    s.setSlot c u sl { s.slot c u sl with asking := none }
  else if r.id % 3 = 1 then s
  else
    let s := { s with mem := { s.mem with stores := s.mem.stores.filter fun x => x.seq != q } }
    let s := match s.fl.sends.findSome? fun b => (b.2.findIdx? fun x => x.id == q).map fun k => (b.1, k) with
      | some (buf, k) => (nth? (s.sendsOf buf) k).elim s (s.endSend e buf k)
      | none => s
    let s := match opAt s.fl.owners (·.seq) q with
      | some k => s.asToward e (execRequestAtLineOwner k)
      | none => s
    let s := match opAt s.fl.banks (·.seq) q with
      | some k => (nth? s.fl.banks k).elim s (s.endBank e k)
      | none => s
    let s := match opAt s.fl.handles (·.seq) q with
      | some k => s.asToward e (execHandleTableRequest k 0)
      | none => s
    match opAt s.fl.spawns (·.id) q with
    | some k => s.asToward e (execSpawnRequest k)
    | none => s

/-- The die copies that a fence drops (R386), and the records of those that held data of their own. -/
def State.loseCopies (s : State) (d writer : Nat) : State :=
  let there := fun (k : Nat) => k / 2 ^ 45 == d || s.homeDie (128 * (k % 2 ^ 45)) == some d
  let dirty := s.mem.copies.filter fun x => there x.1 && x.2.dirty != 0
  let s := { s with mem := { s.mem with copies := s.mem.copies.filter fun x => !there x.1 } }
  dirty.foldl (fun t x => t.memoryError 4 0 0 0 0 (128 * (x.1 % 2 ^ 45)) 1 writer) s

/-- The planes of a die's two boundaries. -/
def diePlanes (d : Nat) : List Nat := [2 * d, 2 * d + 1, 2 * ((d + 3) % 4), 2 * ((d + 3) % 4) + 1]

/-- Both planes of every boundary to a die close (R388), with a record for each (R393). -/
def State.closePlanes (s : State) (d writer : Nat) : State :=
  (diePlanes d).foldl (fun t p =>
    if t.planeUp p then
      ({ t with fab := { t.fab with planesDown := t.fab.planesDown ++ [p] } }.linkError 3 (planeBits p) (t.lanesLeft p) writer)
    else t) s

/-- Change a die's record. -/
def State.setDie (s : State) (d : Nat) (f : DieState → DieState) : State :=
  { s with fab := { s.fab with dies := Vector.ofFn fun e => if e.val = d then f s.fab.dies[e] else s.fab.dies[e] } }

/-- The bits of READY_MAP that are a die's: its functions, and the CXL port on D0 or D2 (R397). -/
def dieReadyBits (d : Nat) : List Nat := (List.range 8).map (8 * d + ·) ++ (if d = 0 then [32] else if d = 2 then [33] else [])

/-- The READY bits of a die clear (R388, R397). -/
def State.clearReady (s : State) (d : Nat) : State := (dieReadyBits d).foldl (fun t k => t.setReady k false) s

/-- What a die's own units hold, besides its clusters, is lost: its row cache, its gang sequencer, its ports, the send buffer of its CXL
port, and its memory. -/
def State.loseDieUnits (s : State) (d : Nat) : State :=
  { s with
    eng := { s.eng with
      seqs := Vector.ofFn fun e => if e.val = d then Sequencer.reset else s.eng.seqs[e]
      rowCaches := Vector.ofFn fun e => if e.val = d then RowCache.reset else s.eng.rowCaches[e] }
    fl := { s.fl with sends := s.fl.sends.filter fun b => bufDie b.1 != d }
    fab := { s.fab with
      ports := s.fab.ports.filter fun p => p.1 / 64 != d
      carried := s.fab.carried.filter fun x => x.1 != d && (x.1 + 1) % 4 != d
      switches := s.fab.switches.filter fun x => switchDie x.1 != d }
    mem := { s.mem with
      wiped := s.mem.wiped ||| dieBit d
      clean := s.mem.clean.filter fun u => s.homeDie (64 * u) != some d
      stores := s.mem.stores.filter fun x => !s.storeOn d x } }

/-- The fence of a die (R386 to R388): what is lost with it, the operations that it ends, and the contexts that it traps. -/
def State.fence (s : State) (d : Nat) : State :=
  let passing := s.through d
  let w := ((List.range 4).find? fun e => s.live e && e != d).getD d
  let s := ((s.closePlanes d w).clearReady d).setDie d fun x => { x with lost := true, drain := none }
  let lines := (s.ctx.lines.filter fun x => s.lostWith d x.1 x.2).map (·.1)
  let s := lines.foldl (fun t k => t.loseRecorded k w) s
  let ends := fun (p : Pending) => s.pendOn d p || (p.access?.isSome && passing.any fun r => r.id == 3 * p.seq)
  let pend := s.fl.pend.filter ends
  let s := { s with fl := { s.fl with pend := s.fl.pend.filter fun p => !ends p } }
  let gone := fun c => dieOf c == d
  let s := ((s.loseClusters gone w).loseDieUnits d).loseCopies d w
  let (s, m) := pend.foldl (fun x p => x.1.endAccess d x.2 p) (s, [])
  let s := (s.ctx.lines.map (·.1)).foldl (fun t k => t.fenceLine d m k) s
  (passing.foldl State.endThrough (s.loseSpawns gone w)).tidy

/-- The fence with the DIE record that goes before it (R388, R393). -/
def State.fenceWith (s : State) (d event : Nat) : State :=
  let lost := (s.ctx.lines.filter fun x => s.lostWith d x.1 x.2).length
  let w := ((List.range 4).find? fun e => s.live e && e != d).getD d
  (s.dieError event d (s.opsToward d + (s.through d).length) lost w).fence d

/-- The planes of a die toward live dies are up (R397). -/
def State.linksUp (s : State) (d : Nat) : Bool :=
  (diePlanes d).all fun p => s.planeUp p || !(s.live (boundaryDies (p / 2)).1 && s.live (boundaryDies (p / 2)).2)

/-- LINKS of a die is set when both planes of its edges toward live dies are up (R397): so it is again once a die is lost, or back. -/
def State.relink (s : State) (but : Nat) : State :=
  (List.range 4).foldl (fun t e => if e ≠ but ∧ t.live e ∧ t.isReady e 0 ∧ t.linksUp e then t.setReady (8 * e + 6) true else t) s

/-- A die that every link plane toward it has reported link-down is lost (R385, R388). -/
def State.loseByLinks (s : State) (die : Nat) : State :=
  ((s.setDie die fun x => { x with linkLost := true }).fenceWith die 5).relink die

/-- No link plane between a die and another live die is up. -/
def State.cutOff (s : State) (d : Nat) : Bool := s.live d && !((diePlanes d).any s.planeUp)

/-- The dies that are lost together when planes have gone down: those of the dies named that every plane toward has reported link-down (R385). Where
no other die is left live, the one of the lowest number, but for a die whose planes the step itself takes down, stays to report the failure (log entry
66). -/
def State.lostDies (s : State) (named : List Nat) (first : Option Nat) : List Nat :=
  let cut := (List.range 4).filter fun d => named.contains d && s.cutOff d
  if (List.range 4).any fun d => s.live d && !cut.contains d then cut
  else match cut.find? fun d => some d != first with
    | some d => cut.filter (· != d)
    | none => cut

/-- LINK_PLANE_DOWN (R385, R393, R397): one plane of a die boundary reports link-down. A die with the last plane toward it is lost at once, and so are
both dies of the boundary where it was the last plane toward both. -/
def execLinkPlaneDown (b pl : Nat) (s : State) : Out :=
  if pl < 2 ∧ s.planeUp (2 * b + pl) then
    let t := s.planeDown (2 * b + pl)
    let (x, y) := boundaryDies b
    .next ((t.lostDies [x, y] none).foldl State.loseByLinks t)
  else notNow "LINK_PLANE_DOWN"

/-- ALL_LINKS_DOWN (R385, R388): every plane toward a die reports link-down, and the die is lost, and with it a neighbour toward which these were the last
planes; with no other live die there is no plane toward it. -/
def execAllLinksDown (die : Nat) (s : State) : Out :=
  if s.live die ∧ (List.range 4).any (fun e => e != die && s.live e) then
    let t := ((diePlanes die).filter s.planeUp).foldl State.planeDown s
    .next ((t.lostDies [die, (die + 1) % 4, (die + 3) % 4] (some die)).foldl State.loseByLinks t)
  else notNow "ALL_LINKS_DOWN"

/-! ### A commanded reset (R388) -/

/-- Neriup answers (R402). -/
def State.reply (s : State) (r : Reply) : State := { s with mgmt := { s.mgmt with replies := s.mgmt.replies ++ [r] } }

/-- Neriup takes commands (R397, R402). -/
def State.mgmtUp (s : State) : Bool := s.mgmt.ready.getLsbD 35

/-- Why Neriup refuses a command (R400, R402). -/
inductive NeriupRefusal where
  /-- It names an absent die or cluster. -/
  | absent
  /-- It names a value out of range. -/
  | range
  /-- It is not signed under the root keys with both schemes. -/
  | unsigned
  /-- Eight pairs are enrolled, or the pair to withdraw is not. -/
  | pair
  deriving DecidableEq, Repr

/-- The number of a reason. -/
def NeriupRefusal.num : NeriupRefusal → Nat
  | .absent => 0 | .range => 1 | .unsigned => 2 | .pair => 3

/-- A reason, if it holds. -/
def refuseIf (b : Bool) (why : NeriupRefusal) : Option NeriupRefusal := if b then some why else none

/-- A command of Neriup: refused with an error code and no effect where there is a reason, else answered after its effect. -/
def neriup (what : String) (no : Option NeriupRefusal) (r : Reply) (s : State) (f : State → State) : Out :=
  if !s.mgmtUp then notNow what
  else match no with
    | none => .next ((f s).reply r)
    | some why => .next (s.reply (.refused (Config.neriupCode why.num)))

/-- A die is absent (R3, R402): a lost one is present. -/
def State.absent (s : State) (die : Nat) : Bool := !decide (die < 4) || !(s.die die).present

/-- The bulk planes between a die and the home of a byte are up, and the narrow ones back. -/
def State.planesTo (s : State) (d pa : Nat) : Bool := match s.homeDie pa with
  | some h => s.wayUp bulk (s.way d h) && s.wayUp narrow (s.way h d)
  | none => s.portUp 0 || s.portUp 1

/-- The lines owned on a die whose home slices are elsewhere and within reach, and that have no request on its way: they are written back, keeping
their state (R388). A RUNNING one stops at its boundary. -/
def State.writeBackLines (s : State) (d : Nat) : State :=
  ((s.ctx.lines.filter fun x => x.2.place.ownerDie == some d && s.homeDie (128 * x.1) != some d && s.planesTo d (128 * x.1)).map (·.1)).foldl (fun t k =>
    match SMap.get? t.ctx.lines k with
    | some l => if t.unacked k then t else t.evictToMemory k l
    | none => t) s

/-- The copies in a die's slices of lines homed elsewhere and within reach are written back (R388). -/
def State.writeBackCopies (s : State) (d : Nat) : State :=
  ((s.mem.copies.filter fun x => x.1 / 2 ^ 45 == d && s.planesTo d (128 * (x.1 % 2 ^ 45))).map (·.1)).foldl (fun t k => t.writeBack k true) s

/-- The drain deadline of a reset command in ticks of one nanosecond: 0 stands for a command that gives none, which has the default of 100 µs (R388;
log entry 68). -/
def drainTime (deadline : Nat) : Nat := if deadline = 0 then Config.drainDefault else deadline

/-- DIE_RESET (R388, R402): the quiesce of a die and the start of its drain; the deadline is in nanoseconds. A die that is draining takes the
new deadline and goes on draining; of a lost die nothing is left to drain (log entry 68). -/
def execDieReset (die deadline : Nat) (s : State) : Out :=
  let deadline := drainTime deadline
  neriup "DIE_RESET" ((refuseIf (s.absent die) .absent).or (refuseIf (decide (deadline < 1000) || decide (10000000 < deadline)) .range)) .ok s
    fun s =>
      let s := (s.clearReady die).dieError 1 die 0 0 die
      if (s.die die).lost then s.dieError 2 die 0 0 die
      else
        let at_ := (s.timeAt die).toNat + deadline
        let s := s.setDie die fun x => { x with drain := some (at_, (x.drain.map (·.2)).getD s.sched.seq) }
        (s.writeBackLines die).writeBackCopies die

/-- A draining die holds nothing of another die's, and nothing is outstanding (R388). -/
def State.drained (s : State) (d : Nat) : Bool :=
  match (s.die d).drain with
  | none => false
  | some (_, q) =>
    s.opsOn d q == 0 && !s.dieRuns d && (s.fl.sends.all fun b => bufDie b.1 != d || b.2.isEmpty) &&
      s.ctx.lines.all fun x => x.2.place.ownerDie != some d || s.homeDie (128 * x.1) == some d || !s.unacked x.1

/-- A draining die's deadline has come. -/
def State.drainOver (s : State) (d : Nat) : Bool := match (s.die d).drain with
  | some (t, _) => s.live d && decide (t ≤ (s.timeAt d).toNat)
  | none => false

/-- DIE_DRAIN_END (R388): the drain has ended before its deadline; the drain record is written, and the fence follows. -/
def execDieDrainEnd (die : Nat) (s : State) : Out :=
  if s.live die ∧ s.drained die ∧ !s.drainOver die then .next (((s.writeBackLines die).writeBackCopies die).fenceWith die 2) else notNow "DIE_DRAIN_END"

/-- DIE_DRAIN_DEADLINE (R388): the deadline expires, and what has not drained is lost. -/
def execDieDrainDeadline (die : Nat) (s : State) : Out :=
  if s.drainOver die then .next (s.fenceWith die 3) else notNow "DIE_DRAIN_DEADLINE"

/-- The latest time that the time base of any die has shown: a lost die's stands where it stood (R14). -/
def State.latestTime (s : State) : Word := (List.range 4).foldl (fun t d => maxTime t (s.timeAt d)) 0

/-- DIE_REJOIN (R14, R388, R394, R398, R399): a reset die takes the latest time that any die has shown, and rejoins when READY bits of it are set again, which
its firmware does, once it has been verified and, for ISSUE, the bring-up parameters are set; its error counters count from its reset (R390). -/
def execDieRejoin (die : Nat) (ready : BitVec 7) (s : State) : Out :=
  if (s.die die).present ∧ (s.die die).lost ∧ die < 4 ∧ ready ≠ 0 ∧ s.mgmt.bootStage = 2 ∧ (ready.getLsbD 2 → s.mgmt.based) then
    let t := s.latestTime
    let s := { s with
      time := Vector.ofFn fun e => if e.val = die then t else s.time[e]
      fab := { s.fab with planesDown := s.fab.planesDown.filter fun p => !(diePlanes die).contains p } }
    let s := s.setDie die fun x => { x with lost := false, drain := none }
    let s := (List.range 7).foldl (fun u k => if ready.getLsbD k then u.setReady (8 * die + k) true else u) s
    let s := s.relink die
    let s := { s with mgmt := { s.mgmt with
      fixed := s.mgmt.fixed || ready.getLsbD 2
      ecc := s.mgmt.ecc.filter fun x => x.1 / 8 != die
      corrected := s.mgmt.corrected.filter fun x => x.1 / 2 ^ 64 / 8 != die } }
    let s := if (s.die die).linkLost then s.replace else s
    .next (s.dieError 4 die 0 0 die)
  else notNow "DIE_REJOIN"

/-- A cluster is mapped out: from now on it is as one of a lost die (R394). -/
def State.mapOut (s : State) (c : Nat) : State :=
  if s.mgmt.mapped.contains c then s
  else
    let s := { s with mgmt := { s.mgmt with mapped := s.mgmt.mapped ++ [c] } }.replace
    (s.loseClusters (fun x => x == c) (dieOf c)).loseSpawns (fun x => x == c) (dieOf c)

/-- An HBM channel is retired (R394); channels are numbered die × 2^16 + channel. -/
def State.retireChannel (s : State) (die ch : Nat) : State :=
  { s with mgmt := { s.mgmt with retired := (s.mgmt.retired ++ [die * 2 ^ 16 + ch]).dedup } }.replace

/-- MAP_OUT_CLUSTER (R394, R402). -/
def execMapOutCluster (c : Nat) (s : State) : Out :=
  neriup "MAP_OUT_CLUSTER" ((refuseIf (decide (Config.clusters ≤ c)) .range).or (refuseIf (s.absent (dieOf c)) .absent)) .ok s (·.mapOut c)

/-- RETIRE_HBM_CHANNEL (R394, R402). -/
def execRetireHbmChannel (die ch : Nat) (s : State) : Out :=
  neriup "RETIRE_HBM_CHANNEL" ((refuseIf (s.absent die) .absent).or (refuseIf (decide (Config.hbmChannels ≤ ch)) .range)) .ok s
    (·.retireChannel die ch)

end Sys2Proof.Machine
end

