-- ==== Sys2Proof/Machine/Integer.lean ====
section
/-! DEFINITION. Integer, address and predicate instructions (R98 to R114). -/

namespace Sys2Proof.Machine

/-! ### Results -/

/-- |SInt(a)| modulo 2^64 (R99). -/
def absWord (a : Word) : Word := if a.msb then -a else a

/-- Bits [127:64] of the signed product (R100). -/
def mulhWord (a b : Word) : Word := ((a.signExtend 128 * b.signExtend 128) >>> 64).setWidth 64

/-- Bits [127:64] of the unsigned product (R100). -/
def mulhuWord (a b : Word) : Word := ((a.setWidth 128 * b.setWidth 128) >>> 64).setWidth 64

/-- DIV of R100. -/
def divWord (a b : Word) : Word := if b = 0 then BitVec.allOnes 64 else a.sdiv b

/-- DIVU of R100. -/
def divuWord (a b : Word) : Word := if b = 0 then BitVec.allOnes 64 else a / b

/-- REM of R100. -/
def remWord (a b : Word) : Word := if b = 0 then a else a.srem b

/-- REMU of R100. -/
def remuWord (a b : Word) : Word := if b = 0 then a else a % b

/-- The amount of a shift: bits [5:0] (R101). -/
def shiftAmount (b : Word) : Nat := b.toNat % 64

/-- The number of zero bits above the highest set bit (R102). -/
def clzWord (a : Word) : Word := if a = 0 then 64 else w64 (63 - Nat.log2 a.toNat)

/-- The number of zero bits below the lowest set bit (R102). -/
def ctzWord (a : Word) : Word := w64 (((List.range 64).find? fun i => a.getLsbD i).getD 64)

/-- The number of set bits (R102). -/
def popcWord (a : Word) : Word := w64 (countBits a.toNat 64)

/-- SignExt(a, w) for the width (R102). -/
def sextWord (w : ExtWidth) (a : Word) : Word :=
  match w with
  | .i8 => (a.setWidth 8).signExtend 64
  | .i16 => (a.setWidth 16).signExtend 64
  | .i32 => (a.setWidth 32).signExtend 64

/-- ZeroExt(a, w) for the width (R102). -/
def zextWord (w : ExtWidth) (a : Word) : Word :=
  match w with
  | .i8 => (a.setWidth 8).setWidth 64
  | .i16 => (a.setWidth 16).setWidth 64
  | .i32 => (a.setWidth 32).setWidth 64

/-- The position of a bit field (R103). -/
def fieldPos (b : Word) : Nat := b.toNat % 64

/-- The width of a bit field, clipped at bit 63 (R103). -/
def fieldWidth (b : Word) : Nat := min (min (b.toNat / 256 % 128) 64) (64 - fieldPos b)

/-- The mask of a bit field (R103). -/
def fieldMask (b : Word) : Word := w64 (2 ^ fieldWidth b - 1) <<< fieldPos b

/-- BEXT of R103. -/
def bextWord (a b : Word) : Word := (a &&& fieldMask b) >>> fieldPos b

/-- BINS of R103. -/
def binsWord (a b c : Word) : Word := (c &&& ~~~(fieldMask b)) ||| ((a <<< fieldPos b) &&& fieldMask b)

/-- FATSET of R108. -/
def fatsetWord (a b : Word) : Word := ((b &&& 0x7F) <<< 57) ||| (a &&& 0x01FFFFFFFFFFFFFF)

/-- FATGET of R108. -/
def fatgetWord (a : Word) : Word := a >>> 57

/-! ### Meanings -/

/-- ADD gd, ga, gb (R99). -/
def execAdd (g : Guard) (d : Reg) (a b : Src) (s : State) : Out :=
  binaryOp (.add g d a b) g d a b (fun x y => x + y) s

/-- SUB gd, ga, gb (R99). -/
def execSub (g : Guard) (d : Reg) (a b : Src) (s : State) : Out :=
  binaryOp (.sub g d a b) g d a b (fun x y => x - y) s

/-- ADDI gd, ga, imm (R105). -/
def execAddi (g : Guard) (d : Reg) (a : Src) (imm : BitVec 28) (s : State) : Out :=
  unaryOp (.addi g d a imm) g d a (fun x => x + imm.signExtend 64) s

/-- MUL gd, ga, gb (R100). -/
def execMul (g : Guard) (d : Reg) (a b : Src) (s : State) : Out :=
  binaryOp (.mul g d a b) g d a b (fun x y => x * y) s

/-- MULH gd, ga, gb (R100). -/
def execMulh (g : Guard) (d : Reg) (a b : Src) (s : State) : Out :=
  binaryOp (.mulh g d a b) g d a b (mulhWord) s

/-- MULHU gd, ga, gb (R100). -/
def execMulhu (g : Guard) (d : Reg) (a b : Src) (s : State) : Out :=
  binaryOp (.mulhu g d a b) g d a b (mulhuWord) s

/-- DIV gd, ga, gb (R100). -/
def execDiv (g : Guard) (d : Reg) (a b : Src) (s : State) : Out :=
  binaryOp (.div g d a b) g d a b (divWord) s

/-- DIVU gd, ga, gb (R100). -/
def execDivu (g : Guard) (d : Reg) (a b : Src) (s : State) : Out :=
  binaryOp (.divu g d a b) g d a b (divuWord) s

/-- REM gd, ga, gb (R100). -/
def execRem (g : Guard) (d : Reg) (a b : Src) (s : State) : Out :=
  binaryOp (.rem g d a b) g d a b (remWord) s

/-- REMU gd, ga, gb (R100). -/
def execRemu (g : Guard) (d : Reg) (a b : Src) (s : State) : Out :=
  binaryOp (.remu g d a b) g d a b (remuWord) s

/-- AND gd, ga, gb (R99). -/
def execAnd (g : Guard) (d : Reg) (a b : Src) (s : State) : Out :=
  binaryOp (.and g d a b) g d a b (fun x y => x &&& y) s

/-- OR gd, ga, gb (R99). -/
def execOr (g : Guard) (d : Reg) (a b : Src) (s : State) : Out :=
  binaryOp (.or g d a b) g d a b (fun x y => x ||| y) s

/-- XOR gd, ga, gb (R99). -/
def execXor (g : Guard) (d : Reg) (a b : Src) (s : State) : Out :=
  binaryOp (.xor g d a b) g d a b (fun x y => x ^^^ y) s

/-- ANDN gd, ga, gb (R99). -/
def execAndn (g : Guard) (d : Reg) (a b : Src) (s : State) : Out :=
  binaryOp (.andn g d a b) g d a b (fun x y => x &&& ~~~y) s

/-- SHL gd, ga, gb (R101). -/
def execShl (g : Guard) (d : Reg) (a b : Src) (s : State) : Out :=
  binaryOp (.shl g d a b) g d a b (fun x y => x <<< shiftAmount y) s

/-- SHR gd, ga, gb (R101). -/
def execShr (g : Guard) (d : Reg) (a b : Src) (s : State) : Out :=
  binaryOp (.shr g d a b) g d a b (fun x y => x >>> shiftAmount y) s

/-- SAR gd, ga, gb (R101). -/
def execSar (g : Guard) (d : Reg) (a b : Src) (s : State) : Out :=
  binaryOp (.sar g d a b) g d a b (fun x y => x.sshiftRight (shiftAmount y)) s

/-- ROT gd, ga, gb (R101). -/
def execRot (g : Guard) (d : Reg) (a b : Src) (s : State) : Out :=
  binaryOp (.rot g d a b) g d a b (fun x y => x.rotateLeft (shiftAmount y)) s

/-- MIN gd, ga, gb (R99). -/
def execMin (g : Guard) (d : Reg) (a b : Src) (s : State) : Out :=
  binaryOp (.min g d a b) g d a b (fun x y => if x.sle y then x else y) s

/-- MAX gd, ga, gb (R99). -/
def execMax (g : Guard) (d : Reg) (a b : Src) (s : State) : Out :=
  binaryOp (.max g d a b) g d a b (fun x y => if y.sle x then x else y) s

/-- MINU gd, ga, gb (R99). -/
def execMinu (g : Guard) (d : Reg) (a b : Src) (s : State) : Out :=
  binaryOp (.minu g d a b) g d a b (fun x y => if x.ule y then x else y) s

/-- MAXU gd, ga, gb (R99). -/
def execMaxu (g : Guard) (d : Reg) (a b : Src) (s : State) : Out :=
  binaryOp (.maxu g d a b) g d a b (fun x y => if y.ule x then x else y) s

/-- ABS gd, ga (R99). -/
def execAbs (g : Guard) (d : Reg) (a : Src) (s : State) : Out :=
  unaryOp (.abs g d a) g d a (absWord) s

/-- CLZ gd, ga (R102). -/
def execClz (g : Guard) (d : Reg) (a : Src) (s : State) : Out :=
  unaryOp (.clz g d a) g d a (clzWord) s

/-- CTZ gd, ga (R102). -/
def execCtz (g : Guard) (d : Reg) (a : Src) (s : State) : Out :=
  unaryOp (.ctz g d a) g d a (ctzWord) s

/-- POPC gd, ga (R102). -/
def execPopc (g : Guard) (d : Reg) (a : Src) (s : State) : Out :=
  unaryOp (.popc g d a) g d a (popcWord) s

/-- BEXT gd, ga, gb (R103). -/
def execBext (g : Guard) (d : Reg) (a b : Src) (s : State) : Out :=
  binaryOp (.bext g d a b) g d a b (bextWord) s

/-- BINS gd, ga, gb, gc (R103). -/
def execBins (g : Guard) (d : Reg) (a b cc : Src) (s : State) : Out :=
  ternaryOp (.bins g d a b cc) g d a b cc binsWord s

/-- SEXT.iN gd, ga (R102). -/
def execSext (g : Guard) (w : ExtWidth) (d : Reg) (a : Src) (s : State) : Out :=
  unaryOp (.sext g w d a) g d a (sextWord w) s

/-- ZEXT.iN gd, ga (R102). -/
def execZext (g : Guard) (w : ExtWidth) (d : Reg) (a : Src) (s : State) : Out :=
  unaryOp (.zext g w d a) g d a (zextWord w) s

/-- SEL gd, pk, ga, gb (R104). -/
def execSel (g : Guard) (k : PReg) (d : Reg) (a b : Src) (s : State) : Out :=
  issueReg (headOf (.sel g k d a b) g (names3 d a b) (takes2 a b)) s fun x c =>
    c.setReg d (if (x.pred k).getLsbD 0 then x.src a else x.src b)

/-- LDI gd, imm (R106). -/
def execLdi (g : Guard) (d : Reg) (imm : BitVec 32) (s : State) : Out :=
  issueReg (headOf (.ldi g d imm) g (regMask d) 0) s fun _ c => c.setReg d (imm.signExtend 64)

/-- LDIH gd, imm (R106). -/
def execLdih (g : Guard) (d : Reg) (imm : BitVec 32) (s : State) : Out :=
  issueReg (headOf (.ldih g d imm) g (regMask d) 0) s fun x c => c.setReg d (imm ++ (x.reg d).setWidth 32)

/-- ADDPC gd, target (R107): from the address of the ADDPC itself. -/
def execAddpc (g : Guard) (d : Reg) (off : BitVec 32) (s : State) : Out :=
  issue (headOf (.addpc g d off) g (regMask d) 0) s fun t key l0 l =>
    .next (t.setLine key { l with c := l.c.setReg d (vaWord (codeTarget l0.at_ off)) })

/-- FATSET gd, ga, gb (R108). -/
def execFatset (g : Guard) (d : Reg) (a b : Src) (s : State) : Out :=
  binaryOp (.fatset g d a b) g d a b (fatsetWord) s

/-- FATGET gd, ga (R108). -/
def execFatget (g : Guard) (d : Reg) (a : Src) (s : State) : Out :=
  unaryOp (.fatget g d a) g d a (fatgetWord) s

/-- ANDI gd, ga, imm (R105). -/
def execAndi (g : Guard) (d : Reg) (a : Src) (imm : BitVec 28) (s : State) : Out :=
  unaryOp (.andi g d a imm) g d a (fun x => x &&& imm.signExtend 64) s

/-- ORI gd, ga, imm (R105). -/
def execOri (g : Guard) (d : Reg) (a : Src) (imm : BitVec 28) (s : State) : Out :=
  unaryOp (.ori g d a imm) g d a (fun x => x ||| imm.signExtend 64) s

/-- XORI gd, ga, imm (R105). -/
def execXori (g : Guard) (d : Reg) (a : Src) (imm : BitVec 28) (s : State) : Out :=
  unaryOp (.xori g d a imm) g d a (fun x => x ^^^ imm.signExtend 64) s

/-- SHLI gd, ga, n (R105). -/
def execShli (g : Guard) (d : Reg) (a : Src) (n : BitVec 6) (s : State) : Out :=
  unaryOp (.shli g d a n) g d a (fun x => x <<< n.toNat) s

/-- SHRI gd, ga, n (R105). -/
def execShri (g : Guard) (d : Reg) (a : Src) (n : BitVec 6) (s : State) : Out :=
  unaryOp (.shri g d a n) g d a (fun x => x >>> n.toNat) s

/-- SARI gd, ga, n (R105). -/
def execSari (g : Guard) (d : Reg) (a : Src) (n : BitVec 6) (s : State) : Out :=
  unaryOp (.sari g d a n) g d a (fun x => x.sshiftRight n.toNat) s

/-- CMP.cc pj:pj+1, ga, gb (R110). -/
def execCmp (g : Guard) (pk : BitVec 2) (cm : Combine) (cc : IntCond) (a b : Src) (s : State) : Out :=
  issueReg (headOf (.cmp g pk cm cc a b) g (a.nameMask ||| b.nameMask) (takes2 a b)) s fun x c =>
    c.writeCond pk cm (wordCond cc (x.src a) (x.src b))

/-- CMPI.cc pj:pj+1, ga, imm (R110). -/
def execCmpi (g : Guard) (pk : BitVec 2) (cm : Combine) (cc : IntCond) (a : Src) (imm : BitVec 23) (s : State) : Out :=
  issueReg (headOf (.cmpi g pk cm cc a imm) g a.nameMask a.takeMask) s fun x c =>
    c.writeCond pk cm (wordCond cc (x.src a) (imm.signExtend 64))

/-- TST.z or TST.nz pj:pj+1, ga, gb (R110). -/
def execTst (g : Guard) (pk : BitVec 2) (cm : Combine) (nz : Bool) (a b : Src) (s : State) : Out :=
  issueReg (headOf (.tst g pk cm nz a b) g (a.nameMask ||| b.nameMask) (takes2 a b)) s fun x c =>
    c.writeCond pk cm (if nz then x.src a &&& x.src b != 0 else x.src a &&& x.src b == 0)

/-- FCMP.cc.fmt pj:pj+1, ga, gb (R111). -/
def execFcmp (g : Guard) (pk : BitVec 2) (cm : Combine) (fmt : FScalar) (cc : FloatCond) (a b : Src) (s : State) : Out :=
  issueReg (headOf (.fcmp g pk cm fmt cc a b) g (a.nameMask ||| b.nameMask) (takes2 a b)) s fun x c =>
    let f := scalarFormat fmt
    c.writeCond pk cm (floatCondHolds cc (f.decode (floatOperand fmt (x.src a))) (f.decode (floatOperand fmt (x.src b))))

/-- The head of a predicate-logic instruction: sixteen lanes (R58). -/
def headPred (i : Instr) (g : Guard) (names : BitVec 8) : Head := { headOf i g names 0 with lanes := 16 }

/-- PSET pd, pa, pb, pc, tbl (R112). -/
def execPset (g : Guard) (x y z w : PReg) (tbl : BitVec 8) (s : State) : Out :=
  issueReg (headPred (.pset g x y z w tbl) g 0) s fun o c =>
    c.setPred x (predLanes (o.active g) (o.pred x) fun i =>
      tbl.getLsbD ((if (o.pred y).getLsbD i then 4 else 0) + (if (o.pred z).getLsbD i then 2 else 0) + (if (o.pred w).getLsbD i then 1 else 0)))

/-- The general registers that a PMOV names (R113). -/
def pmovNames (f : PMovForm) (x y : Reg) : BitVec 8 :=
  match f with
  | .predFromPred => 0
  | .predFromReg => regMask y
  | .regFromPred => regMask x

/-- PMOV in its three forms (R113). -/
def execPmov (g : Guard) (f : PMovForm) (x y : Reg) (s : State) : Out :=
  issueReg (headPred (.pmov g f x y) g (pmovNames f x y)) s fun o c =>
    match f with
    | .predFromPred => c.setPred x (predLanes (o.active g) (o.pred x) fun i => (o.pred y).getLsbD i)
    | .predFromReg => c.setPred x (predLanes (o.active g) (o.pred x) fun i => (o.reg y).getLsbD i)
    | .regFromPred => c.setReg x ((predLanes (o.active g) ((o.reg x).setWidth 16) fun i => (o.pred y).getLsbD i).setWidth 64)

/-- PCNT gd, pa (R114). -/
def execPcnt (g : Guard) (x : Reg) (y : PReg) (s : State) : Out :=
  issueReg (headPred (.pcnt g x y) g (regMask x)) s fun o c =>
    c.setReg x (w64 (countBits (o.pred y &&& o.laneMask g 16).toNat 16))

end Sys2Proof.Machine
end

