-- ==== Sys2Proof/Machine/Object.lean ====
section
/-! DEFINITION. The Pufel object (R92 to R95): its fields, its tables, and what step 1 of R96 checks of them. -/

namespace Sys2Proof

open Machine

/-- Byte a of an object; past its bytes there is none, and those that the object lists as nothing are zero. -/
def Image.byteAt (i : Image) (a : Nat) : Byte := SMap.getD i.bytes a 0

/-- The n bytes of an object from a on, little-endian (R92). -/
def Image.field (i : Image) (a n : Nat) : Nat := leNat ((List.range n).map fun k => i.byteAt (a + k))

/-- The n bytes from a on are zero. -/
def Image.zero (i : Image) (a n : Nat) : Bool := (List.range n).all fun k => i.byteAt (a + k) == 0

/-- A table of an object: where it begins, how many entries it has and how long each is. -/
structure ObjTable where
  off : Nat
  count : Nat
  entry : Nat
  deriving DecidableEq, Repr

/-- The table lies inside an object. -/
def Image.holds (i : Image) (t : ObjTable) : Bool := decide (t.off + t.count * t.entry ≤ i.size)

/-- Something holds of every entry of a table. -/
def ObjTable.all (t : ObjTable) (p : Nat → Bool) : Bool := (List.range t.count).all fun k => p (t.off + k * t.entry)

/-- The four tables of an object (R92, R93). -/
def Image.profiles (i : Image) : ObjTable := ⟨i.field 0x10 8, i.field 0x0C 4, 8⟩
def Image.sections (i : Image) : ObjTable := ⟨i.field 0x20 8, i.field 0x18 4, 32⟩
def Image.symbols (i : Image) : ObjTable := ⟨i.field 0x28 8, i.field 0x1C 4, 32⟩
def Image.relocations (i : Image) : ObjTable := ⟨i.field 0x30 8, i.field 0x38 4, 24⟩

/-- The entry of a tile section at a obeys R94, R190 and R47. -/
def Image.tileEntry (i : Image) (a : Nat) : Bool :=
  let rows := i.field (a + 2) 2
  let cols := i.field (a + 4) 2
  let fmt := i.field (a + 6) 1
  let blk := i.field (a + 7) 1
  decide (i.field a 2 < Config.clusters) && decide (rows ≤ 256) && decide (cols ≤ 256) && decide (fmt < 16) && decide (blk < 8) &&
    i.zero (a + 8) 8 && (tileOfShape (w64 (fmt * 2 ^ 60 + blk * 2 ^ 57 + cols * 2 ^ 16 + rows))).isSome

/-- The section of the entry at a is one of tiles whose entries are good (R94), or of groups whose reserved bytes are zero (R314), or another
(log entry 69). DESIGN CHOICE (log entry 69): a tile section whose size is no multiple of 16, and a group section whose size is no multiple of 8, is bad. -/
def Image.sectionOk (i : Image) (a : Nat) : Bool :=
  let kind := i.field a 2
  let off := i.field (a + 8) 8
  let size := i.field (a + 16) 8
  let tiles : ObjTable := ⟨off, size / 16, 16⟩
  let groups : ObjTable := ⟨off, size / 8, 8⟩
  if kind = 5 then decide (size % 16 = 0) && i.holds tiles && tiles.all i.tileEntry
  else if kind = 6 then decide (size % 8 = 0) && i.holds groups && groups.all fun b => i.zero (b + 2) 6
  else true

/-- Step 1 of R96: MAGIC and FVER, all tables inside the object, reserved fields zero, and no bad tile entry. -/
def Image.wellFormed (i : Image) : Bool :=
  decide (0x80 ≤ i.size) && i.field 0 4 == 0x004F4650 && i.field 4 2 == 1 && i.zero 6 2 && i.zero 0x3C 4 && i.zero 0x48 56 &&
    i.holds i.profiles && i.holds i.sections && i.holds i.symbols && i.holds i.relocations &&
    i.profiles.all (fun a => i.zero (a + 4) 4) && i.sections.all (fun a => i.zero (a + 4) 4 && i.zero (a + 24) 8 && i.sectionOk a) &&
    i.symbols.all fun a => i.zero (a + 24) 8

/-- What the signature block of an object says (R95): the pair that it names, and its two signatures. A block that does not lie inside the
object verifies under no key. -/
def Image.signed (i : Image) : Signed :=
  let off := i.field 0x40 8
  let inside := decide (off + 16704 ≤ i.size)
  { pair := ⟨BitVec.ofNat 384 (i.field off 48), BitVec.ofNat 384 (i.field (off + 432) 48)⟩
    rsaOk := inside && i.rsaOk, slhOk := inside && i.slhOk }

/-- The SHA-384 digest of an object (R403). -/
def Image.digest (i : Image) : BitVec 384 := Config.sha384 i.size i.byteAt

/-- SECVER of an object (R92). -/
def Image.secver (i : Image) : Nat := i.field 8 4

/-- What die firmware maps out is of its own die (R394). -/
def MapOut.of (m : MapOut) (die : Nat) : Bool :=
  (m.clusters.all fun c => decide (c < Config.clusters) && dieOf c == die) && m.channels.all fun ch => decide (ch < Config.hbmChannels)

end Sys2Proof
end

