-- ==== Sys2Proof/Machine/Management.lean ====
section
/-! DEFINITION. The management plane: Neriup's commands (R374, R400 to R403), errors and scrubbing (R390, R391), the host's accesses to device
memory (R396), the power alarm (R404), cold reset, time and boot (R14, R397 to R399). -/

namespace Sys2Proof.Machine

/-! ### Neriup's commands (R402) -/

/-- READ_COUNTERS (R374, R390, R402): ECC and row-cache counters, and UNDELIV_COUNT and EV_REFUSED of an ASID. -/
def execReadCounters (asid : BitVec 12) (s : State) : Out :=
  let x := s.asidRegs asid
  let rows := (List.finRange 4).map fun d =>
    (s.eng.rowCaches[d].hits, s.eng.rowCaches[d].refs, s.eng.rowCaches[d].rows.map fun r => (r.pa, r.counter))
  neriup "READ_COUNTERS" none (.counters s.mgmt.ecc rows x.undeliv x.refused) s id

/-- READ_ERROR_RECORDS (R392, R402): the copies of the records in order of index. -/
def execReadErrorRecords (s : State) : Out := neriup "READ_ERROR_RECORDS" none (.records s.mgmt.errCopies) s id

/-- READ_BRINGUP_PARAMETERS (R398, R402). -/
def execReadBringupParameters (s : State) : Out :=
  neriup "READ_BRINGUP_PARAMETERS" none (.parameters s.mgmt.gtBase s.mgmt.ptBase s.mgmt.errBase s.mgmt.subBase s.mgmt.areas) s id

/-- SET_POWER_LIMIT (R402, R404): 1,200 to 2,400 W. -/
def execSetPowerLimit (w : BitVec 12) (s : State) : Out :=
  neriup "SET_POWER_LIMIT" (refuseIf (decide (w.toNat < 1200) || decide (2400 < w.toNat)) .range) .ok s fun s =>
    { s with mgmt := { s.mgmt with limit := w }.recalm s.sched.cycle }

/-- Whether an object or a command is signed under the root keys with both schemes (R399, R400). -/
def Mgmt.rootSigned (m : Mgmt) (x : Signed) : Bool := x.pair == m.rootKeys && x.rsaOk && x.slhOk

/-- Whether step 2 of R96 trusts a pair: the root pair, or one that is enrolled (R400). -/
def Mgmt.trusts (m : Mgmt) (p : KeyPair) : Bool := p == m.rootKeys || m.keys.contains p

/-- The pairs that may be enrolled besides the root pair (R400). -/
def maxPairs : Nat := 8

/-- ENROL_KEY_PAIR (R400): under the root keys with both schemes, up to 8 pairs. -/
def execEnrolKeyPair (pair : KeyPair) (signed : Signed) (s : State) : Out :=
  neriup "ENROL_KEY_PAIR" ((refuseIf (!s.mgmt.rootSigned signed) .unsigned).or
      (refuseIf (!s.mgmt.keys.contains pair && decide (maxPairs ≤ s.mgmt.keys.length)) .pair)) .ok s fun s =>
    if s.mgmt.keys.contains pair then s else { s with mgmt := { s.mgmt with keys := s.mgmt.keys ++ [pair] } }

/-- WITHDRAW_KEY_PAIR (R400). -/
def execWithdrawKeyPair (pair : KeyPair) (signed : Signed) (s : State) : Out :=
  neriup "WITHDRAW_KEY_PAIR" ((refuseIf (!s.mgmt.rootSigned signed) .unsigned).or (refuseIf (!s.mgmt.keys.contains pair) .pair)) .ok s fun s =>
    { s with mgmt := { s.mgmt with keys := s.mgmt.keys.filter fun k => k != pair } }

/-- The contents of a report, for its signatures. -/
def Mgmt.contents (m : Mgmt) (nonce : BitVec 256) : List Nat :=
  [nonce.toNat, m.secver.toNat, m.ready.toNat, m.images.length] ++ m.images.map BitVec.toNat ++
    m.keys.flatMap fun k => [k.rsa.toNat, k.slh.toNat]

/-- The signature block of a report, under the device identity key pair (R95, R403). -/
def Mgmt.signReport (m : Mgmt) (nonce : BitVec 256) : SigBlock :=
  { pair := m.device, rsaSig := Config.rsaSignature m.replies.length (m.contents nonce)
    slhSig := Config.slhSignature m.replies.length (m.contents nonce) }

/-- ATTEST (R403): the report of the moment of signing. -/
def execAttest (nonce : BitVec 256) (s : State) : Out :=
  neriup "ATTEST" none (.report nonce s.mgmt.images s.mgmt.keys s.mgmt.secver s.mgmt.ready (s.mgmt.signReport nonce)) s id

/-! ### Errors (R390, R391) -/

/-- The structures whose errors are counted: the six of R393 in the order of their codes, and the queues (R390). -/
def structures : Nat := 7

/-- The code of a structure in a MEMORY record (R393); log entry 67 for the queues. -/
def structureCode (st : Nat) : Nat := if st < 6 then st else Config.queueStructure % 16

/-- The address that a record gives for a location of a structure: that of HBM and of slices is one; no other location has one (R393). -/
def locationPa (st loc : Nat) : Nat := if st < 2 then loc else 0

/-- The key of a structure of a die. -/
def eccKey (die st : Nat) : Nat := die * 8 + st

/-- The key of a location of a structure of a die. -/
def locKey (die st loc : Nat) : Nat := eccKey die st * 2 ^ 64 + loc

/-- CORRECTED_ERROR (R390): the counter of the structure increases, saturating at 32 bits; no value changes and no record is written. -/
def execCorrectedError (die st loc : Nat) (s : State) : Out :=
  if die < 4 ∧ s.live die ∧ st < structures ∧ loc < 2 ^ 64 then
    let n := SMap.getD s.mgmt.corrected (locKey die st loc) 0
    .next { s with mgmt := { s.mgmt with
      ecc := SMap.set s.mgmt.ecc (eccKey die st) (min (2 ^ 32 - 1) (SMap.getD s.mgmt.ecc (eccKey die st) 0 + 1))
      corrected := if n < 8 then SMap.set s.mgmt.corrected (locKey die st loc) (n + 1) else s.mgmt.corrected } }
  else notNow "CORRECTED_ERROR"

/-- RECURRING_CORRECTED_ERROR (R390): a location corrected eight times since reset is reported once. The number of one of HBM or a slice is
its address. -/
def execRecurringCorrectedError (die st loc : Nat) (s : State) : Out :=
  if SMap.getD s.mgmt.corrected (locKey die st loc) 0 = 8 then
    .next ({ s with mgmt := { s.mgmt with corrected := SMap.set s.mgmt.corrected (locKey die st loc) 9 } }.memoryErrorAt 5 0 0 0 0
      (locationPa st loc) (if st < 2 then (s.homeDie loc).getD 0 else 0) (structureCode st) die)
  else notNow "RECURRING_CORRECTED_ERROR"

/-- SCRUB_UNCORRECTABLE (R390): scrubbing of HBM finds uncorrectable data, poisons it and writes a record of cause 2. -/
def execScrubUncorrectable (pa : Nat) (s : State) : Out :=
  match s.homeDie pa with
  | some d =>
    if s.live d then .next ((s.poisonUnit (pa / 64)).memoryError 2 0 0 0 0 pa 0 d) else notNow "SCRUB_UNCORRECTABLE"
  | none => notNow "SCRUB_UNCORRECTABLE"

/-! ### The host (R396) -/

/-- The ASID whose submission window a byte of device memory lies in: the page at SUBBASE + 4,096 x is that of ASID x (R347, R398). -/
def State.windowOf (s : State) (pa : Nat) : Option Nat :=
  if s.mgmt.based ∧ s.mgmt.subBase ≤ pa ∧ pa < s.mgmt.subBase + 4096 * Config.asids then some ((pa - s.mgmt.subBase) / 4096) else none

/-- HOST_HDM_ACCESS (R391, R396): a host read of one byte of device memory, or a write of bytes of one 64-byte unit, at the home slice, with
every line that a context lives in as its owner holds it. A write toward a lost home is dropped; bad data is returned with the poison
indication. A write to a submission window enters as SUBMISSION_WRITE or START_REQUEST (R347, R348). -/
def execHostHdmAccess (pa : Nat) (w : Option (List Byte)) (s : State) : Out :=
  if isHostPa pa ∨ !(s.portUp 0 || s.portUp 1) then notNow "HOST_HDM_ACCESS"
  else
    match w with
    | none => .next (s.reply (.hostByte (s.readByte pa) (s.homeGone pa || s.poisoned [pa])))
    | some l =>
      let pas := rangeFrom pa l.length
      if 64 < pa % 64 + l.length ∨ (s.windowOf pa).isSome ∨ s.tableHeld pas then notNow "HOST_HDM_ACCESS"
      else if s.homeGone pa then .next s
      else .next (((s.syncTable pas).writeBytes pas l).servePushes s pas)

/-- A host agent writes bytes of one line of host memory (R396). -/
def hostWrites (pa : Nat) (l : List Byte) (s : State) : Out :=
  if isHostPa pa ∧ pa < 2 ^ 52 ∧ pa % 128 + l.length ≤ 128 ∧ !s.tableHeld (rangeFrom pa l.length) then
    let pas := rangeFrom pa l.length
    .next (((s.syncTable pas).writeBytes pas l).servePushes s pas)
  else notNow "HOST_WRITE"

/-! ### Power (R404) -/

/-- POWER_ALARM_RISE (R404): the power averaged over 100 µs exceeds LIMIT. -/
def execPowerAlarmRise (power : BitVec 16) (s : State) : Out :=
  if !s.mgmt.alarm ∧ s.mgmt.limit.toNat < power.toNat then
    .next { s with mgmt := { s.mgmt with alarm := true, rises := s.mgmt.rises + 1 } }
  else notNow "POWER_ALARM_RISE"

/-- POWER_ALARM_CLEAR (R404): POWER, the 1 ms average, has stayed below 95% of LIMIT for 1 ms. -/
def execPowerAlarmClear (power : BitVec 16) (s : State) : Out :=
  if s.mgmt.mayClear s.sched.cycle ∧ power = s.mgmt.power then .next { s with mgmt := { s.mgmt with alarm := false } }
  else notNow "POWER_ALARM_CLEAR"

/-- A new reading of POWER, the average over 1 ms (R404). -/
def powerReads (w : BitVec 16) (s : State) : Out := .next { s with mgmt := { s.mgmt with power := w }.recalm s.sched.cycle }

/-! ### Time and reset (R14) -/

/-- TIME_BASE_TICK (R9, R14): every second fabric cycle the tick counter of every live die increases by one. -/
def execTimeBaseTick (s : State) : Out :=
  if s.sched.tickAt ≤ s.sched.cycle then
    .next { s with
      sched := { s.sched with tickAt := s.sched.cycle + 2 }
      time := Vector.ofFn fun d => if s.live d.val then s.time[d] + 1 else s.time[d] }
  else notNow "TIME_BASE_TICK"

/-- COLD_RESET (R14, R394, R398, R400, R401): everything but what is fused, enrolled, mapped out or retired returns to its reset value; the
host's own memory is not the device's. -/
def execColdReset (s : State) : Out :=
  let r := State.reset
  let bad := !s.mgmt.mapped.isEmpty || !s.mgmt.retired.isEmpty || s.fab.lanes.any fun x => x.2.retired
  let t := { r with
    sched := { r.sched with agenda := s.sched.agenda }
    mem := { r.mem with bytes := s.mem.bytes.filter fun c => isHostPa c.1, homes := s.mem.homes }
    fab := { r.fab with
      dies := s.fab.dies.map fun x => { present := x.present, lost := !x.present, drain := none, linkLost := false }
      lanes := (s.fab.lanes.filter fun x => x.2.retired).map fun x => (x.1, { x.2 with power := .up 0 0, errors := 0 }) }
    mgmt := { r.mgmt with
      secver := s.mgmt.secver, keys := s.mgmt.keys, rootKeys := s.mgmt.rootKeys, device := s.mgmt.device, mapped := s.mgmt.mapped, retired := s.mgmt.retired } }
  .next (if bad then t.replace else t)

/-! ### Boot (R397 to R399) -/

/-- Steps 1 to 3 of R96 for an object, under the pairs that `trusted` names: the status of the first check that fails, or 0. -/
def objectStatus (m : Mgmt) (trusted : KeyPair → Bool) (i : Image) : Nat :=
  let sig := i.signed
  if !i.wellFormed then 1
  else if !(trusted sig.pair && sig.rsaOk && sig.slhOk) then 2
  else if i.secver < m.secver.toNat then 3
  else 0

/-- Steps 1 to 3 of R96 for a firmware image: both signatures are under the root keys (R399). -/
def imageStatus (m : Mgmt) (i : Image) : Nat := objectStatus m (· == m.rootKeys) i

/-- Steps 1 to 3 of R96 for an object that the supervisor runtime loads, at the time of its step 2 (R400); steps 4 to 7 and the load itself are
that software's. -/
def loadStatus (m : Mgmt) (i : Image) : Nat := objectStatus m m.trusts i

/-- A boot stage has failed: nothing further runs, and Neriup reports the stage and the status (R399). -/
def State.bootFail (s : State) (stage status : Nat) : State :=
  { s with mgmt := { s.mgmt with bootStage := 3, replies := s.mgmt.replies ++ [.bootFailed stage status] } }

/-- A boot stage has passed with these images. -/
def State.bootPass (s : State) (stage : Nat) (images : List Image) : State :=
  { s with mgmt := { s.mgmt with bootStage := stage, images := s.mgmt.images ++ images.map (·.digest) } }

/-- BOOT_STAGE_0 (R399): the boot ROM verifies stage 1 and brings up MGMT. -/
def execBootStage0 (img : Image) (s : State) : Out :=
  if s.mgmt.bootStage = 0 then
    match imageStatus s.mgmt img with
    | 0 => .next ((s.bootPass 1 [img]).setReady 35 true)
    | n => .next (s.bootFail 0 n)
  else notNow "BOOT_STAGE_0"

/-- The CXL ports that have trained, each on a live die, are up (R397). -/
def State.cxlUp (s : State) (cxl : BitVec 2) : State :=
  let s := if cxl.getLsbD 0 ∧ s.live 0 then s.setReady 32 true else s
  if cxl.getLsbD 1 ∧ s.live 2 then s.setReady 33 true else s

/-- BOOT_STAGE_1 (R397, R399): Neriup firmware verifies stage 2 of every live die, and brings up the CXL ports that have trained; a port
that trains later comes up then. -/
def execBootStage1 (imgs : List Image) (cxl : BitVec 2) (s : State) : Out :=
  if s.mgmt.bootStage = 1 ∧ imgs.length = ((List.range 4).filter s.live).length then
    match (imgs.map (imageStatus s.mgmt)).find? (· != 0) with
    | some n => .next (s.bootFail 1 n)
    | none => .next ((s.bootPass 2 imgs).cxlUp cxl)
  else if s.mgmt.bootStage = 2 ∧ imgs = [] then .next (s.cxlUp cxl)
  else notNow "BOOT_STAGE_1"

/-- Boot firmware sets the bring-up parameters; once it sets an ISSUE bit they are fixed until the next cold reset (R398). -/
def Mgmt.bringUp (m : Mgmt) (p : BringUp) (issue : Bool) : Mgmt :=
  if m.fixed then m
  else { m with based := true, fixed := issue, gtBase := p.gtBase, ptBase := p.ptBase, errBase := p.errBase, subBase := p.subBase, areas := p.areas }

/-- Every function of every live die is up (R397, R399). -/
def State.diesDone (s : State) : Bool := (List.range 4).all fun d => !s.live d || (List.range 7).all fun k => s.isReady d k

/-- BOOT_STAGE_2 (R394, R397 to R399): die firmware maps out clusters and retires channels of its die, and brings up functions of it; DUSET
follows once all dies are done and its ports have trained. -/
def execBootStage2 (die : Nat) (ready : BitVec 7) (boot : DieBoot) (duset : Bool) (s : State) : Out :=
  let out := boot.out
  if s.mgmt.bootStage = 2 ∧ die < 4 ∧ s.live die ∧ (s.die die).drain = none ∧ out.of die then
    let s : State := { s with mgmt := s.mgmt.bringUp boot.params (ready.getLsbD 2) }
    let s := out.channels.foldl (fun (t : State) ch => t.retireChannel die ch) (out.clusters.foldl State.mapOut s)
    let s := (List.range 7).foldl (fun t k =>
      if ready.getLsbD k ∧ (k ≠ 6 ∨ t.linksUp die) then t.setReady (8 * die + k) true else t) s
    .next (if duset ∧ s.diesDone then s.setReady 34 true else s)
  else notNow "BOOT_STAGE_2"

end Sys2Proof.Machine
end

