-- ==== Sys2Proof/Machine/ScalarFloat.lean ====
section
/-! DEFINITION. Scalar floating point (R141 to R144). -/

namespace Sys2Proof.Machine

/-- A scalar float instruction of two operands. -/
def floatOp (i : Instr) (g : Guard) (fmt : FScalar) (d : Reg) (a b : Src) (f : Nat → Nat → Nat) (s : State) : Out :=
  binaryOp i g d a b (fun x y => w64 (f (floatOperand fmt x) (floatOperand fmt y))) s

/-- FADD.fmt[.rm] gd, ga, gb (R141). -/
def execFadd (g : Guard) (fmt : FScalar) (rm : Rounding) (d : Reg) (a b : Src) (s : State) : Out :=
  floatOp (.fadd g fmt rm d a b) g fmt d a b ((scalarFormat fmt).add rm) s

/-- FSUB.fmt[.rm] gd, ga, gb (R141). -/
def execFsub (g : Guard) (fmt : FScalar) (rm : Rounding) (d : Reg) (a b : Src) (s : State) : Out :=
  floatOp (.fsub g fmt rm d a b) g fmt d a b ((scalarFormat fmt).sub rm) s

/-- FMUL.fmt[.rm] gd, ga, gb (R141). -/
def execFmul (g : Guard) (fmt : FScalar) (rm : Rounding) (d : Reg) (a b : Src) (s : State) : Out :=
  floatOp (.fmul g fmt rm d a b) g fmt d a b ((scalarFormat fmt).mul rm) s

/-- FFMA.fmt[.rm] gd, ga, gb, gc (R141). -/
def execFfma (g : Guard) (fmt : FScalar) (rm : Rounding) (d : Reg) (a b cc : Src) (s : State) : Out :=
  ternaryOp (.ffma g fmt rm d a b cc) g d a b cc
    (fun x y z => w64 ((scalarFormat fmt).fma rm (floatOperand fmt x) (floatOperand fmt y) (floatOperand fmt z))) s

/-- A divide or root starts in the issue unit's divide-and-root unit, and its destination is pending (R65, R142). -/
def startDivide (t : State) (key : Nat) (l : Line) (d : Reg) (v : Word) : Out :=
  let r : DivReq := { line := key, d := d.val, value := v, cluster := l.c.here, unit := t.issueUnit, seq := t.sched.seq }
  let l := { l with c := { l.c with st := { l.c.st with pend := l.c.st.pend ||| regMask d } } }
  .next (({ t with fl := { t.fl with divs := t.fl.divs ++ [r] } }.setLine key l).nextSeq)

/-- FDIV.fmt[.rm] gd, ga, gb la=n (R141, R142). -/
def execFdiv (g : Guard) (la : BitVec 4) (fmt : FScalar) (rm : Rounding) (d : Reg) (a b : Src) (s : State) : Out :=
  issue (headLong (.fdiv g la fmt rm d a b) g la (names3 d a b) (takes2 a b)) s fun t key l0 l =>
    startDivide t key l d (w64 ((scalarFormat fmt).div rm (floatOperand fmt (l0.c.src a)) (floatOperand fmt (l0.c.src b))))

/-- FSQRT.fmt[.rm] gd, ga la=n (R141, R142). -/
def execFsqrt (g : Guard) (la : BitVec 4) (fmt : FScalar) (rm : Rounding) (d : Reg) (a : Src) (s : State) : Out :=
  issue (headLong (.fsqrt g la fmt rm d a) g la (names2 d a) a.takeMask) s fun t key l0 l =>
    startDivide t key l d (w64 ((scalarFormat fmt).sqrt rm (floatOperand fmt (l0.c.src a))))

/-- FMIN.fmt gd, ga, gb (R138, R141). -/
def execFmin (g : Guard) (fmt : FScalar) (d : Reg) (a b : Src) (s : State) : Out :=
  floatOp (.fmin g fmt d a b) g fmt d a b (scalarFormat fmt).minNum s

/-- FMAX.fmt gd, ga, gb (R138, R141). -/
def execFmax (g : Guard) (fmt : FScalar) (d : Reg) (a b : Src) (s : State) : Out :=
  floatOp (.fmax g fmt d a b) g fmt d a b (scalarFormat fmt).maxNum s

/-- FCVT on a register value (R143, R42): narrow sources are low bits, INT32 results are sign-extended, others zero-extended. -/
def fcvtWord (op : FCvtOp) (rm : Rounding) (x : Word) : Word :=
  let n := x.toNat
  let f32 := fp32.decode (n % 2 ^ 32)
  let f64 := fp64.decode n
  match op with
  | .f64f32 => w64 (fp32.round rm f64)
  | .f32f64 => w64 (fp64.round .rne f32)
  | .f32f16 => w64 (fp16.round rm f32)
  | .f16f32 => w64 (fp32.round .rne (fp16.decode (n % 2 ^ 16)))
  | .f32bf16 => w64 (bf16.round rm f32)
  | .bf16f32 => w64 (fp32.round .rne (bf16.decode (n % 2 ^ 16)))
  | .f32i64 => w64 (fmtEncode 4 rm f32)
  | .f64i64 => w64 (fmtEncode 4 rm f64)
  | .i64f32 => w64 (fp32.round rm (.ofInt x.toInt))
  | .i64f64 => w64 (fp64.round rm (.ofInt x.toInt))
  | .f32i32 => BitVec.ofInt 64 (bitsInt 32 (fmtEncode 3 rm f32))
  | .f64i32 => BitVec.ofInt 64 (bitsInt 32 (fmtEncode 3 rm f64))
  | .f32t8 => w64 (encodeTaper 8 f32)
  | .t8f32 => w64 (fp32.round .rne (decodeTaper 8 (n % 2 ^ 8)))
  | .f32t6 => w64 (encodeTaper 6 f32)
  | .t6f32 => w64 (fp32.round .rne (decodeTaper 6 (n % 2 ^ 6)))

/-- FCVT.conv[.rm] gd, ga (R143). -/
def execFcvt (g : Guard) (op : FCvtOp) (rm : Rounding) (d : Reg) (a : Src) (s : State) : Out :=
  unaryOp (.fcvt g op rm d a) g d a (fcvtWord op rm) s

/-- FCLASS.fmt gd, ga (R144). -/
def execFclass (g : Guard) (fmt : FScalar) (d : Reg) (a : Src) (s : State) : Out :=
  unaryOp (.fclass g fmt d a) g d a (fun x => w64 ((scalarFormat fmt).classMask (floatOperand fmt x))) s

end Sys2Proof.Machine
end

