-- ==== Sys2Proof/Machine/Sfu.lean ====
section
/-! DEFINITION. The special functions and the entry into the SFU queue (R145 to R147). -/

namespace Sys2Proof.Machine

/-- A cluster's SFU. -/
def State.sfuOf (s : State) (c : Nat) : Sfu := SMap.getD s.fl.sfu c Sfu.reset

/-- Set a cluster's SFU. -/
def State.setSfu (s : State) (c : Nat) (q : Sfu) : State := { s with fl := { s.fl with sfu := SMap.set s.fl.sfu c q } }

/-- An entry is held for its unit up to the eighth cycle after it freed (R147). -/
def heldAt (cycle : Nat) (x : Nat × Nat) : Bool := decide (cycle ≤ x.2 + 8)

/-- The SFU after a unit takes an entry in a cycle, none where it is refused (R147): a held entry of its own first, else an entry that is
not held. DESIGN CHOICE (log entry 63): a unit that enters through an entry not held for it keeps its record, which only the taking of a held entry clears. -/
def Sfu.enter (q : Sfu) (unit cycle : Nat) : Option Sfu :=
  match q.held.findIdx? fun x => x.1 == unit && heldAt cycle x with
  | some k => some { q with held := removeAt k q.held, refused := q.refused.filter (· != unit) }
  | none => if q.queue.length + (q.held.filter (heldAt cycle)).length < Config.sfuEntries then some q else none

/-- The SFU after a unit is recorded as refused (R147). -/
def Sfu.refuse (q : Sfu) (unit : Nat) : Sfu := { q with refused := if q.refused.contains unit then q.refused else q.refused ++ [unit] }

/-- The writes of a vector request: each active lane of four, in the two registers of the pair. -/
def sfuPairWrites (active : Nat → Bool) (d : Reg) (f : Nat → Nat) : List RegWrite :=
  [0, 1].map fun r =>
    let lane := fun j => if active (2 * r + j) then f (2 * r + j) * 2 ^ (32 * j) else 0
    let mask := fun j => if active (2 * r + j) then (2 ^ 32 - 1) * 2 ^ (32 * j) else 0
    ((regPlus d r).val, w64 (lane 0 + lane 1), w64 (mask 0 + mask 1))

/-- A special function in its two forms (R145): a request enters the cluster's queue, or the turn is idle. -/
def sfuOp (i : Instr) (g : Guard) (la : BitVec 4) (vec : Bool) (d : Reg) (a : Src) (f : FpVal → FpVal) (s : State) : Out :=
  let dst := if vec then pairMask d else regMask d
  let h := { headLong i g la (dst ||| (if vec then pairName a else a.nameMask)) (if vec then a.takePair else a.takeMask) with
    profile := .v1, lanes := if vec then 4 else 1 }
  issue h s fun t key l0 l =>
    let c := l.c.here
    match (t.sfuOf c).enter t.issueUnit t.sched.cycle with
    | none => idleTurn (s.setSfu c ((s.sfuOf c).refuse s.issueUnit)) key l0
    | some q =>
      let w : List RegWrite :=
        if vec then sfuPairWrites (l0.c.active g) d fun k => sfuApply f (laneOf (l0.c.pair a.reg) 32 k)
        else [(d.val, w64 (sfuApply f ((l0.c.src a).toNat % 2 ^ 32)), BitVec.allOnes 64)]
      let r : SfuReq := { line := key, writes := w, clear := dst, seq := t.sched.seq }
      let l := { l with c := { l.c with st := { l.c.st with pend := l.c.st.pend ||| dst } } }
      .next ((t.setSfu c { q with queue := q.queue ++ [r] }).setLine key l).nextSeq

/-- RCP in its scalar and its pair form (R145, R146). -/
def execRcp (g : Guard) (la : BitVec 4) (vec : Bool) (d : Reg) (a : Src) (s : State) : Out :=
  sfuOp (.rcp g la vec d a) g la vec d a rcpVal s

/-- RSQ in its scalar and its pair form (R145, R146). -/
def execRsq (g : Guard) (la : BitVec 4) (vec : Bool) (d : Reg) (a : Src) (s : State) : Out :=
  sfuOp (.rsq g la vec d a) g la vec d a FpVal.rsqrt s

/-- EXP2 in its scalar and its pair form (R145, R146). -/
def execExp2 (g : Guard) (la : BitVec 4) (vec : Bool) (d : Reg) (a : Src) (s : State) : Out :=
  sfuOp (.exp2 g la vec d a) g la vec d a exp2Val s

/-- LOG2 in its scalar and its pair form (R145, R146). -/
def execLog2 (g : Guard) (la : BitVec 4) (vec : Bool) (d : Reg) (a : Src) (s : State) : Out :=
  sfuOp (.log2 g la vec d a) g la vec d a log2Val s

/-- SIN in its scalar and its pair form (R145, R146). -/
def execSin (g : Guard) (la : BitVec 4) (vec : Bool) (d : Reg) (a : Src) (s : State) : Out :=
  sfuOp (.sin g la vec d a) g la vec d a sinVal s

/-- COS in its scalar and its pair form (R145, R146). -/
def execCos (g : Guard) (la : BitVec 4) (vec : Bool) (d : Reg) (a : Src) (s : State) : Out :=
  sfuOp (.cos g la vec d a) g la vec d a cosVal s

/-- TANH in its scalar and its pair form (R145, R146). -/
def execTanh (g : Guard) (la : BitVec 4) (vec : Bool) (d : Reg) (a : Src) (s : State) : Out :=
  sfuOp (.tanh g la vec d a) g la vec d a tanhVal s

end Sys2Proof.Machine
end

