-- ==== Sys2Proof/Machine/ShortVector.lean ====
section
/-! DEFINITION. Short-vector instructions (R130 to R140). -/

namespace Sys2Proof.Machine

/-! ### Lane results -/

/-- The signed range of w bits. -/
def signedClamp (w : Nat) (x : Int) : Nat := intBits w (clampInt (-(2 ^ (w - 1))) (2 ^ (w - 1) - 1) x)

/-- The unsigned range of w bits. -/
def unsignedClamp (w : Nat) (x : Int) : Nat := (clampInt 0 (2 ^ w - 1) x).toNat

/-- VADD on a lane (R131). -/
def laneAdd (op : SatOp) (w a b : Nat) : Nat :=
  match op with
  | .wrap => (a + b) % 2 ^ w
  | .sat => signedClamp w (bitsInt w a + bitsInt w b)
  | .usat => unsignedClamp w (a + b)

/-- VSUB on a lane (R131). -/
def laneSub (op : SatOp) (w a b : Nat) : Nat :=
  match op with
  | .wrap => (a + (2 ^ w - b)) % 2 ^ w
  | .sat => signedClamp w (bitsInt w a - bitsInt w b)
  | .usat => a - b

/-- VMUL on a lane (R131). -/
def laneMul (op : MulPart) (w a b : Nat) : Nat :=
  match op with
  | .lo => a * b % 2 ^ w
  | .hi => intBits w (bitsInt w a * bitsInt w b / 2 ^ w)
  | .hiu => a * b / 2 ^ w

/-- VMIN on a lane (R131). -/
def laneMin (unsigned : Bool) (w a b : Nat) : Nat :=
  if unsigned then min a b else if bitsInt w a ≤ bitsInt w b then a else b

/-- VMAX on a lane (R131). -/
def laneMax (unsigned : Bool) (w a b : Nat) : Nat :=
  if unsigned then max a b else if bitsInt w a ≤ bitsInt w b then b else a

/-- VSAR on a lane (R132). -/
def laneSar (w a n : Nat) : Nat := intBits w (bitsInt w a / 2 ^ n)

/-- A lane of VSHUF (R133). -/
def shufLane (w : Nat) (k : Nat) (a b c : BitVec 128) : Nat :=
  let L := 128 / w
  let x := laneOf c w k
  if x.testBit (w - 1) then 0
  else if x % (2 * L) < L then laneOf a w (x % (2 * L)) else laneOf b w (x % (2 * L) - L)

/-- A lane of VPERM (R134). -/
def permLane (op : PermOp) (w k : Nat) (a b : BitVec 128) : Nat :=
  let L := 128 / w
  let h := L / 2
  match op with
  | .rev => laneOf a w (L - 1 - k)
  | .swap => laneOf a w (if k % 2 = 0 then k + 1 else k - 1)
  | .ziplo => if k % 2 = 0 then laneOf a w (k / 2) else laneOf b w (k / 2)
  | .ziphi => if k % 2 = 0 then laneOf a w (h + k / 2) else laneOf b w (h + k / 2)
  | .even => if k < h then laneOf a w (2 * k) else laneOf b w (2 * (k - h))
  | .odd => if k < h then laneOf a w (2 * k + 1) else laneOf b w (2 * (k - h) + 1)

/-- The lane width of a VCMP kind (R136). -/
def vcmpBits : VCmpKind → Nat
  | .int sz _ => elemBits sz
  | .flt f _ => (vfloatFormat f).width

/-- The condition of VCMP on a lane (R136). -/
def vcmpLane (k : VCmpKind) (a b : Nat) : Bool :=
  match k with
  | .int sz cc => intCondHolds cc (elemBits sz) a b
  | .flt f cc => floatCondHolds cc ((vfloatFormat f).decode a) ((vfloatFormat f).decode b)

/-- Lane i of VDOT (R139). -/
def dotLane (rm : Rounding) (i : Nat) (a b c : BitVec 128) : Nat :=
  let e := fun v k => bf16.decode (laneOf v 16 k)
  fp32.round rm (.sum rm [(e a (2 * i)).mul (e b (2 * i)), (e a (2 * i + 1)).mul (e b (2 * i + 1)), fp32.decode (laneOf c 32 i)])

/-- The source width, the result width and the result of an element of VCVT (R140, R42). -/
def vcvtElem (op : VCvtOp) (rm : Rounding) (x : BitVec 128) (i : Nat) : Nat × Nat :=
  let f := fp32.decode (laneOf x 32 i)
  match op with
  | .f32bf16 => (16, bf16.round rm f)
  | .f32f16 => (16, fp16.round rm f)
  | .bf16f32 => (32, fp32.round .rne (bf16.decode (laneOf x 16 i)))
  | .f16f32 => (32, fp32.round .rne (fp16.decode (laneOf x 16 i)))
  | .f32i32 => (32, fmtEncode 3 rm f)
  | .i32f32 => (32, fp32.round rm (fmtDecode 3 (laneOf x 32 i)))
  | .f32t8 => (8, encodeTaper 8 f)
  | .t8f32 => (32, fp32.round .rne (decodeTaper 8 (laneOf x 8 i)))
  | .f32i8 => (8, fmtEncode 1 rm f)
  | .i8f32 => (32, fp32.round .rne (fmtDecode 1 (laneOf x 8 i)))

/-- The pair after VCVT: each active element of four is placed at its width, the rest is kept (R140). -/
def vcvtPair (op : VCvtOp) (rm : Rounding) (active : Nat → Bool) (old x : BitVec 128) : BitVec 128 :=
  (List.range 4).foldl (fun v i => if active i then setLaneOf v (vcvtElem op rm x i).1 i (vcvtElem op rm x i).2 else v) old

/-! ### Meanings -/

/-- VADD[.op].iN (R131). -/
def execVadd (g : Guard) (op : SatOp) (sz : ElemSize) (d : Reg) (a b : Src) (s : State) : Out :=
  vectorOp (.vadd g op sz d a b) g (elemBits sz) d a b (laneAdd op (elemBits sz)) s

/-- VSUB[.op].iN (R131). -/
def execVsub (g : Guard) (op : SatOp) (sz : ElemSize) (d : Reg) (a b : Src) (s : State) : Out :=
  vectorOp (.vsub g op sz d a b) g (elemBits sz) d a b (laneSub op (elemBits sz)) s

/-- VMUL[.op].iN (R131). -/
def execVmul (g : Guard) (op : MulPart) (sz : ElemSize) (d : Reg) (a b : Src) (s : State) : Out :=
  vectorOp (.vmul g op sz d a b) g (elemBits sz) d a b (laneMul op (elemBits sz)) s

/-- VMIN[.u].iN (R131). -/
def execVmin (g : Guard) (unsigned : Bool) (sz : ElemSize) (d : Reg) (a b : Src) (s : State) : Out :=
  vectorOp (.vmin g unsigned sz d a b) g (elemBits sz) d a b (laneMin unsigned (elemBits sz)) s

/-- VMAX[.u].iN (R131). -/
def execVmax (g : Guard) (unsigned : Bool) (sz : ElemSize) (d : Reg) (a b : Src) (s : State) : Out :=
  vectorOp (.vmax g unsigned sz d a b) g (elemBits sz) d a b (laneMax unsigned (elemBits sz)) s

/-- VAND.iN (R132). -/
def execVand (g : Guard) (sz : ElemSize) (d : Reg) (a b : Src) (s : State) : Out :=
  vectorOp (.vand g sz d a b) g (elemBits sz) d a b (fun x y => x &&& y) s

/-- VOR.iN (R132). -/
def execVor (g : Guard) (sz : ElemSize) (d : Reg) (a b : Src) (s : State) : Out :=
  vectorOp (.vor g sz d a b) g (elemBits sz) d a b (fun x y => x ||| y) s

/-- VXOR.iN (R132). -/
def execVxor (g : Guard) (sz : ElemSize) (d : Reg) (a b : Src) (s : State) : Out :=
  vectorOp (.vxor g sz d a b) g (elemBits sz) d a b (fun x y => x ^^^ y) s

/-- VANDN.iN (R132). -/
def execVandn (g : Guard) (sz : ElemSize) (d : Reg) (a b : Src) (s : State) : Out :=
  vectorOp (.vandn g sz d a b) g (elemBits sz) d a b (fun x y => x &&& (2 ^ elemBits sz - 1 - y)) s

/-- VSHL.iN (R132). -/
def execVshl (g : Guard) (sz : ElemSize) (d : Reg) (a b : Src) (s : State) : Out :=
  vectorOp (.vshl g sz d a b) g (elemBits sz) d a b (fun x y => x * 2 ^ (y % elemBits sz)) s

/-- VSHR.iN (R132). -/
def execVshr (g : Guard) (sz : ElemSize) (d : Reg) (a b : Src) (s : State) : Out :=
  vectorOp (.vshr g sz d a b) g (elemBits sz) d a b (fun x y => x / 2 ^ (y % elemBits sz)) s

/-- VSAR.iN (R132). -/
def execVsar (g : Guard) (sz : ElemSize) (d : Reg) (a b : Src) (s : State) : Out :=
  vectorOp (.vsar g sz d a b) g (elemBits sz) d a b (fun x y => laneSar (elemBits sz) x (y % elemBits sz)) s

/-- VSHUF.iN (R133). -/
def execVshuf (g : Guard) (sz : ElemSize) (d : Reg) (a b cc : Src) (s : State) : Out :=
  vectorOp3 (.vshuf g sz d a b cc) g (elemBits sz) d a b cc (shufLane (elemBits sz)) s

/-- The registers of VPERM's second source, where its pattern uses one (R134). -/
def permNames (op : PermOp) (b : Src) : BitVec 8 := if op.usesB then pairName b else 0

/-- VPERM.op.iN (R134). -/
def execVperm (g : Guard) (op : PermOp) (sz : ElemSize) (d : Reg) (a b : Src) (s : State) : Out :=
  let w := elemBits sz
  issueReg (headVec (.vperm g op sz d a b) g (128 / w) (pairMask d ||| pairName a ||| permNames op b) (a.takePair ||| b.takePair)) s
    fun x c => c.setPair d (mapLanes (128 / w) w (x.active g) (c.pair d) fun k => permLane op w k (x.pair a.reg) (x.pair b.reg))

/-- VSPLAT.iN (R135). -/
def execVsplat (g : Guard) (sz : ElemSize) (d : Reg) (a : Src) (s : State) : Out :=
  let w := elemBits sz
  issueReg (headVec (.vsplat g sz d a) g (128 / w) (pairMask d ||| a.nameMask) a.takeMask) s fun x c =>
    c.setPair d (mapLanes (128 / w) w (x.active g) (c.pair d) fun _ => (x.src a).toNat % 2 ^ w)

/-- The head of an instruction that one lane guards: lane UInt(gb) mod L (R135). -/
def headLane (i : Instr) (g : Guard) (L : Nat) (b : Src) (names takes : BitVec 8) : Head :=
  { headVec i g L names takes with pick := some b.reg }

/-- VEXT[.s].iN (R135). -/
def execVext (g : Guard) (signed : Bool) (sz : ElemSize) (d : Reg) (a b : Src) (s : State) : Out :=
  let w := elemBits sz
  issueReg (headLane (.vext g signed sz d a b) g (128 / w) b (regMask d ||| pairName a ||| b.nameMask) (a.takePair ||| b.takeMask)) s
    fun x c =>
      let v := laneOf (x.pair a.reg) w ((x.src b).toNat % (128 / w))
      c.setReg d (if signed then BitVec.ofInt 64 (bitsInt w v) else w64 v)

/-- VINS.iN (R135): lane UInt(gb) mod L. -/
def execVins (g : Guard) (sz : ElemSize) (d : Reg) (a b : Src) (s : State) : Out :=
  let w := elemBits sz
  issueReg (headLane (.vins g sz d a b) g (128 / w) b (pairMask d ||| a.nameMask ||| b.nameMask) (takes2 a b)) s fun x c =>
    c.setPair d (setLaneOf (c.pair d) w ((x.src b).toNat % (128 / w)) ((x.src a).toNat % 2 ^ w))

/-- VCMP.cc.kind (R136). -/
def execVcmp (g : Guard) (pk : BitVec 2) (cm : Combine) (k : VCmpKind) (a b : Src) (s : State) : Out :=
  let w := vcmpBits k
  issueReg (headVec (.vcmp g pk cm k a b) g (128 / w) (pairName a ||| pairName b) (a.takePair ||| b.takePair)) s fun x c =>
    c.writePair pk cm (128 / w) (x.active g) fun i => vcmpLane k (laneOf (x.pair a.reg) w i) (laneOf (x.pair b.reg) w i)

/-- VFADD.fmt[.rm] (R137). -/
def execVfadd (g : Guard) (fmt : VFloat) (rm : Rounding) (d : Reg) (a b : Src) (s : State) : Out :=
  vectorOp (.vfadd g fmt rm d a b) g (vfloatFormat fmt).width d a b ((vfloatFormat fmt).add rm) s

/-- VFSUB.fmt[.rm] (R137). -/
def execVfsub (g : Guard) (fmt : VFloat) (rm : Rounding) (d : Reg) (a b : Src) (s : State) : Out :=
  vectorOp (.vfsub g fmt rm d a b) g (vfloatFormat fmt).width d a b ((vfloatFormat fmt).sub rm) s

/-- VFMUL.fmt[.rm] (R137). -/
def execVfmul (g : Guard) (fmt : VFloat) (rm : Rounding) (d : Reg) (a b : Src) (s : State) : Out :=
  vectorOp (.vfmul g fmt rm d a b) g (vfloatFormat fmt).width d a b ((vfloatFormat fmt).mul rm) s

/-- VFMA.fmt[.rm] (R137). -/
def execVfma (g : Guard) (fmt : VFloat) (rm : Rounding) (d : Reg) (a b cc : Src) (s : State) : Out :=
  let w := (vfloatFormat fmt).width
  vectorOp3 (.vfma g fmt rm d a b cc) g w d a b cc
    (fun i x y z => (vfloatFormat fmt).fma rm (laneOf x w i) (laneOf y w i) (laneOf z w i)) s

/-- VFMIN.fmt (R138). -/
def execVfmin (g : Guard) (fmt : VFloat) (d : Reg) (a b : Src) (s : State) : Out :=
  vectorOp (.vfmin g fmt d a b) g (vfloatFormat fmt).width d a b ((vfloatFormat fmt).minNum) s

/-- VFMAX.fmt (R138). -/
def execVfmax (g : Guard) (fmt : VFloat) (d : Reg) (a b : Src) (s : State) : Out :=
  vectorOp (.vfmax g fmt d a b) g (vfloatFormat fmt).width d a b ((vfloatFormat fmt).maxNum) s

/-- VDOT[.rm] (R139). -/
def execVdot (g : Guard) (rm : Rounding) (d : Reg) (a b cc : Src) (s : State) : Out :=
  vectorOp3 (.vdot g rm d a b cc) g 32 d a b cc (dotLane rm) s

/-- VCVT.conv[.rm] (R140): four guard lanes. -/
def execVcvt (g : Guard) (op : VCvtOp) (rm : Rounding) (d : Reg) (a : Src) (s : State) : Out :=
  issueReg (headVec (.vcvt g op rm d a) g 4 (pairMask d ||| pairName a) a.takePair) s fun x c =>
    c.setPair d (vcvtPair op rm (x.active g) (c.pair d) (x.pair a.reg))

end Sys2Proof.Machine
end

