-- ==== Sys2Proof/Machine/Dispatch.lean ====
section
/-! DEFINITION. The meaning of every instruction, one arm each: a direct call of a definition of its own (spec/opcode_table.json). -/

namespace Sys2Proof.Machine

/-- The meaning of an instruction word, of an engine command, or of a step of the device. -/
def exec (i : Instr) (s : State) : Host.Outcome State Fault Refusal :=
  match i with
  | .add g d a b => Sys2Proof.Machine.execAdd g d a b s
  | .sub g d a b => Sys2Proof.Machine.execSub g d a b s
  | .addi g d a imm => Sys2Proof.Machine.execAddi g d a imm s
  | .mul g d a b => Sys2Proof.Machine.execMul g d a b s
  | .mulh g d a b => Sys2Proof.Machine.execMulh g d a b s
  | .mulhu g d a b => Sys2Proof.Machine.execMulhu g d a b s
  | .div g d a b => Sys2Proof.Machine.execDiv g d a b s
  | .divu g d a b => Sys2Proof.Machine.execDivu g d a b s
  | .rem g d a b => Sys2Proof.Machine.execRem g d a b s
  | .remu g d a b => Sys2Proof.Machine.execRemu g d a b s
  | .and g d a b => Sys2Proof.Machine.execAnd g d a b s
  | .or g d a b => Sys2Proof.Machine.execOr g d a b s
  | .xor g d a b => Sys2Proof.Machine.execXor g d a b s
  | .andn g d a b => Sys2Proof.Machine.execAndn g d a b s
  | .shl g d a b => Sys2Proof.Machine.execShl g d a b s
  | .shr g d a b => Sys2Proof.Machine.execShr g d a b s
  | .sar g d a b => Sys2Proof.Machine.execSar g d a b s
  | .rot g d a b => Sys2Proof.Machine.execRot g d a b s
  | .min g d a b => Sys2Proof.Machine.execMin g d a b s
  | .max g d a b => Sys2Proof.Machine.execMax g d a b s
  | .minu g d a b => Sys2Proof.Machine.execMinu g d a b s
  | .maxu g d a b => Sys2Proof.Machine.execMaxu g d a b s
  | .abs g d a => Sys2Proof.Machine.execAbs g d a s
  | .clz g d a => Sys2Proof.Machine.execClz g d a s
  | .ctz g d a => Sys2Proof.Machine.execCtz g d a s
  | .popc g d a => Sys2Proof.Machine.execPopc g d a s
  | .bext g d a b => Sys2Proof.Machine.execBext g d a b s
  | .bins g d a b cc => Sys2Proof.Machine.execBins g d a b cc s
  | .sext g w d a => Sys2Proof.Machine.execSext g w d a s
  | .zext g w d a => Sys2Proof.Machine.execZext g w d a s
  | .sel g k d a b => Sys2Proof.Machine.execSel g k d a b s
  | .ldi g d imm => Sys2Proof.Machine.execLdi g d imm s
  | .ldih g d imm => Sys2Proof.Machine.execLdih g d imm s
  | .addpc g d off => Sys2Proof.Machine.execAddpc g d off s
  | .fatset g d a b => Sys2Proof.Machine.execFatset g d a b s
  | .fatget g d a => Sys2Proof.Machine.execFatget g d a s
  | .andi g d a imm => Sys2Proof.Machine.execAndi g d a imm s
  | .ori g d a imm => Sys2Proof.Machine.execOri g d a imm s
  | .xori g d a imm => Sys2Proof.Machine.execXori g d a imm s
  | .shli g d a n => Sys2Proof.Machine.execShli g d a n s
  | .shri g d a n => Sys2Proof.Machine.execShri g d a n s
  | .sari g d a n => Sys2Proof.Machine.execSari g d a n s
  | .cmp g pk cm cc a b => Sys2Proof.Machine.execCmp g pk cm cc a b s
  | .cmpi g pk cm cc a imm => Sys2Proof.Machine.execCmpi g pk cm cc a imm s
  | .tst g pk cm nz a b => Sys2Proof.Machine.execTst g pk cm nz a b s
  | .fcmp g pk cm fmt cc a b => Sys2Proof.Machine.execFcmp g pk cm fmt cc a b s
  | .pset g x y z w tbl => Sys2Proof.Machine.execPset g x y z w tbl s
  | .pmov g f x y => Sys2Proof.Machine.execPmov g f x y s
  | .pcnt g x y => Sys2Proof.Machine.execPcnt g x y s
  | .br g off => Sys2Proof.Machine.execBr g off s
  | .brl g d off => Sys2Proof.Machine.execBrl g d off s
  | .jr g a => Sys2Proof.Machine.execJr g a s
  | .jrl g d a => Sys2Proof.Machine.execJrl g d a s
  | .loop g d off => Sys2Proof.Machine.execLoop g d off s
  | .waitInbox g => Sys2Proof.Machine.execWaitInbox g s
  | .waitFull g a => Sys2Proof.Machine.execWaitFull g a s
  | .waitTime g a => Sys2Proof.Machine.execWaitTime g a s
  | .yield g => Sys2Proof.Machine.execYield g s
  | .nop g => Sys2Proof.Machine.execNop g s
  | .illegalOpcode word cond => Sys2Proof.Machine.execIllegalOpcode word cond s
  | .vadd g op sz d a b => Sys2Proof.Machine.execVadd g op sz d a b s
  | .vsub g op sz d a b => Sys2Proof.Machine.execVsub g op sz d a b s
  | .vmul g op sz d a b => Sys2Proof.Machine.execVmul g op sz d a b s
  | .vmin g unsigned sz d a b => Sys2Proof.Machine.execVmin g unsigned sz d a b s
  | .vmax g unsigned sz d a b => Sys2Proof.Machine.execVmax g unsigned sz d a b s
  | .vand g sz d a b => Sys2Proof.Machine.execVand g sz d a b s
  | .vor g sz d a b => Sys2Proof.Machine.execVor g sz d a b s
  | .vxor g sz d a b => Sys2Proof.Machine.execVxor g sz d a b s
  | .vandn g sz d a b => Sys2Proof.Machine.execVandn g sz d a b s
  | .vshl g sz d a b => Sys2Proof.Machine.execVshl g sz d a b s
  | .vshr g sz d a b => Sys2Proof.Machine.execVshr g sz d a b s
  | .vsar g sz d a b => Sys2Proof.Machine.execVsar g sz d a b s
  | .vshuf g sz d a b cc => Sys2Proof.Machine.execVshuf g sz d a b cc s
  | .vperm g op sz d a b => Sys2Proof.Machine.execVperm g op sz d a b s
  | .vsplat g sz d a => Sys2Proof.Machine.execVsplat g sz d a s
  | .vext g signed sz d a b => Sys2Proof.Machine.execVext g signed sz d a b s
  | .vins g sz d a b => Sys2Proof.Machine.execVins g sz d a b s
  | .vcmp g pk cm k a b => Sys2Proof.Machine.execVcmp g pk cm k a b s
  | .vfadd g fmt rm d a b => Sys2Proof.Machine.execVfadd g fmt rm d a b s
  | .vfsub g fmt rm d a b => Sys2Proof.Machine.execVfsub g fmt rm d a b s
  | .vfmul g fmt rm d a b => Sys2Proof.Machine.execVfmul g fmt rm d a b s
  | .vfma g fmt rm d a b cc => Sys2Proof.Machine.execVfma g fmt rm d a b cc s
  | .vfmin g fmt d a b => Sys2Proof.Machine.execVfmin g fmt d a b s
  | .vfmax g fmt d a b => Sys2Proof.Machine.execVfmax g fmt d a b s
  | .vdot g rm d a b cc => Sys2Proof.Machine.execVdot g rm d a b cc s
  | .vcvt g op rm d a => Sys2Proof.Machine.execVcvt g op rm d a s
  | .fadd g fmt rm d a b => Sys2Proof.Machine.execFadd g fmt rm d a b s
  | .fsub g fmt rm d a b => Sys2Proof.Machine.execFsub g fmt rm d a b s
  | .fmul g fmt rm d a b => Sys2Proof.Machine.execFmul g fmt rm d a b s
  | .ffma g fmt rm d a b cc => Sys2Proof.Machine.execFfma g fmt rm d a b cc s
  | .fdiv g la fmt rm d a b => Sys2Proof.Machine.execFdiv g la fmt rm d a b s
  | .fsqrt g la fmt rm d a => Sys2Proof.Machine.execFsqrt g la fmt rm d a s
  | .fmin g fmt d a b => Sys2Proof.Machine.execFmin g fmt d a b s
  | .fmax g fmt d a b => Sys2Proof.Machine.execFmax g fmt d a b s
  | .fcvt g op rm d a => Sys2Proof.Machine.execFcvt g op rm d a s
  | .fclass g fmt d a => Sys2Proof.Machine.execFclass g fmt d a s
  | .rcp g la vec d a => Sys2Proof.Machine.execRcp g la vec d a s
  | .rsq g la vec d a => Sys2Proof.Machine.execRsq g la vec d a s
  | .exp2 g la vec d a => Sys2Proof.Machine.execExp2 g la vec d a s
  | .log2 g la vec d a => Sys2Proof.Machine.execLog2 g la vec d a s
  | .sin g la vec d a => Sys2Proof.Machine.execSin g la vec d a s
  | .cos g la vec d a => Sys2Proof.Machine.execCos g la vec d a s
  | .tanh g la vec d a => Sys2Proof.Machine.execTanh g la vec d a s
  | .ld g la w d a off => Sys2Proof.Machine.execLd g la w d a off s
  | .st g w a b off => Sys2Proof.Machine.execSt g w a b off s
  | .ldv g la d a off => Sys2Proof.Machine.execLdv g la d a off s
  | .stv g a b off => Sys2Proof.Machine.execStv g a b off s
  | .ldt g la d a b off => Sys2Proof.Machine.execLdt g la d a b off s
  | .stt g d a b off => Sys2Proof.Machine.execStt g d a b off s
  | .ldAcq g w sc d a off => Sys2Proof.Machine.execLdAcq g w sc d a off s
  | .stRel g w sc a b off => Sys2Proof.Machine.execStRel g w sc a b off s
  | .amo g la op wide ord sc d a b => Sys2Proof.Machine.execAmo g la op wide ord sc d a b s
  | .fence g ord sc => Sys2Proof.Machine.execFence g ord sc s
  | .pref g wr a off => Sys2Proof.Machine.execPref g wr a off s
  | .clean g sc a b => Sys2Proof.Machine.execClean g sc a b s
  | .inv g sc a b => Sys2Proof.Machine.execInv g sc a b s
  | .discard g sc a b => Sys2Proof.Machine.execDiscard g sc a b s
  | .send g n a b => Sys2Proof.Machine.execSend g n a b s
  | .dep g m a b => Sys2Proof.Machine.execDep g m a b s
  | .recv g d => Sys2Proof.Machine.execRecv g d s
  | .qred g la t d a => Sys2Proof.Machine.execQred g la t d a s
  | .rget g la m pk d a b => Sys2Proof.Machine.execRget g la m pk d a b s
  | .spawn g d a b => Sys2Proof.Machine.execSpawn g d a b s
  | .quit g => Sys2Proof.Machine.execQuit g s
  | .quitDone g => Sys2Proof.Machine.execQuitDone g s
  | .mig g a => Sys2Proof.Machine.execMig g a s
  | .self g f d => Sys2Proof.Machine.execSelf g f d s
  | .fset g m => Sys2Proof.Machine.execFset g m s
  | .fclr g m => Sys2Proof.Machine.execFclr g m s
  | .evsnd g rel a b cc => Sys2Proof.Machine.execEvsnd g rel a b cc s
  | .evarm g rel a b cc => Sys2Proof.Machine.execEvarm g rel a b cc s
  | .evstep g d a b => Sys2Proof.Machine.execEvstep g d a b s
  | .evrdMem g d a => Sys2Proof.Machine.execEvrdMem g d a s
  | .evrdStep g d a => Sys2Proof.Machine.execEvrdStep g d a s
  | .evrdLate g d a => Sys2Proof.Machine.execEvrdLate g d a s
  | .evwr g d a b => Sys2Proof.Machine.execEvwr g d a b s
  | .evcfg g d a b => Sys2Proof.Machine.execEvcfg g d a b s
  | .evcfgClr g d a b => Sys2Proof.Machine.execEvcfgClr g d a b s
  | .fenceEv g => Sys2Proof.Machine.execFenceEv g s
  | .post g la rel d a => Sys2Proof.Machine.execPost g la rel d a s
  | .postw g rel d a => Sys2Proof.Machine.execPostw g rel d a s
  | .talloc g d a b => Sys2Proof.Machine.execTalloc g d a b s
  | .tfree g d a => Sys2Proof.Machine.execTfree g d a s
  | .tinfo g d a => Sys2Proof.Machine.execTinfo g d a s
  | .trap g n a => Sys2Proof.Machine.execTrap g n a s
  | .resume g d a => Sys2Proof.Machine.execResume g d a s
  | .csrr g d num => Sys2Proof.Machine.execCsrr g d num s
  | .csrw g d a num => Sys2Proof.Machine.execCsrw g d a num s
  | .csrs g d a num => Sys2Proof.Machine.execCsrs g d a num s
  | .csrc g d a num => Sys2Proof.Machine.execCsrc g d a num s
  | .tlbinvRange g sc a b => Sys2Proof.Machine.execTlbinvRange g sc a b s
  | .tlbinvAll g sc => Sys2Proof.Machine.execTlbinvAll g sc s
  | .evictL2 g d a => Sys2Proof.Machine.execEvictL2 g d a s
  | .evictMem g d a => Sys2Proof.Machine.execEvictMem g d a s
  | .time g d => Sys2Proof.Machine.execTime g d s
  | .bkpt g => Sys2Proof.Machine.execBkpt g s
  | .launch g d a => Sys2Proof.Machine.execLaunch g d a s
  | .cancelLaunch g d a => Sys2Proof.Machine.execCancelLaunch g d a s
  | .cancelJob g d a => Sys2Proof.Machine.execCancelJob g d a s
  | .maskclr g => Sys2Proof.Machine.execMaskclr g s
  | .tload c => Sys2Proof.Machine.execTload c s
  | .tstore c => Sys2Proof.Machine.execTstore c s
  | .tcopy c => Sys2Proof.Machine.execTcopy c s
  | .tgather c => Sys2Proof.Machine.execTgather c s
  | .tscadd c => Sys2Proof.Machine.execTscadd c s
  | .tfill c => Sys2Proof.Machine.execTfill c s
  | .ttrans c => Sys2Proof.Machine.execTtrans c s
  | .pool c => Sys2Proof.Machine.execPool c s
  | .rowadd c => Sys2Proof.Machine.execRowadd c s
  | .evstream c => Sys2Proof.Machine.execEvstream c s
  | .mma c => Sys2Proof.Machine.execMma c s
  | .mmag c => Sys2Proof.Machine.execMmag c s
  | .quant c => Sys2Proof.Machine.execQuant c s
  | .dequant c => Sys2Proof.Machine.execDequant c s
  | .tadd c => Sys2Proof.Machine.execTadd c s
  | .tsub c => Sys2Proof.Machine.execTsub c s
  | .tmul c => Sys2Proof.Machine.execTmul c s
  | .tmax c => Sys2Proof.Machine.execTmax c s
  | .tscale c => Sys2Proof.Machine.execTscale c s
  | .tact c => Sys2Proof.Machine.execTact c s
  | .trowred c => Sys2Proof.Machine.execTrowred c s
  | .tsoftmax c => Sys2Proof.Machine.execTsoftmax c s
  | .engineCommandEnd c q k => Sys2Proof.Machine.execEngineCommandEnd c q k s
  | .groupRequestAtBank k => Sys2Proof.Machine.execGroupRequestAtBank k s
  | .handleTableRequest k pick => Sys2Proof.Machine.execHandleTableRequest k pick s
  | .requestAtLineOwner k => Sys2Proof.Machine.execRequestAtLineOwner k s
  | .rangeOperationEnd k => Sys2Proof.Machine.execRangeOperationEnd k s
  | .contextL1Fill c u sl => Sys2Proof.Machine.execContextL1Fill c u sl s
  | .bulkLaneWake ln => Sys2Proof.Machine.execBulkLaneWake ln s
  | .bulkLanePowerUp ln => Sys2Proof.Machine.execBulkLanePowerUp ln s
  | .linkPlaneDown b pl => Sys2Proof.Machine.execLinkPlaneDown b pl s
  | .commandAccept buf k => Sys2Proof.Machine.execCommandAccept buf k s
  | .postRetry buf k => Sys2Proof.Machine.execPostRetry buf k s
  | .gangTicketGrant die k => Sys2Proof.Machine.execGangTicketGrant die k s
  | .gangSliceStart c k => Sys2Proof.Machine.execGangSliceStart c k s
  | .gangSliceEnd c k => Sys2Proof.Machine.execGangSliceEnd c k s
  | .rowCacheHalving die => Sys2Proof.Machine.execRowCacheHalving die s
  | .lineWrite k => Sys2Proof.Machine.execLineWrite k s
  | .deferredFault k => Sys2Proof.Machine.execDeferredFault k s
  | .loadRemoteHome k => Sys2Proof.Machine.execLoadRemoteHome k s
  | .poisonedData k => Sys2Proof.Machine.execPoisonedData k s
  | .replayReissue => Sys2Proof.Machine.execReplayReissue s
  | .sfuComplete c => Sys2Proof.Machine.execSfuComplete c s
  | .sfuHoldExpire c k => Sys2Proof.Machine.execSfuHoldExpire c k s
  | .divideComplete k => Sys2Proof.Machine.execDivideComplete k s
  | .reducerPop k => Sys2Proof.Machine.execReducerPop k s
  | .qredRestart => Sys2Proof.Machine.execQredRestart s
  | .fetchFault => Sys2Proof.Machine.execFetchFault s
  | .fetchArrive key => Sys2Proof.Machine.execFetchArrive key s
  | .orderingComplete k => Sys2Proof.Machine.execOrderingComplete k s
  | .messageDelivery buf k => Sys2Proof.Machine.execMessageDelivery buf k s
  | .depositDelivery buf k => Sys2Proof.Machine.execDepositDelivery buf k s
  | .sendRetry buf k => Sys2Proof.Machine.execSendRetry buf k s
  | .timeWaitExpire key => Sys2Proof.Machine.execTimeWaitExpire key s
  | .rgetTimeout k => Sys2Proof.Machine.execRgetTimeout k s
  | .slotSelect c u sl => Sys2Proof.Machine.execSlotSelect c u sl s
  | .claim key c u sl => Sys2Proof.Machine.execClaim key c u sl s
  | .swapLoad c u sl => Sys2Proof.Machine.execSwapLoad c u sl s
  | .backlogFill c => Sys2Proof.Machine.execBacklogFill c s
  | .arrivalAccept key => Sys2Proof.Machine.execArrivalAccept key s
  | .agingStep c cls k => Sys2Proof.Machine.execAgingStep c cls k s
  | .spawnRequest k => Sys2Proof.Machine.execSpawnRequest k s
  | .eventAccept buf k => Sys2Proof.Machine.execEventAccept buf k s
  | .stepClose k => Sys2Proof.Machine.execStepClose k s
  | .groupClear gk => Sys2Proof.Machine.execGroupClear gk s
  | .eventMerge buf1 k1 buf2 k2 => Sys2Proof.Machine.execEventMerge buf1 k1 buf2 k2 s
  | .amoMerge k1 k2 => Sys2Proof.Machine.execAmoMerge k1 k2 s
  | .tokenRefill die port => Sys2Proof.Machine.execTokenRefill die port s
  | .switchPowerDown sw => Sys2Proof.Machine.execSwitchPowerDown sw s
  | .switchWake sw => Sys2Proof.Machine.execSwitchWake sw s
  | .switchPowerUp sw => Sys2Proof.Machine.execSwitchPowerUp sw s
  | .bulkLanePowerDown ln => Sys2Proof.Machine.execBulkLanePowerDown ln s
  | .linkCrcError ln => Sys2Proof.Machine.execLinkCrcError ln s
  | .laneRetire ln => Sys2Proof.Machine.execLaneRetire ln s
  | .allLinksDown die => Sys2Proof.Machine.execAllLinksDown die s
  | .dusetLinkLoss die port => Sys2Proof.Machine.execDusetLinkLoss die port s
  | .dieReset die deadline => Sys2Proof.Machine.execDieReset die deadline s
  | .dieDrainEnd die => Sys2Proof.Machine.execDieDrainEnd die s
  | .dieDrainDeadline die => Sys2Proof.Machine.execDieDrainDeadline die s
  | .dieRejoin die ready => Sys2Proof.Machine.execDieRejoin die ready s
  | .mapOutCluster c => Sys2Proof.Machine.execMapOutCluster c s
  | .retireHbmChannel die ch => Sys2Proof.Machine.execRetireHbmChannel die ch s
  | .readCounters asid => Sys2Proof.Machine.execReadCounters asid s
  | .readErrorRecords => Sys2Proof.Machine.execReadErrorRecords s
  | .readBringupParameters => Sys2Proof.Machine.execReadBringupParameters s
  | .setPowerLimit w => Sys2Proof.Machine.execSetPowerLimit w s
  | .enrolKeyPair pair signed => Sys2Proof.Machine.execEnrolKeyPair pair signed s
  | .withdrawKeyPair pair signed => Sys2Proof.Machine.execWithdrawKeyPair pair signed s
  | .attest nonce => Sys2Proof.Machine.execAttest nonce s
  | .submissionWrite port asid data => Sys2Proof.Machine.execSubmissionWrite port asid data s
  | .startRequest port asid data => Sys2Proof.Machine.execStartRequest port asid data s
  | .hostHdmAccess pa w => Sys2Proof.Machine.execHostHdmAccess pa w s
  | .trapRingWrite asid v => Sys2Proof.Machine.execTrapRingWrite asid v s
  | .secverFuseWrite v => Sys2Proof.Machine.execSecverFuseWrite v s
  | .arrivalLimitWrite c v => Sys2Proof.Machine.execArrivalLimitWrite c v s
  | .tenantWeightWrite asid v => Sys2Proof.Machine.execTenantWeightWrite asid v s
  | .correctedError die st loc => Sys2Proof.Machine.execCorrectedError die st loc s
  | .recurringCorrectedError die st loc => Sys2Proof.Machine.execRecurringCorrectedError die st loc s
  | .scrubUncorrectable pa => Sys2Proof.Machine.execScrubUncorrectable pa s
  | .powerAlarmRise power => Sys2Proof.Machine.execPowerAlarmRise power s
  | .powerAlarmClear power => Sys2Proof.Machine.execPowerAlarmClear power s
  | .coldReset => Sys2Proof.Machine.execColdReset s
  | .timeBaseTick => Sys2Proof.Machine.execTimeBaseTick s
  | .bootStage0 img => Sys2Proof.Machine.execBootStage0 img s
  | .bootStage1 imgs cxl => Sys2Proof.Machine.execBootStage1 imgs cxl s
  | .bootStage2 die ready boot duset => Sys2Proof.Machine.execBootStage2 die ready boot duset s

end Sys2Proof.Machine
end

