-- ==== Sys2Proof/Machine/Schedule.lean ====
section
/-! DEFINITION. One step of one agent, and the order in which agents act where the agenda names none (R4, R14, R16, R253; log entry 1). -/

namespace Sys2Proof.Machine

/-! ### What an agent does -/

/-- The fabric cycle advances. -/
def State.nextCycle (s : State) : State := { s with sched := { s.sched with cycle := s.sched.cycle + 1 } }

/-- It is the issue cycle of a slot, which has not had it (R253). -/
def State.hasTurn (s : State) (c u sl : Nat) : Bool :=
  decide (u < 4) && decide (sl < 8) && s.slotCycle sl && (s.slot c u sl).turn != s.sched.cycle + 1

/-- A slot has its issue cycle still before it, with a context to issue (R120, R253). -/
def State.issuesNow (s : State) (c u sl : Nat) : Bool :=
  s.hasTurn c u sl && s.canIssue c && (s.slot c u sl).swap.isNone &&
    (match (s.slot c u sl).line.bind fun k => SMap.get? s.ctx.lines k with
     | some l => l.c.st.state == .running || l.c.st.state == .ready
     | none => false)

/-- The units of a cluster that stand before a unit in the rotation of a cycle (R147; log entry 63). -/
def rotationBefore (cycle u : Nat) : List Nat := ((List.range 4).map fun i => (cycle + i) % 4).takeWhile (· != u)

/-- Where the free entries of the cluster's SFU may not do for every unit, the units present their requests in the order of the
rotation (R147). -/
def State.inRotation (s : State) (c u sl : Nat) : Bool :=
  decide ((s.sfuOf c).queue.length + (s.sfuOf c).held.length + 4 ≤ Config.sfuEntries) ||
    (rotationBefore s.sched.cycle u).all fun v => !s.issuesNow c v sl

/-- A slot may have its issue cycle. -/
def State.mayIssue (s : State) (c u sl : Nat) : Bool := s.hasTurn c u sl && s.inRotation c u sl

/-- The issue cycle of a slot begins (R253). -/
def State.atSlot (s : State) (c u sl : Nat) : State :=
  { s.setSlot c u sl { s.slot c u sl with turn := s.sched.cycle + 1, seq := s.sched.seq } with
    sched := { s.sched with cur := some (c, u, sl), last := slotKey c u sl } }

/-- The word that the context at issue comes to is issued (R60, R127, R128). -/
def fetchAndRun (l : Line) (s : State) : Out :=
  match s.fetch l.c l.at_ with
  | .error _ => exec .fetchFault s
  | .ok w => exec (decodeWord w) s

/-- The word that a context comes to is within reach of its die: no link plane that its fetch needs is down (R120, R377). -/
def State.fetchReaches (s : State) (l : Line) : Bool :=
  match s.transBytes l.c.here l.c.asid l.c.level .fetch .exec l.at_.toNat 8 with
  | .ok (pas, _) => pas.all fun pa => match s.homeDie pa with
    | some d => s.reaches bulk l.c.dieNum d
    | none => true
  | .error _ => true

/-- A context whose word is not available waits with kind 7, its PC being the wait object (R120, R247). -/
def missed (key : Nat) (l : Line) (s : State) : Out := .next (s.setLine key (l.waits 7 (l.c.pc.setWidth 60) 0))

/-- A slot has its issue cycle: what stands at its context's boundary comes first, then the word at its PC; a slot without a context that
may issue is idle. DESIGN CHOICE (log entry 78): a context with remaining 0 and pending results first has R69's wait; the fetch (R128) comes when none
is pending. -/
def issueSlot (c u sl : Nat) (s : State) : Out :=
  if s.mayIssue c u sl then
    let s := s.atSlot c u sl
    match s.issuing with
    | none => .next s
    | some (key, l) =>
      match boundary s key l with
      | some t => .next t
      | none => if s.fetchReaches l then fetchAndRun l s else missed key l s
  else notNow "ISSUE"

/-- A slot has its issue cycle and the word at its context's PC is not available (R120). -/
def missSlot (c u sl : Nat) (s : State) : Out :=
  if s.mayIssue c u sl then
    let s := s.atSlot c u sl
    match s.issuing with
    | none => .next s
    | some (key, l) =>
      match boundary s key l with
      | some t => .next t
      | none => missed key l s
  else notNow "ISSUE"

/-- An instruction that is a step of the device: it has no word. -/
def deviceStep (i : Instr) : Bool := (encodeWord i).isNone && (encodeCommand i).isNone

/-! ### The off-cycle window (R63, R249) -/

/-- What a deposit or a long-latency result changes in a line (R63). -/
def Ctx.landedOn (old new : Ctx) : Bool :=
  old.g != new.g || old.p != new.p || old.st.full != new.st.full || old.st.pend != new.st.pend

/-- Whether a step of the device may make of a line in a slot what it would make of it: a deposit or a long-latency result, at most one in a cycle, a
message, and any other effect on a RUNNING context are applied in the slot's off-cycle window (R63, R249). DESIGN CHOICE (log entry 65): a context that
does not run wakes in any cycle. -/
def State.mayChange (s : State) (sl : Nat) (l l' : Line) : Bool :=
  if l.c.landedOn l'.c then s.offCycle sl && l.landed != s.sched.cycle + 1
  else s.offCycle sl || (l.c.inboxCount == l'.c.inboxCount && (l.c.st.state != .running || (l.c == l'.c && l.place == l'.place)))

/-- Whether every line that holds a slot may change as a step changes it. -/
def State.mayLand (s t : State) : Bool :=
  s.ctx.lines.all fun x => match x.2.place with
    | .slot _ _ sl => (match SMap.get? t.ctx.lines x.1 with
        | some l => s.mayChange sl x.2 l
        | none => x.2.c.st.state != .running || s.offCycle sl)
    | _ => true

/-- A context that does not run has changed in its slot in the issue cycle of the slot. -/
def State.changedInTurn (s t : State) (x : Nat × SlotRec) : Bool :=
  s.slotCycle (x.1 % 8) && (match x.2.line.bind fun key => (SMap.get? s.ctx.lines key).bind fun l => (SMap.get? t.ctx.lines key).map fun l' => (l, l') with
    | some (l, l') => l.place == .slot (x.1 / 32) (x.1 / 8 % 4) (x.1 % 8) && l'.place == l.place && l.c.st.state != .running && l.c != l'.c
    | none => false)

/-- The lines of slots that a step has applied a deposit or a result to hold that this cycle's is taken; a slot in whose issue cycle its context has changed
has had that cycle: the change is seen by the next. -/
def State.landings (s t : State) : State :=
  { t with ctx := { t.ctx with
      lines := t.ctx.lines.map fun x => (x.1, match SMap.get? s.ctx.lines x.1 with
        | some l => if (l.place matches .slot _ _ _) && l.c.landedOn x.2.c then { x.2 with landed := s.sched.cycle + 1 } else x.2
        | none => x.2)
      slots := t.ctx.slots.map fun x => (x.1, if s.changedInTurn t x then { x.2 with turn := s.sched.cycle + 1 } else x.2) } }

/-- A step of the device as far as the windows of the slots admit it; losses of dies and steps of the management plane are held back by nothing. -/
def inWindow (s : State) (x : Choice) (o : Out) : Out :=
  match o with
  | .next t => if unheld x ∨ s.mayLand t then .next (s.landings t) else notNow "WINDOW"
  | .fault f => .fault f
  | .refused r => .refused r

/-- The command at the head of a queue starts (R187). -/
def startHead (c q : Nat) (s : State) : Out :=
  match s.queue c q with
  | [] => notNow "START"
  | e :: _ =>
    match decodeCommand e.cmd with
    | none => notNow "START"
    | some i => exec i { s with sched := { s.sched with cmd := some (c, q) } }

/-- The k-th store on its way is performed (R293). -/
def drainStore (k : Nat) (s : State) : Out :=
  match nth? s.mem.stores k with
  | none => notNow "STORE"
  | some x => if s.canDrain x then .next ({ s with mem := { s.mem with stores := removeAt k s.mem.stores } }.performStore x) else notNow "STORE"

/-- The page sizes: 64 KiB, 2 MiB and 1 GiB (R21). -/
def pageSizes : List Nat := [2 ^ 16, 2 ^ 21, 2 ^ 30]

/-- A leaf translation that a page-table entry can hold (R21, R25, R26, R288). -/
def Page.ok (p : Page) : Bool :=
  pageSizes.contains p.size && decide (p.va + p.size ≤ 2 ^ 57) && decide (p.pa + p.size ≤ 2 ^ 52) && p.va % p.size == 0 &&
    p.pa % p.size == 0 && decide (p.home < Config.clusters)

/-- The translations of a range are replaced; the clusters named keep what they held until a TLBINV (R230, R288). -/
def State.remap (s : State) (asid : BitVec 12) (lo hi : Nat) (new : List Page) (keep : List Nat) : State :=
  let old := s.mem.pages.filter (meetsPage asid lo hi)
  { s with mem := { s.mem with
      pages := new ++ s.mem.pages.filter fun p => !meetsPage asid lo hi p
      stale := (keep.flatMap fun c => old.map fun p => (c, p)) ++ s.mem.stale } }

/-! ### What is due in a fabric cycle (R7, R253 to R263, R354) -/

/-- The slots whose issue cycle this is and whose contexts have not had it (R120, R253). -/
def State.issuesDue (s : State) : List Choice :=
  s.ctx.slots.filterMap fun x =>
    let (c, u, sl) := (x.1 / 32, x.1 / 8 % 4, x.1 % 8)
    if s.issuesNow c u sl && s.inRotation c u sl then some (.issue c u sl) else none

/-- The slots whose incoming line is loaded in this cycle (R254). -/
def State.loadsDue (s : State) : List Choice :=
  s.ctx.slots.filterMap fun x =>
    if x.2.coming.isSome && x.2.loadsAt s.sched.cycle then some (.event (.swapLoad (x.1 / 32) (x.1 / 8 % 4) (x.1 % 8))) else none

/-- The clusters whose slots may find something to claim. -/
def State.busyClusters (s : State) : List Nat :=
  let own := (s.ctx.run.map fun x => x.1 / 4) ++ s.ctx.rings.map (·.1)
  (own ++ own.flatMap fun c => (s.lowerNeighbour c).toList ++ (s.upperNeighbour c).toList).dedup

/-- A cluster has a line that a slot of it could claim, or roam for. -/
def State.hasWork (s : State) (c : Nat) : Bool :=
  ((s.entries c).any fun e => match SMap.get? s.ctx.lines e.line with
    | some l => s.claimable e.line l c
    | none => false) || (s.mayRoam c && (s.roamCandidate c).isSome)

/-- The slots that select in this cycle: those whose line has arrived, and those that find a line to claim (R254, R354). -/
def State.selectsDue (s : State) : List Choice :=
  let sl := s.sched.cycle % 8
  (s.ctx.slots.filterMap fun x =>
    let (c, u) := (x.1 / 32, x.1 / 8 % 4)
    if x.1 % 8 == sl && x.2.coming.isSome && s.maySelect c u sl && s.arrived c u sl then some (Choice.event (.slotSelect c u sl)) else none) ++
  (s.busyClusters.filter fun c => s.hasWork c).flatMap fun c =>
    ((List.range 4).filter fun u => s.maySelect c u sl && (s.slot c u sl).coming.isNone).map fun u => Choice.event (.slotSelect c u sl)

/-- The entries of run lists that move up (R353). -/
def State.agingDue (s : State) : List Choice :=
  s.ctx.run.flatMap fun x => (List.range x.2.length).filterMap fun k => match nth? x.2 k with
    | some e => if s.ripe (x.1 % 4) e then some (.event (.agingStep (x.1 / 4) (x.1 % 4) k)) else none
    | none => none

/-- The ends of time waits, the answers of waiting RGETs, the refills of token buckets, the deadlines of drains, and the tick (R9, R14, R122, R173,
R357, R388). -/
def State.timesDue (s : State) : List Choice :=
  (s.ctx.lines.filterMap fun x => if s.timeReached x.2 then some (Choice.event (.timeWaitExpire x.1)) else none) ++
  (s.rgetsDue.map fun k => Choice.event (.requestAtLineOwner k)) ++
  (s.rgetsLate.map fun k => Choice.event (.rgetTimeout k)) ++
  (s.refillsDue.map fun p => Choice.event (.tokenRefill (p / 64) (p % 64))) ++
  (((List.range 4).filter s.drainOver).map fun d => Choice.event (.dieDrainDeadline d)) ++
  (if s.sched.tickAt ≤ s.sched.cycle then [.event .timeBaseTick] else []) ++
  if s.mgmt.mayClear s.sched.cycle then [.alarmClears] else []

/-- The held entries of the SFUs whose 8 cycles are over (R147). -/
def State.holdsDue (s : State) : List Choice :=
  s.fl.sfu.flatMap fun q => (List.range q.2.held.length).filterMap fun k => match nth? q.2.held k with
    | some x => if heldAt s.sched.cycle x then none else some (.event (.sfuHoldExpire q.1 k))
    | none => none

/-- What must happen before the fabric cycle ends: the figures that R7 calls exact. -/
def State.due (s : State) : List Choice :=
  s.loadsDue ++ s.issuesDue ++ s.agingDue ++ s.selectsDue ++ s.holdsDue ++ s.timesDue

/-! ### What an agent does in its step -/

/-- A die copy of an SWC line is replaced by its slice (R289). -/
def replaceCopy (die line : Nat) (s : State) : Out :=
  if (SMap.get? s.mem.copies (copyKey die line)).isSome then .next (s.writeBack (copyKey die line) true) else notNow "COPY"

/-- An access of an engine or a fetch goes to the copy of an SWC line that a die would hold. -/
def State.copyWanted (s : State) (die line : Nat) : Bool :=
  s.homeDie (128 * line) != some die && s.traffic.any fun x => x.src / 64 == die && x.dst / 64 == die && x.lines.contains line

/-- A die's slice takes its copy of an SWC line, for an access that goes there (R289). -/
def takeCopy (die line : Nat) (s : State) : Out :=
  match s.copyOf die (128 * line) with
  | some k => if die < 4 ∧ !s.dieGone die ∧ s.copyWanted die line then .next (s.touchCopy k line) else notNow "COPY"
  | none => notNow "COPY"

/-- What an agent does in its step, but for the Armature between its ends. -/
def work (x : Choice) (s : State) : Out :=
  match x with
  | .issue c u sl => issueSlot c u sl s
  | .fetchMiss c u sl => missSlot c u sl s
  | .event i => if deviceStep i then inWindow s x (exec i s) else notNow "STEP"
  | .start c q => startHead c q s
  | .sliceArrive c k => sliceArrives c k s
  | .bagRead c k => inWindow s x (bagReads c k s)
  | .readRow c k i => runReads c k i s
  | .makeWrite c q k i => inWindow s x (runWrites c q k i s)
  | .launchGoOn k => inWindow s x (launchGoesOn k s)
  | .bankGoOn c => inWindow s x (bankGoesOn c s)
  | .inject id => injects id s
  | .arrive id => arrives id s
  | .drain k => drainStore k s
  | .replaceCopy die line => replaceCopy die line s
  | .takeCopy die line => takeCopy die line s
  | .mapPage p keep => if p.ok then .next (s.remap p.asid p.va (p.va + p.size) [p] keep) else notNow "PAGE"
  | .unmapPage asid va keep => .next (s.remap asid va (va + 1) [] keep)
  | .homeRange lo hi die =>
    if die < 4 ∧ lo % 128 = 0 ∧ hi % 128 = 0 ∧ !((List.range 4).any fun d => s.isReady d 0) then .next { s with mem := { s.mem with homes := (lo, hi, die) :: s.mem.homes } }
    else notNow "HOME"
  | .poison u => .next (s.poisonUnit u)
  | .poisonCopy key u => match SMap.get? s.mem.copies key with
    | some c => .next { s with mem := { s.mem with copies := SMap.set s.mem.copies key { c with bad := c.bad ||| (1#2 <<< (u % 2)) } } }
    | none => notNow "COPY"
  | .poisonTile key u =>
    let t := s.entry key
    if t.live then .next (s.setEntryAt key { t with bad := if t.bad.contains u then t.bad else t.bad ++ [u] }) else notNow "TILE"
  | .alarmClears => execPowerAlarmClear s.mgmt.power s
  | .powerReading w => powerReads w s
  | .hostWrite pa w => hostWrites pa w s
  | .idle => if s.due.isEmpty then .next s.nextCycle else notNow "CYCLE"

/-- A step with traffic in the Armature. -/
def crosses (x : Choice) : Bool :=
  match x with
  | .event i => deviceStep i
  | .start _ _ => true
  | .sliceArrive _ _ => true
  | .bagRead _ _ => true
  | .readRow _ _ _ => true
  | .makeWrite _ _ _ _ => true
  | .drain _ => true
  | .replaceCopy _ _ => true
  | .takeCopy _ _ => true
  | _ => false

/-- What an agent does in its step. -/
def act (x : Choice) (s : State) : Out := if crosses x then overFabric s x (work x s) else work x s

/-! ### The order where the agenda names none -/

/-- Operations in flight that may come to an end. -/
def State.flightSteps (s : State) : List Choice :=
  let upTo := fun (n : Nat) (f : Nat → List Instr) => ((List.range n).flatMap f).map Choice.event
  upTo s.fl.pend.length (fun k => [.lineWrite k, .poisonedData k, .deferredFault k, .loadRemoteHome k]) ++
  (List.range s.mem.stores.length).map .drain ++
  (s.fl.sfu.flatMap fun q => [.event (.sfuComplete q.1)]) ++
  upTo s.fl.divs.length (fun k => [.divideComplete k]) ++ upTo s.fl.reds.length (fun k => [.reducerPop k]) ++
  upTo s.fl.orders.length (fun k => [.orderingComplete k]) ++ upTo s.fl.ranges.length (fun k => [.rangeOperationEnd k]) ++
  upTo s.fl.owners.length (fun k => [.requestAtLineOwner k, .rgetTimeout k]) ++
  upTo s.fl.banks.length (fun k => [.groupRequestAtBank k, .stepClose k]) ++
  upTo s.fl.handles.length (fun k => [.handleTableRequest k 0]) ++ upTo s.fl.spawns.length (fun k => [.spawnRequest k]) ++
  (List.range s.fl.launches.length).map .launchGoOn

/-- Requests of the send buffers. -/
def State.sendSteps (s : State) : List Choice :=
  (s.fl.sends.flatMap fun b => (List.range b.2.length).flatMap fun k =>
    [Instr.messageDelivery b.1 k, .depositDelivery b.1 k, .eventAccept b.1 k, .commandAccept b.1 k, .sendRetry b.1 k, .postRetry b.1 k]).map .event

/-- Requests that go on their way, and what holds them, or the other traffic of steps that could be taken, back and wakes. -/
def State.fabricSteps (s : State) (l : List Choice) : List Choice :=
  let waiting := l.flatMap fun x => match work x s with
    | .next t => s.crossings x ++ s.carried t x
    | _ => []
  (s.requests.map fun r => if (s.flit r).isSome then Choice.arrive r.id else .inject r.id) ++
  ((s.sleepers waiting).map fun sw => .event (.switchWake sw)) ++
  (s.sleepingPlanes waiting).map fun b => .event (.bulkLaneWake ((2 * b + bulk) * 2 ^ 16))

/-- The ends of drains. -/
def drainSteps : List Choice :=
  (List.range 4).flatMap fun d => [Choice.event (.dieDrainEnd d), .event (.dieDrainDeadline d)]

/-- Whether an agent can act. -/
def enabled (s : State) (x : Choice) : Bool :=
  match act x s with
  | .next _ => true
  | .fault _ => false
  | .refused _ => false

/-- The first step of the device that is due. -/
def State.dueStep (s : State) : Option Choice :=
  let units := s.engineSteps ++ s.scheduleSteps
  let own := s.flightSteps ++ s.sendSteps ++ units
  (own ++ s.fabricSteps own ++ drainSteps).find? (enabled s)

/-- A slot holds a context that goes on issuing. -/
def State.anyIssuing (s : State) : Bool :=
  s.ctx.slots.any fun x => match x.2.line.bind fun k => SMap.get? s.ctx.lines k with
    | some l => (l.c.st.state == .running || l.c.st.state == .ready) && s.canIssue (x.1 / 32)
    | none => false

/-- Who acts next when the agenda names no one: what is due in the fabric cycle first, then the device in two cycles of each two turns,
in which every slot has its window, or in every cycle while no context issues; then the cycle ends. -/
def State.automatic (s : State) : Choice :=
  match s.due with
  | x :: _ => x
  | [] =>
    if s.sched.cycle % 16 = 11 ∨ s.sched.cycle % 16 = 15 ∨ !s.anyIssuing then s.dueStep.getD .idle else .idle

end Sys2Proof.Machine
end

