-- ==== Sys2Proof/Machine/Step.lean ====
section
/-! DEFINITION. One step of the machine, and a state that fetches a given instruction next. -/

namespace Sys2Proof.Machine

/-- One step: the agent that the agenda names acts, or the one whose turn the automatic order gives. -/
def step (s : State) : Host.Outcome State Fault Refusal :=
  if (List.range 4).any fun d => (s.die d).present then
    match s.sched.agenda with
    | [] => act s.automatic s
    | x :: l => act x { s with sched := { s.sched with agenda := l } }
  else .fault .noMachine

/-- The page of the placed word: the first 64 KiB of ASID 0's virtual and of physical addresses. -/
def placedPage : Page :=
  { asid := 0, va := 0, size := 0x10000, pa := 0, attr := .coh, home := 0, r := true, w := true, x := true, sw := true }

/-- The physical line number of the placed context. -/
def placedKey : Nat := 0x2000 / 128

/-- The context that fetches the placed word: RUNNING at machine privilege in slot 0 of issue unit 0 of cluster 0. -/
def placedLine : Line :=
  Line.fresh { Ctx.zero with
    pc := 0x1000, gen := 1, launch := 0xFFF, inboxBase := 0
    st := { Status.zero with state := .running, valid := true, priv := 3, dies := 1 } } 0x40 (.slot 0 0 0)

/-- The state whose next step runs the instruction with these bits (log entry 3): a word stands at the PC of a running context of D0; a
command word stands at the head of its queue in cluster 0. -/
def State.withFetchWord (s : State) (nbits w : Nat) : State :=
  let s := { s with
    fab := { s.fab with dies := Vector.ofFn fun d =>
      if d.val = 0 then { present := true, lost := false, drain := none, linkLost := false } else s.fab.dies[d] }
    mgmt := { s.mgmt with ready := s.mgmt.ready ||| 0x7F, mapped := s.mgmt.mapped.filter (· != 0) } }
  if nbits ≤ 64 then
    { s with
      sched := { s.sched with agenda := [.issue 0 0 0], cycle := (s.sched.cycle + 7) / 8 * 8 }
      asids := SMap.set s.asids 0 { s.asidRegs 0 with profile := 0xF }
      mem := { s.mem with
        pages := placedPage :: s.mem.pages
        stale := s.mem.stale.filter fun x => x.1 != 0
        bytes := ((List.range 8).zip (leBytes 8 (w % 2 ^ 64))).foldl (fun m x => memSet m (0x1000 + x.1) x.2) s.mem.bytes }
      ctx := { s.ctx with
        lines := SMap.set (SMap.erase s.ctx.lines 32) placedKey placedLine
        slots := SMap.set s.ctx.slots 0 { SlotRec.empty with line := some placedKey } } }
  else
    let cmd := BitVec.ofNat 256 w
    let q := queueOfCop (copOf cmd)
    let e : QEntry := { id := s.sched.seq, seq := 0, cmd := cmd, asid := 0, poster := none, slot := 0xFFF, tag := none, cancelled := false }
    { s with
      sched := { s.sched with agenda := [.start 0 q] }
      eng := { s.eng with queues := SMap.set s.eng.queues q [e], running := SMap.erase s.eng.running q } }

end Sys2Proof.Machine
end

