-- ==== Sys2Proof/Safety.lean ====
section
/-! DEFINITION. What counts as a safe outcome and a sound state, when an instruction word issues and when a command starts, and what a step
leaves as it was, in the terms that claims use. -/

namespace Sys2Proof.Machine

/-- An outcome in which the machine goes on. -/
def goesOn (o : Out) : Prop := ∃ t, o = .next t

/-- A die that a harvested package lacks is lost from the outset (R385). -/
def State.absentLost (s : State) : Bool := (List.finRange 4).all fun d => s.fab.dies[d].present || s.fab.dies[d].lost

/-- A sound state: memory in its one form, and absent dies lost. -/
def State.sound (s : State) : Prop := Memory.wf s.mem.bytes = true ∧ s.absentLost = true

/-- A word of head h issues in state s, in the context of line l, and has its effect. -/
structure Issues (h : Head) (s : State) (key : Nat) (l : Line) : Prop where
  /-- The context of line `l` has its issue cycle (R250, R253). -/
  atIssue : s.issuing = some (key, l)
  /-- No die that it has touched has been fenced while it was in no slot (R387). -/
  unlost : l.lost &&& l.c.st.dies = 0
  /-- What its parent did before its SPAWN is performed (R174). -/
  parent : s.parentBusy l.after = false
  /-- It is not leaving its cluster (R151, R176). -/
  stays : l.goTo = none
  /-- No fault of an earlier access waits for it (R152). -/
  noFault : l.fault = none
  /-- No CANCEL has reached it before this cycle (R63, R234). -/
  kept : l.cancelled = true → l.marked = s.sched.cycle + 1
  /-- No reduction of its own is stopped or restarted (R172). -/
  whole : l.c.st.qkind = 0
  /-- None is running again. -/
  redone : l.redo = false
  /-- Its wait word holds no replay marker (R153). -/
  unmarked : l.c.marker = false
  /-- A window that has closed has left nothing pending (R69). -/
  closed : l.reissue = none → l.c.st.larem = 0 → l.c.st.pend = 0
  /-- The word is a legal encoding, of a profile that the ASID has (R60, R97). -/
  encoded : h.bad = none
  profile : (s.asidRegs l.c.asid).has h.profile = true
  /-- The context may execute it (R60, R222). -/
  level : h.level ≤ l.c.level
  /-- In a window it names no pending register (R60, R68). -/
  window : l.c.st.larem ≠ 0 → h.namesNow l &&& l.c.st.pend = 0
  /-- A lane is active (R126). -/
  active : l.c.anyActive h = true
  /-- What it takes is full (R62). -/
  full : l.c.st.full &&& h.takesNow l = h.takesNow l

/-- The line of the context past the instruction: the PC after it, the taken full bits clear, the window moved on (R62, R65, R66). -/
def State.past (s : State) (h : Head) (l : Line) : Line := l.advance h (h.takesNow l) s.sched.seq

/-- The state after a word whose whole effect is on its own context's line. -/
def State.after (s : State) (h : Head) (key : Nat) (l : Line) (f : Line → Line) : State := s.nextSeq.setLine key (f (s.past h l))

/-- A change of a line's registers. -/
def Line.onCtx (f : Ctx → Ctx) (l : Line) : Line := { l with c := f l.c }

/-- Every byte of memory that is not of the given line reads as before. -/
def sameMemoryBut (key : Nat) (s t : State) : Prop := ∀ a, a / 128 ≠ key → t.readByte a = s.readByte a

/-- Every line but one is as before. -/
def sameLinesBut (key : Nat) (s t : State) : Prop := ∀ k, k ≠ key → SMap.get? t.ctx.lines k = SMap.get? s.ctx.lines k

/-- What is no context's line is as before, but for the number of the next operation and the lists named by the statement. -/
def sameElse (s t : State) : Prop :=
  t.mem = s.mem ∧ t.fl = s.fl ∧ t.eng = s.eng ∧ t.groups = s.groups ∧ t.chains = s.chains ∧ t.launch = s.launch ∧ t.asids = s.asids ∧ t.fab = s.fab ∧
  t.mgmt = s.mgmt ∧ t.time = s.time ∧ t.ctx.slots = s.ctx.slots ∧ t.ctx.run = s.ctx.run ∧ t.ctx.resid = s.ctx.resid ∧
  t.ctx.limits = s.ctx.limits ∧ t.ctx.spawnWait = s.ctx.spawnWait ∧ t.ctx.heldAppends = s.ctx.heldAppends ∧ t.ctx.rings = s.ctx.rings

/-- From s to t only one line has changed, which is now `l`: every other line, every byte of memory outside its 128 bytes and everything
else that the machine holds is as before. -/
structure OnlyLine (s t : State) (key : Nat) (l : Line) : Prop where
  line : SMap.get? t.ctx.lines key = some l
  others : sameLinesBut key s t
  memory : sameMemoryBut key s t
  rest : sameElse s t
  /-- The instruction has taken its number. -/
  order : t.sched = { s.sched with seq := s.sched.seq + 1 }

/-- Instruction i completes in state s: the context's line, past the instruction, is changed by f, and nothing else is changed. -/
def Completes (i : Instr) (s : State) (h : Head) (key : Nat) (l : Line) (f : Line → Line) : Prop :=
  ∃ t, exec i s = .next t ∧ OnlyLine s t key (f (s.past h l))

end Sys2Proof.Machine
end

