-- ==== Sys2Proof/Certificates/Slice0/Obligations.lean ====
section
/-! DEFINITION. What is claimed of the CZ-4 model. A statement about the result of an instruction is stated for every state in which the
instruction issues (`Issues`, in Safety.lean) and says, as its conclusion, that `exec` answers a next state and what that state holds. -/

open Sys2Proof Sys2Proof.Machine

/-- A slot whose issue cycle it is runs the word at its context's PC: the eight bytes there, translated for execution, good and reachable,
decode to an instruction, and the step is `exec` of it after the slot and the fabric cycle have been noted (R53, R54, R127, R250, R253). The
slot is the one that the agenda names, or the one whose turn it is. The head of an engine queue, and a step of the device, likewise run
through `exec`, as far as the Armature lets their traffic pass (R377 to R384); a step of the device is also admitted by the off-cycle windows of the
slots whose lines it changes (R63, R249). The order of the agents that the agenda gives is the model's (log entry 1). -/
def Obligations.StepRunsDecodedInstruction : Prop :=
  ∀ (s : State) (x : Choice) (r : State), ((List.range 4).any fun d => (s.die d).present) = true →
    (s.sched.agenda = [] ∧ x = s.automatic ∧ r = s ∨ ∃ l, s.sched.agenda = x :: l ∧ r = { s with sched := { s.sched with agenda := l } }) →
    (∀ (c u sl key : Nat) (l : Line) (pas : List Nat) (swc : List Bool) (i : Instr), x = .issue c u sl → r.mayIssue c u sl = true →
      (r.atSlot c u sl).issuing = some (key, l) → boundary (r.atSlot c u sl) key l = none →
      (r.atSlot c u sl).transBytes l.c.here l.c.asid l.c.level .fetch .exec l.at_.toNat 8 = .ok (pas, swc) →
      (r.atSlot c u sl).fetchReaches l = true → (r.atSlot c u sl).poisonedAt l.c.dieNum swc pas = false →
      (∀ a ∈ pas, (r.atSlot c u sl).homeGone a = false) →
      decodeWord (BitVec.ofNat 64 (leNat ((r.atSlot c u sl).seenBytes l.c.dieNum swc pas))) = i →
      step s = exec i (r.atSlot c u sl)) ∧
    (∀ (c q : Nat) (e : QEntry) (l : List QEntry) (i : Instr), x = .start c q → r.queue c q = e :: l → decodeCommand e.cmd = some i →
      step s = overFabric r x (exec i { r with sched := { r.sched with cmd := some (c, q) } }) ∧
      (∀ t, exec i { r with sched := { r.sched with cmd := some (c, q) } } = .next t → r.crossings x = [] → r.carried t x = [] →
        step s = .next t.tidy)) ∧
    (∀ i : Instr, x = .event i → encodeWord i = none → encodeCommand i = none →
      step s = overFabric r x (inWindow r x (exec i r)) ∧
      (∀ t, exec i r = .next t → r.ctx.lines = [] → r.mergePair x = none → r.requestOf x = none → r.crossings x = [] →
        r.carried (r.landings t) x = [] → step s = .next (r.landings t).tidy))

/-- Words that the spec encodes by hand, and two engine command words put together from the field map of R78, decode to the instructions
that they stand for. -/
def Obligations.SpecWordsDecode : Prop :=
  decodeWord 0x3030_000B_1A00_0000 = .add ⟨0x30, 1, 4, 0⟩ 3 ⟨1, false⟩ ⟨2, true⟩ ∧
  decodeWord 0xF040_0300_2400_4000 = .vadd ⟨0xF0, 2, 0, 0⟩ .wrap .i16 0 ⟨2, false⟩ ⟨4, false⟩ ∧
  decodeWord 0xFF00_1584_1030_0000 = .ld ⟨0xFF, 0, 0, 0⟩ 2 .u64 4 ⟨1, false⟩ 0 ∧
  decodeWord 0xFF00_00FD_1202_0000 = .sel ⟨0xFF, 0, 0, 0⟩ 2 5 ⟨1, false⟩ ⟨2, false⟩ ∧
  decodeWord 0xFF00_0224_0574_0000 = .pset ⟨0xFF, 0, 0, 0⟩ 4 0 1 2 0xE8 ∧
  decodeWord 0xF0A0_0236_6000_0000 = .pcnt ⟨0xF0, 5, 0, 0⟩ 6 3 ∧
  decodeWord 0xFF00_0200_8990_0000 = .cmp ⟨0xFF, 0, 0, 0⟩ 0 .and .lt ⟨1, false⟩ ⟨3, false⟩ ∧
  decodeWord 0xFF00_029F_B000_0000 = .jrl ⟨0xFF, 0, 0, 0⟩ 7 ⟨3, true⟩ ∧
  decodeWord 0xFF00_02A4_FFFF_FFFC = .loop ⟨0xFF, 0, 0, 0⟩ 4 (-4) ∧
  decodeWord 0xFF00_02A8_3002_0000 = .waitTime ⟨0xFF, 0, 0, 0⟩ ⟨3, false⟩ ∧
  decodeWord 0xFF00_02B8_0000_0001 = .illegalOpcode 0xFF00_02B8_0000_0001 3 ∧
  decodeCommand (0x06#8 ++ (0 : BitVec 168) ++ (0 : BitVec 80)) = some (.tfill { rel := false, qbar := false, ckind := 0, csc := 0, bit240 := false, ctgt := 0, ha := 0, hb := 0, hc := 0, ops := 0 }) ∧
  decodeCommand (0x20#8 ++ 1#1 ++ 0#1 ++ 1#2 ++ 2#3 ++ 0#1 ++ 0x000C_0004_0000_0803#64 ++ 0x11#32 ++ 0x22#32 ++ 0x33#32 ++ 0x44#80) =
    some (.mma { rel := true, qbar := false, ckind := 1, csc := 2, bit240 := false, ctgt := 0x000C_0004_0000_0803, ha := 0x11, hb := 0x22, hc := 0x33, ops := 0x44 })

/-- Decoding gives every well-formed instruction word, and every well-formed engine command, back from its encoding: no bit of a field is
dropped or read from another place (R53, R55, R78). -/
def Obligations.DecodeOfEncode : Prop :=
  ∀ i : Instr, wellFormed i = true →
    (∀ w, encodeWord i = some w → decodeWord w = i) ∧ (∀ w, encodeCommand i = some w → decodeCommand w = some i)

/-- A word is an instruction only if it is that instruction's own encoding; every other word decodes to the instruction that traps, and
carries the word (R60, R71). -/
def Obligations.EncodeOfDecode : Prop :=
  ∀ w : Word, (∃ c, decodeWord w = .illegalOpcode w c) ∨ (wellFormed (decodeWord w) = true ∧ encodeWord (decodeWord w) = some w)

/-- The profile that owns a major opcode (R97). -/
def profileOfOpcode (opc : Nat) : Profile :=
  if 0x60 ≤ opc ∧ opc ≤ 0x8F ∨ 0xA0 ≤ opc ∧ opc ≤ 0xAF then .v1 else if 0xE8 ≤ opc ∧ opc ≤ 0xEF then .e1 else if 0xE0 ≤ opc ∧ opc ≤ 0xE7 then .n1
  else .base

/-- The latency class of a major opcode (R64, R70). -/
def classOfOpcode (opc : Nat) : Latency :=
  if opc ∈ [0x94, 0x95, 0xB0, 0xB2, 0xB4, 0xB8, 0xD3, 0xD4, 0xE8] ∨ 0xA0 ≤ opc ∧ opc ≤ 0xA6 then .long
  else if opc ∈ [0x55, 0x56, 0xB6, 0xB9, 0xBB, 0xBC, 0xBD, 0xD0, 0xD1, 0xD2, 0xD5, 0xD6, 0xD7, 0xF0, 0xF1, 0xF6, 0xF7, 0xF9, 0xFA, 0xFB, 0xFC] ∨
      0xE2 ≤ opc ∧ opc ≤ 0xE6 ∨ 0xE9 ≤ opc ∧ opc ≤ 0xEC then .wait
  else .short

/-- The control register that a word names is one of R226, and one that its form may write; every other word has none to name. -/
def namesCsr (i : Instr) : Prop :=
  match i with
  | .csrr _ _ n => (csrOf n).isSome = true
  | .csrw _ _ _ n => ((csrOf n).bind CsrName.writeLevel).isSome = true
  | .csrs _ _ _ n => ((csrOf n).bind CsrName.writeLevel).isSome = true
  | .csrc _ _ _ n => ((csrOf n).bind CsrName.writeLevel).isSome = true
  | _ => True

/-- The meaning of every instruction word is the issue of a head and an effect, whatever the state: the head carries the word itself, its
guard, its lookahead count, its opcode's latency class and profile, and is no illegal encoding unless it names a control register that does
not exist (R53, R60, R64, R70, R97, R225). What the other statements say of `issue`
therefore holds of every word. -/
def Obligations.EveryWordIssues : Prop :=
  ∀ (i : Instr) (w : Word), encodeWord i = some w → (∀ v c, i ≠ .illegalOpcode v c) →
    ∃ h : Head, (∀ s, ∃ f, exec i s = issue h s f) ∧ h.word = w ∧ h.g = guardAt w ∧ h.la = laAt w ∧
      h.cls = classOfOpcode (opcAt w).toNat ∧ h.profile = profileOfOpcode (opcAt w).toNat ∧ (namesCsr i → h.bad = none)

/-! ### The issue of a word (R53 to R69, R126) -/

/-- The context that has issued a word stands past it: the PC is 8 further (or, at a word that a replay marker names, where it was), no
register and no predicate has changed, the full bits of the registers that the word takes are clear and no other full bit is (R54, R62,
R153). The rest of its status, its identity and its inbox are as before. -/
def issueAdvancesContext : Prop :=
  ∀ (h : Head) (s : State) (key : Nat) (l : Line), Issues h s key l →
    let c := (s.past h l).c
    (l.reissue = none → c.pc = l.c.pc + 8) ∧ (l.reissue ≠ none → c.pc = l.c.pc) ∧ (s.past h l).reissue = none ∧
    (∀ r, c.reg r = l.c.reg r) ∧ (∀ r, c.pred r = l.c.pred r) ∧
    (∀ r < 8, c.st.full.getLsbD r = (l.c.st.full.getLsbD r && !(l.reissue.isNone && h.takes.getLsbD r))) ∧
    c.waitKind = 0 ∧ c.waitObj = 0 ∧ c.st = { l.c.st with full := c.st.full, larem := c.st.larem } ∧
    c.gen = l.c.gen ∧ c.asid = l.c.asid ∧ c.launch = l.c.launch ∧ c.inboxWord = l.c.inboxWord ∧
    (l.onIssue = none → c.floor = l.c.floor)

/-- What the word of head h leaves of the m words that remain of its context's window: class L outside an open window opens one of LA words,
inside one it narrows it to the smaller of what remains after itself and LA, and each other word takes one off what remains. -/
def CountsWord (h : Head) (l : Line) (n : Nat) : Prop :=
  let m := l.c.st.larem.toNat
  (h.cls = .long → l.reissue = none → m = 0 → n = h.la.toNat) ∧
  (h.cls = .long → l.reissue = none → m ≠ 0 → n = min (m - 1) h.la.toNat) ∧
  (h.cls ≠ .long → n = m - 1)

/-- Lookahead (R65, R66, R67): a class L word outside an open window opens one of LA words, inside one it narrows it to the smaller of what
remains after itself and LA, and every other word takes one off what remains. A suppressed word counts in the same way, and sets no pending
bit. -/
def windowCountsWords : Prop :=
  ∀ (h : Head) (s : State) (key : Nat) (l : Line),
    (Issues h s key l → CountsWord h l (s.past h l).c.st.larem.toNat) ∧
    (∀ f, s.issuing = some (key, l) → boundary s key l = none → checks h (s.asidRegs l.c.asid) l = none → l.c.anyActive h = false →
      ∃ t l', issue h s f = .next t ∧ SMap.get? t.ctx.lines key = some l' ∧ l'.c.st.pend = l.c.st.pend ∧
        CountsWord h l l'.c.st.larem.toNat)

/-- The three checks of R60 are made in their order before the guard is looked at: an illegal encoding or an opcode outside the ASID's
profiles traps with code 0x01, a missing privilege with 0x02, and a word that names a pending register in an open window with 0x03 (R60,
R68, R97, R222). Each is a precise trap, taken as TrapTaken says. That a word which is illegal and of a profile outside the mask as well reports the
condition of R71 is the model's choice (log entry 76). -/
def checksInOrder : Prop :=
  ∀ (h : Head) (s : State) (key : Nat) (l : Line) (f : State → Nat → Line → Line → Out),
    s.issuing = some (key, l) → boundary s key l = none →
    (∀ d, h.bad = some d → issue h s f = .next (issueTrap s key l h.word 0x01 d 0)) ∧
    (h.bad = none → (s.asidRegs l.c.asid).has h.profile = false → issue h s f = .next (issueTrap s key l h.word 0x01 7 0)) ∧
    (h.bad = none → (s.asidRegs l.c.asid).has h.profile = true → l.c.level < h.level →
      issue h s f = .next (issueTrap s key l h.word 0x02 0 0)) ∧
    (h.bad = none → (s.asidRegs l.c.asid).has h.profile = true → h.level ≤ l.c.level → l.c.st.larem ≠ 0 →
      h.namesNow l &&& l.c.st.pend ≠ 0 → issue h s f = .next (issueTrap s key l h.word 0x03 0 0))

/-- A word that takes a register which is empty does not issue: the context waits with kind 1, its wait object the lowest such register, its
PC, registers and full bits unchanged, and nothing else changes (R62). -/
def emptyTakeWaits : Prop :=
  ∀ (h : Head) (s : State) (key : Nat) (l : Line) (f : State → Nat → Line → Line → Out) (r : Nat),
    s.issuing = some (key, l) → boundary s key l = none → checks h (s.asidRegs l.c.asid) l = none → l.c.anyActive h = true →
    r < 8 → (h.takesNow l).getLsbD r = true → l.c.st.full.getLsbD r = false →
    (∀ q < r, (h.takesNow l).getLsbD q = true → l.c.st.full.getLsbD q = true) →
    ∃ t l', issue h s f = .next t ∧ SMap.get? t.ctx.lines key = some l' ∧ l'.c.st = { l.c.st with state := .waiting } ∧
      l'.c.waitKind = 1 ∧ l'.c.waitObj = BitVec.ofNat 60 r ∧ l'.c.pc = l.c.pc ∧ l'.c.g = l.c.g ∧ l'.c.p = l.c.p ∧
      sameLinesBut key s t ∧ sameMemoryBut key s t ∧ sameElse s t

/-- A word of which no lane is active, whichever it is, changes nothing but its context's PC, by 8, and its place in an open window (R126):
no register, predicate, full or pending bit, no other line, no byte of memory outside the line, no request in flight. A context of machine
privilege with every profile meets its three checks outside a window. -/
def Obligations.SuppressedWordOnlyAdvances : Prop :=
  ∀ (i : Instr) (w : Word) (s : State) (key : Nat) (l : Line), encodeWord i = some w → wellFormed i = true →
    namesCsr i →
    s.issuing = some (key, l) → boundary s key l = none → l.c.level = 3 → (s.asidRegs l.c.asid).profile = 15 →
    l.c.st.larem = 0 → (∀ k, l.c.active (guardAt w) k = false) →
    ∃ t l', exec i s = .next t ∧ OnlyLine s t key l' ∧ l'.c.g = l.c.g ∧ l'.c.p = l.c.p ∧ (l.reissue = none → l'.c.pc = l.c.pc + 8) ∧
      l'.c.st = { l.c.st with larem := l'.c.st.larem } ∧ (laAt w = 0 → l'.c.st.larem = 0) ∧ l'.c.inboxWord = l.c.inboxWord

/-! ### Integer and predicate instructions (R98 to R114) -/

/-- The head of a scalar instruction of one source. -/
def head1 (i : Instr) (g : Guard) (d : Reg) (a : Src) : Head := headOf i g (names2 d a) a.takeMask
/-- The head of a scalar instruction of two sources. -/
def head2 (i : Instr) (g : Guard) (d : Reg) (a b : Src) : Head := headOf i g (names3 d a b) (takes2 a b)

/-- The whole effect of the word of head h is that gd takes the value v. -/
def Writes (i : Instr) (s : State) (h : Head) (key : Nat) (l : Line) (d : Reg) (v : Word) : Prop :=
  Issues h s key l → Completes i s h key l (Line.onCtx fun c => c.setReg d v)

/-- R99. -/
def integerArithmetic : Prop :=
  ∀ (g : Guard) (d : Reg) (a b : Src) (s : State) (key : Nat) (l : Line),
    let x := l.c.src a
    let y := l.c.src b
    (∀ r ∈ [(Instr.add g d a b, x + y), (.sub g d a b, x - y), (.and g d a b, x &&& y), (.or g d a b, x ||| y), (.xor g d a b, x ^^^ y),
        (.andn g d a b, x &&& ~~~y), (.min g d a b, if x.toInt ≤ y.toInt then x else y), (.max g d a b, if x.toInt ≥ y.toInt then x else y),
        (.minu g d a b, if x.toNat ≤ y.toNat then x else y), (.maxu g d a b, if x.toNat ≥ y.toNat then x else y)],
      Writes r.1 s (head2 r.1 g d a b) key l d r.2) ∧
    Writes (.abs g d a) s (head1 (.abs g d a) g d a) key l d (BitVec.ofInt 64 (Int.natAbs x.toInt))

/-- R100: no division traps, a quotient rounds toward zero, a remainder takes the sign of the dividend. -/
def multiplyDivide : Prop :=
  ∀ (g : Guard) (d : Reg) (a b : Src) (s : State) (key : Nat) (l : Line),
    let x := l.c.src a
    let y := l.c.src b
    ∀ r ∈ [(Instr.mul g d a b, BitVec.ofNat 64 (x.toNat * y.toNat)), (.mulh g d a b, BitVec.ofInt 64 (x.toInt * y.toInt / 2 ^ 64)),
        (.mulhu g d a b, BitVec.ofNat 64 (x.toNat * y.toNat / 2 ^ 64)),
        (.div g d a b, if y = 0 then BitVec.allOnes 64 else BitVec.ofInt 64 (x.toInt.tdiv y.toInt)),
        (.divu g d a b, if y = 0 then BitVec.allOnes 64 else BitVec.ofNat 64 (x.toNat / y.toNat)),
        (.rem g d a b, if y = 0 then x else BitVec.ofInt 64 (x.toInt - y.toInt * x.toInt.tdiv y.toInt)),
        (.remu g d a b, if y = 0 then x else BitVec.ofNat 64 (x.toNat - y.toNat * (x.toNat / y.toNat)))],
      Writes r.1 s (head2 r.1 g d a b) key l d r.2

/-- R101 and the immediate forms of R105: the amount is the low six bits. -/
def shiftsAndImmediates : Prop :=
  ∀ (g : Guard) (d : Reg) (a b : Src) (imm : BitVec 28) (m : BitVec 6) (s : State) (key : Nat) (l : Line),
    let x := l.c.src a
    let n := (l.c.src b).toNat % 64
    (∀ r ∈ [(Instr.shl g d a b, BitVec.ofNat 64 (x.toNat * 2 ^ n)), (.shr g d a b, BitVec.ofNat 64 (x.toNat / 2 ^ n)),
        (.sar g d a b, BitVec.ofInt 64 (x.toInt / 2 ^ n)), (.rot g d a b, (x <<< n) ||| (x >>> (64 - n)))],
      Writes r.1 s (head2 r.1 g d a b) key l d r.2) ∧
    (∀ r ∈ [(Instr.addi g d a imm, BitVec.ofInt 64 (x.toInt + imm.toInt)), (.andi g d a imm, x &&& BitVec.ofInt 64 imm.toInt),
        (.ori g d a imm, x ||| BitVec.ofInt 64 imm.toInt), (.xori g d a imm, x ^^^ BitVec.ofInt 64 imm.toInt),
        (.shli g d a m, BitVec.ofNat 64 (x.toNat * 2 ^ m.toNat)), (.shri g d a m, BitVec.ofNat 64 (x.toNat / 2 ^ m.toNat)),
        (.sari g d a m, BitVec.ofInt 64 (x.toInt / 2 ^ m.toNat))],
      Writes r.1 s (head1 r.1 g d a) key l d r.2)

/-- R102: each count, by the bits that it counts; and the two extensions. -/
def bitCounts : Prop :=
  ∀ (g : Guard) (d : Reg) (a : Src) (w : ExtWidth) (s : State) (key : Nat) (l : Line),
    let x := l.c.src a
    let n := match w with
      | .i8 => 8
      | .i16 => 16
      | .i32 => 32
    (∃ v ≤ 64, Writes (.clz g d a) s (head1 (.clz g d a) g d a) key l d (BitVec.ofNat 64 v) ∧
      (∀ k, 64 - v ≤ k → x.getLsbD k = false) ∧ (v < 64 → x.getLsbD (63 - v) = true)) ∧
    (∃ v ≤ 64, Writes (.ctz g d a) s (head1 (.ctz g d a) g d a) key l d (BitVec.ofNat 64 v) ∧
      (∀ k < v, x.getLsbD k = false) ∧ (v < 64 → x.getLsbD v = true)) ∧
    Writes (.popc g d a) s (head1 (.popc g d a) g d a) key l d
      (BitVec.ofNat 64 ((List.range 64).filter fun k => x.getLsbD k).length) ∧
    Writes (.sext g w d a) s (head1 (.sext g w d a) g d a) key l d (BitVec.ofInt 64 ((x.toNat : Int).bmod (2 ^ n))) ∧
    Writes (.zext g w d a) s (head1 (.zext g w d a) g d a) key l d (BitVec.ofNat 64 (x.toNat % 2 ^ n))

/-- R103, bit by bit: the field of `wid` bits at `pos`, clipped at bit 63, is read or replaced; BEXT fills with zeros and BINS keeps gc. -/
def bitFields : Prop :=
  ∀ (g : Guard) (d : Reg) (a b cc : Src) (s : State) (key : Nat) (l : Line),
    let x := l.c.src a
    let z := l.c.src cc
    let pos := (l.c.src b).toNat % 64
    let wid := min (min ((l.c.src b).toNat / 2 ^ 8 % 2 ^ 7) 64) (64 - pos)
    (∃ v, Writes (.bext g d a b) s (head2 (.bext g d a b) g d a b) key l d v ∧
      ∀ k < 64, v.getLsbD k = (decide (k < wid) && x.getLsbD (pos + k))) ∧
    (∃ v, Writes (.bins g d a b cc) s (headOf (.bins g d a b cc) g (names3 d a b ||| cc.nameMask) (takes2 a b ||| cc.takeMask)) key l d v ∧
      ∀ k < 64, v.getLsbD k = if pos ≤ k ∧ k < pos + wid then x.getLsbD (k - pos) else z.getLsbD k)

/-- R104, R106, R107, R108: the select, the constants, the address and the fat pointer. -/
def selectConstantsPointers : Prop :=
  ∀ (g : Guard) (d : Reg) (a b : Src) (k : PReg) (imm : BitVec 32) (s : State) (key : Nat) (l : Line),
    let x := l.c.src a
    let y := l.c.src b
    Writes (.sel g k d a b) s (head2 (.sel g k d a b) g d a b) key l d (if (l.c.pred k).getLsbD 0 then x else y) ∧
    Writes (.ldi g d imm) s (headOf (.ldi g d imm) g (regMask d) 0) key l d (BitVec.ofInt 64 imm.toInt) ∧
    Writes (.ldih g d imm) s (headOf (.ldih g d imm) g (regMask d) 0) key l d (BitVec.ofNat 64 (imm.toNat * 2 ^ 32 + (l.c.reg d).toNat % 2 ^ 32)) ∧
    Writes (.addpc g d imm) s (headOf (.addpc g d imm) g (regMask d) 0) key l d
      (BitVec.ofInt 64 (((l.at_.toNat : Int) + imm.toInt * 8) % 2 ^ 57)) ∧
    Writes (.fatset g d a b) s (head2 (.fatset g d a b) g d a b) key l d (BitVec.ofNat 64 (y.toNat % 2 ^ 7 * 2 ^ 57 + x.toNat % 2 ^ 57)) ∧
    Writes (.fatget g d a) s (head1 (.fatget g d a) g d a) key l d (BitVec.ofNat 64 (x.toNat / 2 ^ 57))

/-- What the word of head h does to one predicate pair: bit j of each predicate takes what `Combine` of R61 gives for its condition or its
complement where lane j mod L is active, and keeps its value elsewhere. Nothing else changes. -/
def WritesPair (i : Instr) (s : State) (h : Head) (key : Nat) (l : Line) (k : BitVec 2) (cm : Combine) (L : Nat) (cond : Nat → Bool) : Prop :=
  Issues h s key l →
    ∃ v w : BitVec 16, Completes i s h key l (Line.onCtx fun c => (c.setPred (pairLo k) v).setPred (pairHi k) w) ∧
      ∀ j < 16, v.getLsbD j = (if l.c.active h.g (j % L) then cm.apply ((l.c.pred (pairLo k)).getLsbD j) (cond (j % L))
          else (l.c.pred (pairLo k)).getLsbD j) ∧
        w.getLsbD j = (if l.c.active h.g (j % L) then cm.apply ((l.c.pred (pairHi k)).getLsbD j) (!cond (j % L))
          else (l.c.pred (pairHi k)).getLsbD j)

/-- The conditions of R73 on two words. -/
def condOf (cc : IntCond) (x y : Word) : Prop :=
  match cc with
  | .eq => x = y
  | .ne => x ≠ y
  | .lt => x.toInt < y.toInt
  | .le => x.toInt ≤ y.toInt
  | .gt => x.toInt > y.toInt
  | .ge => x.toInt ≥ y.toInt
  | .ltu => x.toNat < y.toNat
  | .leu => x.toNat ≤ y.toNat
  | .gtu => x.toNat > y.toNat
  | .geu => x.toNat ≥ y.toNat

/-- R61, R73, R110, R111: every bit of the pair takes the scalar condition. -/
def compares : Prop :=
  ∀ (g : Guard) (k : BitVec 2) (cm : Combine) (cc : IntCond) (fc : FloatCond) (fmt : FScalar) (nz : Bool) (a b : Src) (imm : BitVec 23)
    (s : State) (key : Nat) (l : Line),
    let x := l.c.src a
    let y := l.c.src b
    let two := fun (i : Instr) => headOf i g (a.nameMask ||| b.nameMask) (takes2 a b)
    (∃ v : Bool, (v = true ↔ condOf cc x y) ∧ WritesPair (.cmp g k cm cc a b) s (two (.cmp g k cm cc a b)) key l k cm 1 fun _ => v) ∧
    (∃ v : Bool, (v = true ↔ condOf cc x (BitVec.ofInt 64 imm.toInt)) ∧
      WritesPair (.cmpi g k cm cc a imm) s (headOf (.cmpi g k cm cc a imm) g a.nameMask a.takeMask) key l k cm 1 fun _ => v) ∧
    (∃ v : Bool, (v = true ↔ (if nz then x &&& y ≠ 0 else x &&& y = 0)) ∧
      WritesPair (.tst g k cm nz a b) s (two (.tst g k cm nz a b)) key l k cm 1 fun _ => v) ∧
    WritesPair (.fcmp g k cm fmt fc a b) s (two (.fcmp g k cm fmt fc a b)) key l k cm 1 fun _ =>
      match fmt with
      | .f32 => floatCondHolds fc (fp32.decode (x.toNat % 2 ^ 32)) (fp32.decode (y.toNat % 2 ^ 32))
      | .f64 => floatCondHolds fc (fp64.decode x.toNat) (fp64.decode y.toNat)

/-- R112, R113, R114: sixteen lanes, each active one written from the values at issue; PMOV to a general register clears its upper bits,
PCNT counts the bits that its guard selects. -/
def predicateLogic : Prop :=
  ∀ (g : Guard) (x y z u : PReg) (tbl : BitVec 8) (s : State) (key : Nat) (l : Line),
    let on := fun (j : Nat) => l.c.active g j
    let idx := fun (j : Nat) => (if (l.c.pred y).getLsbD j then 4 else 0) + (if (l.c.pred z).getLsbD j then 2 else 0) +
      (if (l.c.pred u).getLsbD j then 1 else 0)
    (Issues (headPred (.pset g x y z u tbl) g 0) s key l →
      ∃ v, Completes (.pset g x y z u tbl) s (headPred (.pset g x y z u tbl) g 0) key l (Line.onCtx fun c => c.setPred x v) ∧
        ∀ j < 16, v.getLsbD j = if on j then tbl.getLsbD (idx j) else (l.c.pred x).getLsbD j) ∧
    (Issues (headPred (.pmov g .predFromPred x y) g 0) s key l →
      ∃ v, Completes (.pmov g .predFromPred x y) s (headPred (.pmov g .predFromPred x y) g 0) key l (Line.onCtx fun c => c.setPred x v) ∧
        ∀ j < 16, v.getLsbD j = if on j then (l.c.pred y).getLsbD j else (l.c.pred x).getLsbD j) ∧
    (Issues (headPred (.pmov g .predFromReg x y) g (regMask y)) s key l →
      ∃ v, Completes (.pmov g .predFromReg x y) s (headPred (.pmov g .predFromReg x y) g (regMask y)) key l
          (Line.onCtx fun c => c.setPred x v) ∧
        ∀ j < 16, v.getLsbD j = if on j then (l.c.reg y).getLsbD j else (l.c.pred x).getLsbD j) ∧
    (Issues (headPred (.pmov g .regFromPred x y) g (regMask x)) s key l →
      ∃ v : Word, Completes (.pmov g .regFromPred x y) s (headPred (.pmov g .regFromPred x y) g (regMask x)) key l
          (Line.onCtx fun c => c.setReg x v) ∧
        ∀ j < 64, v.getLsbD j = (decide (j < 16) && if on j then (l.c.pred y).getLsbD j else (l.c.reg x).getLsbD j)) ∧
    (Issues (headPred (.pcnt g x y) g (regMask x)) s key l →
      Completes (.pcnt g x y) s (headPred (.pcnt g x y) g (regMask x)) key l (Line.onCtx fun c =>
        c.setReg x (BitVec.ofNat 64 ((List.range 16).filter fun j => (l.c.pred y).getLsbD j && on j).length)))

/-- What issuing does to the context, whatever the word: where it stands, and how its window counts. -/
def Obligations.ContextAdvances : Prop := issueAdvancesContext ∧ windowCountsWords

/-- Words that trap or wait instead of issuing: the checks of R60, and an empty register that is taken. -/
def Obligations.WordsThatDoNotIssue : Prop := checksInOrder ∧ emptyTakeWaits

/-- The integer results: arithmetic and logic, products and quotients, shifts and the immediate forms. -/
def Obligations.IntegerResults : Prop := integerArithmetic ∧ multiplyDivide ∧ shiftsAndImmediates

/-- The results on bits, and the selects, constants and pointers. -/
def Obligations.BitResults : Prop := bitCounts ∧ bitFields ∧ selectConstantsPointers

/-- What compares and predicate instructions write. -/
def Obligations.PredicateResults : Prop := compares ∧ predicateLogic

/-! ### Control (R115 to R124) and traps (R71, R223, R236 to R239) -/

/-- The word of head h raises a precise trap at its context's instruction boundary: nothing is written, taken or stored, and the machine goes
on as TrapTaken says. -/
def Traps (i : Instr) (s : State) (h : Head) (key : Nat) (l : Line) (code : BitVec 8) (detail : Nat) (va : Word) : Prop :=
  exec i s = .next (issueTrap s.nextSeq key l h.word code detail va)

/-- Target(w) of R116 for an instruction at an address. -/
def targetOf (a : VAddr) (off : BitVec 32) : VAddr := BitVec.ofInt 57 ((a.toNat : Int) + off.toInt * 8)

/-- A line after a taken transfer of the instruction at `a`. -/
def Line.wentTo (a target : VAddr) (l : Line) : Line := { l with jumped := true, src := a, c := { l.c with pc := target } }

/-- R116, R117: the target counts words from the instruction's own address, and BRL leaves the address after itself in gd. -/
def branchAndLink : Prop :=
  ∀ (g : Guard) (d : Reg) (off : BitVec 32) (s : State) (key : Nat) (l : Line),
    (Issues (headOf (.br g off) g 0 0) s key l →
      Completes (.br g off) s (headOf (.br g off) g 0 0) key l (Line.wentTo l.at_ (targetOf l.at_ off))) ∧
    (Issues (headOf (.brl g d off) g (regMask d) 0) s key l →
      Completes (.brl g d off) s (headOf (.brl g d off) g (regMask d) 0) key l
        (Line.wentTo l.at_ (targetOf l.at_ off) ∘ Line.onCtx fun c => c.setReg d (BitVec.ofNat 64 ((l.at_.toNat + 8) % 2 ^ 57))))

/-- R118: a jump reads its register before it writes the link; a target that is not a multiple of 8 traps, and nothing is done. That the record's va
word is then the whole register is the model's choice (log entry 12). -/
def indirectJump : Prop :=
  ∀ (g : Guard) (d : Reg) (a : Src) (s : State) (key : Nat) (l : Line),
    let t := l.c.src a
    let jr := headOf (.jr g a) g a.nameMask a.takeMask
    let jrl := head1 (.jrl g d a) g d a
    (Issues jr s key l → t.toNat % 8 = 0 → Completes (.jr g a) s jr key l (Line.wentTo l.at_ (t.setWidth 57))) ∧
    (Issues jr s key l → t.toNat % 8 ≠ 0 → Traps (.jr g a) s jr key l 0x05 0 t) ∧
    (Issues jrl s key l → t.toNat % 8 = 0 →
      Completes (.jrl g d a) s jrl key l
        (Line.wentTo l.at_ (t.setWidth 57) ∘ Line.onCtx fun c => c.setReg d (BitVec.ofNat 64 ((l.at_.toNat + 8) % 2 ^ 57)))) ∧
    (Issues jrl s key l → t.toNat % 8 ≠ 0 → Traps (.jrl g d a) s jrl key l 0x05 0 t)

/-- R119: a count of 0 stays and falls through; any other is one less, and branches while that is not 0. -/
def loopCountsDown : Prop :=
  ∀ (g : Guard) (d : Reg) (off : BitVec 32) (s : State) (key : Nat) (l : Line),
    let h := headOf (.loop g d off) g (regMask d) 0
    Issues h s key l →
      ((l.c.reg d).toNat ≤ 1 → Completes (.loop g d off) s h key l (Line.onCtx fun c => c.setReg d 0)) ∧
      (∀ n : Nat, (l.c.reg d).toNat = n + 2 →
        Completes (.loop g d off) s h key l
          (Line.wentTo l.at_ (targetOf l.at_ off) ∘ Line.onCtx fun c => c.setReg d (BitVec.ofNat 64 (n + 1))))

/-- A WAIT of R121 whose condition holds only advances, having met the deposits that it waited for; otherwise the context waits past it, with
this kind and object. -/
def WaitsUnless (i : Instr) (s : State) (h : Head) (key : Nat) (l : Line) (holds : Prop) (kind : BitVec 4) (obj : BitVec 60 → Prop)
    (met : BitVec 8) : Prop :=
  Issues h s key l →
    (holds → Completes i s h key l fun x => if met = 0 then x else x.hearRegs met) ∧
    (¬ holds → ∃ w, Completes i s h key l w ∧ ∃ o, obj o ∧ (w (s.past h l)).c.waitKind = kind ∧ (w (s.past h l)).c.waitObj = o ∧
      (w (s.past h l)).c.st = { (s.past h l).c.st with state := .waiting } ∧ (w (s.past h l)).c.pc = (s.past h l).c.pc ∧
      (w (s.past h l)).c.g = (s.past h l).c.g ∧ (w (s.past h l)).c.p = (s.past h l).c.p)

/-- R121, R122: the three conditions, WAIT.full's tested after the take of its own source, WAIT.time's on the time that TIME would give. That the
context is WAITING from this step on, and not from the end of its window, is the model's choice (log entry 65). -/
def waitConditions : Prop :=
  ∀ (g : Guard) (a : Src) (s : State) (key : Nat) (l : Line),
    let x := l.c.src a
    let hf := headWait (.waitFull g a) g a.nameMask a.takeMask
    let ht := headWait (.waitTime g a) g a.nameMask a.takeMask
    let full := (s.past hf l).c.st.full
    let T := min x.toNat (2 ^ 60 - 1)
    WaitsUnless (.waitInbox g) s (headWait (.waitInbox g) g 0 0) key l (l.c.inboxCount ≠ 0) 2 (· = 0) 0 ∧
    WaitsUnless (.waitFull g a) s hf key l (∀ r < 8, x.getLsbD r = true → full.getLsbD r = true) 1
      (fun o => ∃ r < 8, o = BitVec.ofNat 60 r ∧ x.getLsbD r = true ∧ full.getLsbD r = false ∧
        ∀ q < r, x.getLsbD q = true → full.getLsbD q = true) (x.setWidth 8) ∧
    WaitsUnless (.waitTime g a) s ht key l (T ≤ (s.timeOf (s.past ht l).c).toNat) 9 (· = BitVec.ofNat 60 T) 0

/-- R124, R232: NOP does nothing but advance the PC and count in an open window; its one encoding is 0xFF00_02B8_0000_0000 with the guard fields
replaced, and a NOP with any other operand field is an illegal encoding, which traps. TIME, of opcode 0xF8 with D alone, writes the larger of the time base
of the die where the context issues and the floor of its line to gd, and that becomes the floor, so that the next is not below it. -/
def Obligations.NopAndTime : Prop :=
  ∀ (g : Guard) (d : Reg) (w : Word) (s : State) (key : Nat) (l : Line),
    let nop := headOf (.nop g) g 0 0
    let time := headOf (.time g d) g (regMask d) 0
    let T := s.timeOf (s.past time l).c
    (Issues nop s key l → Completes (.nop g) s nop key l id ∧ (s.past nop l).c.st.larem.toNat = l.c.st.larem.toNat - 1 ∧
      (l.reissue = none → (s.past nop l).c.pc = l.c.pc + 8)) ∧
    (w.toNat % 2 ^ 47 = 0x02B8_0000_0000 → decodeWord w = .nop (guardAt w)) ∧
    ((opcAt w).toNat = 0x57 → w.toNat % 2 ^ 47 ≠ 0x02B8_0000_0000 → ∃ c, decodeWord w = .illegalOpcode w c ∧
      (s.issuing = some (key, l) → boundary s key l = none → exec (.illegalOpcode w c) s = .next (issueTrap s key l w 0x01 c.toNat 0))) ∧
    (w.toNat % 2 ^ 47 = 0xF8 * 2 ^ 35 + d.val * 2 ^ 32 → decodeWord w = .time (guardAt w) d) ∧
    (T.toNat = max (s.timeAt l.c.dieNum).toNat (s.past time l).c.floor.toNat) ∧
    (Issues time s key l → Completes (.time g d) s time key l (Line.onCtx fun c => { c.setReg d T with floor := T }))

/-- R123, R124, R125: NOP only advances. YIELD makes the context READY, frees its slot, and puts it at the end of its turn at the tail of a run list of its
cluster, behind all that enter no later; its registers, predicates, full and pending bits and priority class are as they were, and what is pending for it goes on, a reduction too. -/
def nopAndYield : Prop :=
  ∀ (g : Guard) (s : State) (key : Nat) (l : Line),
    (Issues (headOf (.nop g) g 0 0) s key l → Completes (.nop g) s (headOf (.nop g) g 0 0) key l id) ∧
    (∀ c u sl : Nat, Issues (headWait (.yield g) g 0 0) s key l → l.place = .slot c u sl → sl < 8 →
      ∃ t l' f, s.sched.cycle < f ∧ f ≤ s.sched.cycle + 8 ∧ f % 8 = sl ∧ l'.out = f ∧ exec (.yield g) s = .next t ∧ SMap.get? t.ctx.lines key = some l' ∧ l'.c.st.state = .ready ∧ l'.place = .l1 c u ∧
        (t.slot c u sl).line = none ∧ l'.c.pc = (s.past (headWait (.yield g) g 0 0) l).c.pc ∧ l'.c.g = l.c.g ∧ l'.c.p = l.c.p ∧
        l'.c.st.full = l.c.st.full ∧ l'.c.st.pend = l.c.st.pend ∧ l'.c.st.qkind = l.c.st.qkind ∧ l'.c.st.cls = l.c.st.cls ∧
        t.runList c (effClass l.c.st.cls (s.slot c u sl).age) =
          (s.runList c (effClass l.c.st.cls (s.slot c u sl).age)).filter (fun e => decide (e.from_ ≤ f)) ++
            { line := key, age := (s.slot c u sl).age, from_ := f } ::
          (s.runList c (effClass l.c.st.cls (s.slot c u sl).age)).filter (fun e => decide (f < e.from_)) ∧
        sameLinesBut key s t ∧ sameMemoryBut key s t ∧ t.mem = s.mem ∧ t.fl = s.fl ∧ t.eng = s.eng ∧ t.groups = s.groups)

/-- R71, R223: a word that is no instruction traps with code 0x01 and the condition it fails; BKPT with 0x30 at its own address; TRAP n with
0x40 + n, its detail the value of ga, its PC word the next instruction's; one that a replay marker names leaves the marker and the PC as they are (R153). -/
def Obligations.TrapsOnPurpose : Prop :=
  ∀ (g : Guard) (a : Src) (n cond : Nat) (w : Word) (s : State) (key : Nat) (l : Line),
    (s.issuing = some (key, l) → boundary s key l = none →
      exec (.illegalOpcode w (BitVec.ofNat 3 cond)) s = .next (issueTrap s key l w 0x01 (cond % 8) 0)) ∧
    (Issues (headWait (.bkpt g) g 0 0) s key l → Traps (.bkpt g) s (headWait (.bkpt g) g 0 0) key l 0x30 0 0) ∧
    (let i := Instr.trap g (BitVec.ofNat 4 n) a
     let h := headWait i g a.nameMask a.takeMask
     n < 16 → Issues h s key l →
      ∃ src, exec i s = .next (s.nextSeq.takeTrap key (s.past h l)
        { code := BitVec.ofNat 8 (0x40 + n), pc := if l.reissue = none then l.c.pc + 8 else l.c.pc,
          obj := l.reissue.map fun m => m.setWidth 60 ||| 1, at_ := l.reissue.getD l.c.pc, src := src, va := 0, word := h.word,
          detail := l.c.src a }) ∧ ((l.jumped = false ∨ l.reissue ≠ none) → src = l.reissue.getD l.c.pc))

/-- The bytes of a record that would be written for a trap of the line, if its ring has room and its page can be written. -/
def recordBytes (s : State) (l : Line) : Option (List Nat) :=
  let r := s.asidRegs l.c.asid
  if r.ringFull then none else s.deviceDest l.c.here l.c.asid (r.recordVa r.ringHead.toNat) 64

/-- Step 1 of R237: the context becomes TRAPPED with its code and its PC word; its wait word is zero, or of kind 15 with the marker of a load
or of the marked instruction; its slot and every run list let it go; its registers, predicates, full and pending bits stay. No other line
changes but where the record is written. -/
def trapTaken : Prop :=
  ∀ (s : State) (key : Nat) (l : Line) (x : TrapInfo), (s.fl.reds.any fun r => r.line == key) = false →
    (∀ pas, recordBytes s l = some pas → ∀ a ∈ pas, a / 128 ≠ key) →
    ∃ l', SMap.get? (s.takeTrap key l x).ctx.lines key = some l' ∧
      l'.c = { l.c with pc := x.pc, waitKind := l'.c.waitKind, waitObj := l'.c.waitObj, floor := s.timeOf l.c
                        st := { l.c.st with state := .trapped, trapcode := x.code, valid := false } } ∧
      (∀ o, x.obj = some o → l'.c.waitKind = 15 ∧ l'.c.waitObj = o) ∧
      (x.obj = none → l.c.marker = false → l.reissue = none → l'.c.waitKind = 0 ∧ l'.c.waitObj = 0) ∧
      (∀ a, x.obj = none → l.c.marker = false → l.reissue = some a → l'.c.waitKind = 15 ∧ l'.c.waitObj = a.setWidth 60 ||| 1) ∧
      (∀ c u sl, l.place = .slot c u sl → ((s.takeTrap key l x).slot c u sl).line = none ∧ l'.place = .l1 c u) ∧
      (∀ k, k ≠ key → (∀ pas, recordBytes s l = some pas → ∀ a ∈ pas, a / 128 ≠ k) →
        SMap.get? (s.takeTrap key l x).ctx.lines k = SMap.get? s.ctx.lines k) ∧
      (∀ a, a / 128 ≠ key → (∀ pas, recordBytes s l = some pas → a ∉ pas) → (s.takeTrap key l x).readByte a = s.readByte a)

/-- Steps 2 and 3 of R237, R238, R239: the record's eight words in memory, TRAP_HEAD one further, or TRAP_OVERFLOW one more; and the notice in the
send buffer, or UNDELIV_COUNT one more when there is no handler. That the record keeps the wait kind as step 1 leaves it, and that word 2 of the
notice is the record's address plus 0x10, is the model's choice (log entry 10). -/
def trapRecordAndNotice : Prop :=
  ∀ (s : State) (key : Nat) (l : Line) (x : TrapInfo), (s.fl.reds.any fun r => r.line == key) = false →
    l.c.marker = false → l.reissue = none → Memory.wf s.mem.bytes = true →
    let t := s.takeTrap key l x
    let r := s.asidRegs l.c.asid
    let r' := t.asidRegs l.c.asid
    let kind := if x.obj.isSome then 15 else 0
    let code := x.code.toNat
    (∀ pas, recordBytes s l = some pas → pas.Nodup → (∀ a ∈ pas, a / 128 ≠ key ∧ s.lineAt a = none) →
      r'.ringHead = r.ringHead + 1 ∧ r'.ringOver = r.ringOver ∧
      t.readBytes pas = ([l.handle, BitVec.ofNat 64 (code + kind * 2 ^ 8 + l.c.asid.toNat * 2 ^ 16 + l.c.launch.toNat * 2 ^ 32),
          x.at_.setWidth 64, x.src.setWidth 64, if code ∈ [4, 5, 7, 0x10, 0x11, 0x12, 0x13, 0x14, 0x15, 0x16] then x.va else 0,
          if code ∈ [0x13, 0x14, 0x15] then 0 else x.word, x.detail, s.timeOf l.c].flatMap fun w => leBytes 8 w.toNat)) ∧
    (recordBytes s l = none → r'.ringHead = r.ringHead ∧ r'.ringOver = r.ringOver + 1 ∧ t.mem = s.mem) ∧
    (r.handler = 0 → r'.undeliv = r.undeliv + 1 ∧ t.fl.sends = s.fl.sends) ∧
    (r.handler ≠ 0 → r'.undeliv = r.undeliv ∧ ∃ e, t.sendsOf l.c.here = s.sendsOf l.c.here ++ [e] ∧
      ∃ w1 w2, e.what = .msg r.handler l.handle w1 w2 (BitVec.ofNat 64 (0xF * 2 ^ 60 + 4 * 2 ^ 56 + code)) 4 .trapNotice ∧
        (recordBytes s l = none → w1 = 0xFFFFFFFF) ∧
        ((recordBytes s l).isSome = true → w1 = BitVec.ofNat 64 r.ringHead.toNat ∧
          w2 = BitVec.ofNat 64 (r.recordVa r.ringHead.toNat + 0x10)))

/-- The five control transfers. -/
def Obligations.ControlTransfers : Prop := branchAndLink ∧ indirectJump ∧ loopCountsDown

/-- The waits, and giving up the slot. -/
def Obligations.WaitsAndYield : Prop := waitConditions ∧ nopAndYield

/-- Taking an exception: what it leaves in the context, in the ring and for the handler. -/
def Obligations.TrapEntry : Prop := trapTaken ∧ trapRecordAndNotice

/-! ### Vectors, floating point, special functions (R130 to R147) -/

/-- The word of head h writes the pair gd lane by lane: of the L lanes of w bits, an active one takes `f`, and every other keeps its value. -/
def WritesLanes (i : Instr) (s : State) (h : Head) (key : Nat) (l : Line) (d : Reg) (w L : Nat) (f : Nat → Nat) : Prop :=
  Issues h s key l →
    ∃ v : BitVec 128, Completes i s h key l (Line.onCtx fun c => c.setPair d v) ∧
      ∀ k < L, laneOf v w k = if l.c.active h.g k then f k % 2 ^ w else laneOf (l.c.pair d) w k

/-- The head of a vector instruction of two pairs. -/
def headPairs (i : Instr) (g : Guard) (w : Nat) (d : Reg) (a b : Src) : Head :=
  headVec i g (128 / w) (pairMask d ||| pairName a ||| pairName b) (a.takePair ||| b.takePair)
/-- The head of a vector instruction of three pairs. -/
def headPairs3 (i : Instr) (g : Guard) (w : Nat) (d : Reg) (a b cc : Src) : Head :=
  headVec i g (128 / w) (pairMask d ||| pairName a ||| pairName b ||| pairName cc) (a.takePair ||| b.takePair ||| cc.takePair)

/-- Clamped to a range, as bits. -/
def clamped (lo hi x : Int) (w : Nat) : Nat := (max lo (min hi x) % 2 ^ w).toNat

/-- R131: each lane modulo 2^w, or clamped to the signed or the unsigned range; both halves of a product; the lesser and the greater. -/
def vectorArithmetic : Prop :=
  ∀ (g : Guard) (sz : ElemSize) (d : Reg) (a b : Src) (s : State) (key : Nat) (l : Line),
    let w := elemBits sz
    let x := fun k => laneOf (l.c.pair a.reg) w k
    let y := fun k => laneOf (l.c.pair b.reg) w k
    let X := fun k => ((x k : Int)).bmod (2 ^ w)
    let Y := fun k => ((y k : Int)).bmod (2 ^ w)
    let lo : Int := -(2 ^ (w - 1))
    let hi : Int := 2 ^ (w - 1) - 1
    ∀ r ∈ [(Instr.vadd g .wrap sz d a b, fun k => (x k + y k) % 2 ^ w), (.vadd g .sat sz d a b, fun k => clamped lo hi (X k + Y k) w),
        (.vadd g .usat sz d a b, fun k => min (x k + y k) (2 ^ w - 1)), (.vsub g .wrap sz d a b, fun k => ((x k - y k : Int) % 2 ^ w).toNat),
        (.vsub g .sat sz d a b, fun k => clamped lo hi (X k - Y k) w), (.vsub g .usat sz d a b, fun k => x k - y k),
        (.vmul g .lo sz d a b, fun k => x k * y k % 2 ^ w), (.vmul g .hi sz d a b, fun k => (X k * Y k / 2 ^ w % 2 ^ w).toNat),
        (.vmul g .hiu sz d a b, fun k => x k * y k / 2 ^ w), (.vmin g false sz d a b, fun k => if X k ≤ Y k then x k else y k),
        (.vmin g true sz d a b, fun k => min (x k) (y k)), (.vmax g false sz d a b, fun k => if X k ≤ Y k then y k else x k),
        (.vmax g true sz d a b, fun k => max (x k) (y k))],
      WritesLanes r.1 s (headPairs r.1 g w d a b) key l d w (128 / w) r.2

/-- R132: bitwise results, and shifts by the low bits of each lane of gb. -/
def vectorBitwise : Prop :=
  ∀ (g : Guard) (sz : ElemSize) (d : Reg) (a b : Src) (s : State) (key : Nat) (l : Line),
    let w := elemBits sz
    let x := fun k => laneOf (l.c.pair a.reg) w k
    let y := fun k => laneOf (l.c.pair b.reg) w k
    let n := fun k => y k % w
    ∀ r ∈ [(Instr.vand g sz d a b, fun k => x k &&& y k), (.vor g sz d a b, fun k => x k ||| y k), (.vxor g sz d a b, fun k => x k ^^^ y k),
        (.vandn g sz d a b, fun k => x k &&& ((2 ^ w - 1) ^^^ y k)), (.vshl g sz d a b, fun k => x k * 2 ^ n k % 2 ^ w),
        (.vshr g sz d a b, fun k => x k / 2 ^ n k), (.vsar g sz d a b, fun k => (((x k : Int)).bmod (2 ^ w) / 2 ^ n k % 2 ^ w).toNat)],
      WritesLanes r.1 s (headPairs r.1 g w d a b) key l d w (128 / w) r.2

/-- R133, R134, R135: the shuffle of two pairs by a third, the fixed patterns, and the moves between a register and the lanes. VEXT and VINS
are guarded by the one lane that gb names. -/
def vectorMovement : Prop :=
  ∀ (g : Guard) (sz : ElemSize) (d : Reg) (a b cc : Src) (op : PermOp) (s : State) (key : Nat) (l : Line),
    let w := elemBits sz
    let L := 128 / w
    let x := fun k => laneOf (l.c.pair a.reg) w k
    let y := fun k => laneOf (l.c.pair b.reg) w k
    let z := fun k => laneOf (l.c.pair cc.reg) w k
    let j := (l.c.src b).toNat % L
    let hx := headLane (.vext g false sz d a b) g L b (regMask d ||| pairName a ||| b.nameMask) (a.takePair ||| b.takeMask)
    let hs := headLane (.vext g true sz d a b) g L b (regMask d ||| pairName a ||| b.nameMask) (a.takePair ||| b.takeMask)
    let hi := headLane (.vins g sz d a b) g L b (pairMask d ||| a.nameMask ||| b.nameMask) (takes2 a b)
    WritesLanes (.vshuf g sz d a b cc) s (headPairs3 (.vshuf g sz d a b cc) g w d a b cc) key l d w L (fun k =>
      if z k / 2 ^ (w - 1) = 1 then 0 else if z k % (2 * L) < L then x (z k % (2 * L)) else y (z k % (2 * L) - L)) ∧
    WritesLanes (.vperm g op sz d a b) s
      (headVec (.vperm g op sz d a b) g L (pairMask d ||| pairName a ||| permNames op b) (a.takePair ||| b.takePair)) key l d w L (fun k =>
      match op with
      | .rev => x (L - 1 - k)
      | .swap => x (k ^^^ 1)
      | .ziplo => if k % 2 = 0 then x (k / 2) else y (k / 2)
      | .ziphi => if k % 2 = 0 then x (L / 2 + k / 2) else y (L / 2 + k / 2)
      | .even => if k < L / 2 then x (2 * k) else y (2 * (k - L / 2))
      | .odd => if k < L / 2 then x (2 * k + 1) else y (2 * (k - L / 2) + 1)) ∧
    WritesLanes (.vsplat g sz d a) s (headVec (.vsplat g sz d a) g L (pairMask d ||| a.nameMask) a.takeMask) key l d w L
      (fun _ => (l.c.src a).toNat) ∧
    (Issues hx s key l → l.c.active g j = true ∧
      Completes (.vext g false sz d a b) s hx key l (Line.onCtx fun c => c.setReg d (BitVec.ofNat 64 (x j)))) ∧
    (Issues hs s key l → l.c.active g j = true ∧
      Completes (.vext g true sz d a b) s hs key l (Line.onCtx fun c => c.setReg d (BitVec.ofInt 64 (((x j : Int)).bmod (2 ^ w))))) ∧
    (Issues hi s key l → l.c.active g j = true ∧
      ∃ v : BitVec 128, Completes (.vins g sz d a b) s hi key l (Line.onCtx fun c => c.setPair d v) ∧
        ∀ k < L, laneOf v w k = if k = j then (l.c.src a).toNat % 2 ^ w else laneOf (l.c.pair d) w k)

/-- R73, R74, R136: each active lane's condition and its complement go into the predicate pair. -/
def vectorCompare : Prop :=
  ∀ (g : Guard) (k : BitVec 2) (cm : Combine) (sz : ElemSize) (cc : IntCond) (f : VFloat) (fc : FloatCond) (a b : Src) (s : State) (key : Nat)
    (l : Line),
    let hd := fun (i : Instr) (w : Nat) => headVec i g (128 / w) (pairName a ||| pairName b) (a.takePair ||| b.takePair)
    (∃ v : Nat → Bool,
      (∀ j, v j = true ↔
        let x := laneOf (l.c.pair a.reg) (elemBits sz) j
        let y := laneOf (l.c.pair b.reg) (elemBits sz) j
        let X := ((x : Int)).bmod (2 ^ elemBits sz)
        let Y := ((y : Int)).bmod (2 ^ elemBits sz)
        match cc with
        | .eq => x = y
        | .ne => x ≠ y
        | .lt => X < Y
        | .le => X ≤ Y
        | .gt => X > Y
        | .ge => X ≥ Y
        | .ltu => x < y
        | .leu => x ≤ y
        | .gtu => x > y
        | .geu => x ≥ y) ∧
      WritesPair (.vcmp g k cm (.int sz cc) a b) s (hd (.vcmp g k cm (.int sz cc) a b) (elemBits sz)) key l k cm (128 / elemBits sz) v) ∧
    (∃ v : Nat → Bool,
      (∀ j, v j = true ↔
        let o := ((vfloatFormat f).decode (laneOf (l.c.pair a.reg) (vfloatFormat f).width j)).compare
          ((vfloatFormat f).decode (laneOf (l.c.pair b.reg) (vfloatFormat f).width j))
        match fc with
        | .eq => o = some .eq
        | .ne => o ≠ some .eq
        | .lt => o = some .lt
        | .le => o = some .lt ∨ o = some .eq
        | .gt => o = some .gt
        | .ge => o = some .gt ∨ o = some .eq
        | .un => o = none
        | .ord => o ≠ none) ∧
      WritesPair (.vcmp g k cm (.flt f fc) a b) s (hd (.vcmp g k cm (.flt f fc) a b) (vfloatFormat f).width) key l k cm
        (128 / (vfloatFormat f).width) v)

/-- R137, R138, R139: exact sums and products rounded once, lane by lane; the lesser and the greater number; and the BF16 dot product whose
three terms are one exact sum. -/
def vectorFloat : Prop :=
  ∀ (g : Guard) (f : VFloat) (rm : Rounding) (d : Reg) (a b cc : Src) (s : State) (key : Nat) (l : Line),
    let F := vfloatFormat f
    let w := F.width
    let x := fun k => F.decode (laneOf (l.c.pair a.reg) w k)
    let y := fun k => F.decode (laneOf (l.c.pair b.reg) w k)
    let z := fun k => F.decode (laneOf (l.c.pair cc.reg) w k)
    let e := fun (r : Src) k => bf16.decode (laneOf (l.c.pair r.reg) 16 k)
    (∀ r ∈ [(Instr.vfadd g f rm d a b, fun k => F.round rm (.sum rm [x k, y k])), (.vfsub g f rm d a b, fun k => F.round rm (.sum rm [x k, (y k).negate])),
        (.vfmul g f rm d a b, fun k => F.round rm ((x k).mul (y k))), (.vfmin g f d a b, fun k => F.round .rne ((x k).minNum (y k))),
        (.vfmax g f d a b, fun k => F.round .rne ((x k).maxNum (y k)))],
      WritesLanes r.1 s (headPairs r.1 g w d a b) key l d w (128 / w) r.2) ∧
    WritesLanes (.vfma g f rm d a b cc) s (headPairs3 (.vfma g f rm d a b cc) g w d a b cc) key l d w (128 / w)
      (fun k => F.round rm (.sum rm [(x k).mul (y k), z k])) ∧
    WritesLanes (.vdot g rm d a b cc) s (headPairs3 (.vdot g rm d a b cc) g 32 d a b cc) key l d 32 4 (fun k =>
      fp32.round rm (.sum rm [(e a (2 * k)).mul (e b (2 * k)), (e a (2 * k + 1)).mul (e b (2 * k + 1)),
        fp32.decode (laneOf (l.c.pair cc.reg) 32 k)]))

/-- The widths of the elements that a VCVT reads and writes, and its conversion (R42, R140). -/
def vcvtOf (op : VCvtOp) (rm : Rounding) : Nat × Nat × (Nat → Nat) :=
  match op with
  | .f32bf16 => (32, 16, fun x => bf16.round rm (fp32.decode x))
  | .f32f16 => (32, 16, fun x => fp16.round rm (fp32.decode x))
  | .bf16f32 => (16, 32, fun x => fp32.round .rne (bf16.decode x))
  | .f16f32 => (16, 32, fun x => fp32.round .rne (fp16.decode x))
  | .f32i32 => (32, 32, fun x => ((fp32.decode x).toRange rm (-2 ^ 31) (2 ^ 31 - 1) % 2 ^ 32).toNat)
  | .i32f32 => (32, 32, fun x => fp32.round rm (.ofInt ((x : Int).bmod (2 ^ 32))))
  | .f32t8 => (32, 8, fun x => encodeTaper 8 (fp32.decode x))
  | .t8f32 => (8, 32, fun x => fp32.round .rne (decodeTaper 8 x))
  | .f32i8 => (32, 8, fun x => ((fp32.decode x).toRange rm (-128) 127 % 2 ^ 8).toNat)
  | .i8f32 => (8, 32, fun x => fp32.round .rne (.ofInt ((x : Int).bmod (2 ^ 8))))

/-- R140: four elements, each governed by its guard lane; a narrowing conversion writes only the positions of its results, and every other
bit of the pair keeps its value. -/
def vectorConvert : Prop :=
  ∀ (g : Guard) (op : VCvtOp) (rm : Rounding) (d : Reg) (a : Src) (s : State) (key : Nat) (l : Line),
    let h := headVec (.vcvt g op rm d a) g 4 (pairMask d ||| pairName a) a.takePair
    let (from_, to_, f) := vcvtOf op rm
    Issues h s key l →
      ∃ v : BitVec 128, Completes (.vcvt g op rm d a) s h key l (Line.onCtx fun c => c.setPair d v) ∧
        ∀ k < 128, v.getLsbD k = if k / to_ < 4 ∧ l.c.active g (k / to_) = true then (f (laneOf (l.c.pair a.reg) from_ (k / to_))).testBit (k % to_)
          else (l.c.pair d).getLsbD k

/-- R138, R141, R144: scalar results, FP32 in the low 32 bits with the rest zero, each an exact result rounded once; FCLASS sets the one bit of
its operand's class: bit 8 of a signalling NaN, bit 9 of a quiet one, whose first bit of the fraction is 1. -/
def scalarFloat : Prop :=
  ∀ (g : Guard) (f : FScalar) (rm : Rounding) (d : Reg) (a b cc : Src) (s : State) (key : Nat) (l : Line),
    let F : FpFormat := match f with
      | .f32 => fp32
      | .f64 => fp64
    let bits := fun (r : Src) => (l.c.src r).toNat % 2 ^ F.width
    let x := F.decode (bits a)
    let y := F.decode (bits b)
    let z := F.decode (bits cc)
    (∀ r ∈ [(Instr.fadd g f rm d a b, F.round rm (.sum rm [x, y])), (.fsub g f rm d a b, F.round rm (.sum rm [x, y.negate])),
        (.fmul g f rm d a b, F.round rm (x.mul y)), (.fmin g f d a b, F.round .rne (x.minNum y)), (.fmax g f d a b, F.round .rne (x.maxNum y))],
      Writes r.1 s (head2 r.1 g d a b) key l d (BitVec.ofNat 64 r.2)) ∧
    Writes (.ffma g f rm d a b cc) s
      (headOf (.ffma g f rm d a b cc) g (names3 d a b ||| cc.nameMask) (takes2 a b ||| cc.takeMask)) key l d
      (BitVec.ofNat 64 (F.round rm (.sum rm [x.mul y, z]))) ∧
    ∃ k < 10, Writes (.fclass g f d a) s (head1 (.fclass g f d a) g d a) key l d (BitVec.ofNat 64 (2 ^ k)) ∧
      (k = 0 ↔ x = .inf true) ∧ (k = 7 ↔ x = .inf false) ∧ (k = 8 ∨ k = 9 ↔ x = .nan) ∧
      (x = .nan → (k = 9 ↔ bits a / 2 ^ (F.fbits - 1) % 2 = 1)) ∧
      (k = 3 ∨ k = 4 ↔ x.isZero = true) ∧ (k < 4 → bits a / 2 ^ (F.width - 1) = 1) ∧ (4 ≤ k ∧ k < 8 → bits a / 2 ^ (F.width - 1) = 0) ∧
      (k = 2 ∨ k = 5 ↔ x.isZero = false ∧ bits a / 2 ^ F.fbits % 2 ^ F.ebits = 0)

/-- R143: each conversion reads its source from the low bits of ga; an INT32 result is sign-extended, every other narrow one zero-extended; a
value outside an integer range takes the nearest bound, and a NaN gives 0. -/
def scalarConvert : Prop :=
  ∀ (g : Guard) (op : FCvtOp) (rm : Rounding) (d : Reg) (a : Src) (s : State) (key : Nat) (l : Line),
    let n := (l.c.src a).toNat
    let f32 := fp32.decode (n % 2 ^ 32)
    let f64 := fp64.decode n
    Writes (.fcvt g op rm d a) s (head1 (.fcvt g op rm d a) g d a) key l d
      (match op with
      | .f64f32 => BitVec.ofNat 64 (fp32.round rm f64)
      | .f32f64 => BitVec.ofNat 64 (fp64.round .rne f32)
      | .f32f16 => BitVec.ofNat 64 (fp16.round rm f32)
      | .f16f32 => BitVec.ofNat 64 (fp32.round .rne (fp16.decode (n % 2 ^ 16)))
      | .f32bf16 => BitVec.ofNat 64 (bf16.round rm f32)
      | .bf16f32 => BitVec.ofNat 64 (fp32.round .rne (bf16.decode (n % 2 ^ 16)))
      | .f32i64 => BitVec.ofInt 64 (f32.toRange rm (-2 ^ 63) (2 ^ 63 - 1))
      | .f64i64 => BitVec.ofInt 64 (f64.toRange rm (-2 ^ 63) (2 ^ 63 - 1))
      | .i64f32 => BitVec.ofNat 64 (fp32.round rm (.ofInt (l.c.src a).toInt))
      | .i64f64 => BitVec.ofNat 64 (fp64.round rm (.ofInt (l.c.src a).toInt))
      | .f32i32 => BitVec.ofInt 64 (f32.toRange rm (-2 ^ 31) (2 ^ 31 - 1))
      | .f64i32 => BitVec.ofInt 64 (f64.toRange rm (-2 ^ 31) (2 ^ 31 - 1))
      | .f32t8 => BitVec.ofNat 64 (encodeTaper 8 f32)
      | .t8f32 => BitVec.ofNat 64 (fp32.round .rne (decodeTaper 8 (n % 2 ^ 8)))
      | .f32t6 => BitVec.ofNat 64 (encodeTaper 6 f32)
      | .t6f32 => BitVec.ofNat 64 (fp32.round .rne (decodeTaper 6 (n % 2 ^ 6))))

/-- R31, R36, R37, R38: what a pattern that is no NaN stands for rounds to the pattern itself under every mode, in FP16, BF16, FP32 and FP64;
and every tapered pattern is the encoding of its own value. -/
def Obligations.FormatsKeepTheirValues : Prop :=
  (∀ f ∈ [fp16, bf16, fp32, fp64], ∀ (rm : Rounding) (x : Nat), x < 2 ^ f.width → f.decode x ≠ .nan → f.round rm (f.decode x) = x) ∧
  (∀ n ∈ [6, 8], ∀ x < 2 ^ n, encodeTaper n (decodeTaper n x) = x)

/-- A list of the flight entries that a word adds; everything else that is no context's line is as before. -/
structure OnlyLineAndFlight (s t : State) (key : Nat) (l : Line) (fl : Flight) : Prop where
  line : SMap.get? t.ctx.lines key = some l
  others : sameLinesBut key s t
  memory : sameMemoryBut key s t
  flight : t.fl = fl
  rest : t.mem = s.mem ∧ t.eng = s.eng ∧ t.groups = s.groups ∧ t.chains = s.chains ∧ t.launch = s.launch ∧ t.asids = s.asids ∧ t.fab = s.fab ∧
    t.mgmt = s.mgmt ∧ t.time = s.time ∧ { t.ctx with lines := s.ctx.lines } = s.ctx

/-- Instruction i completes: its context's line is changed by f, what is in flight becomes `fl`, and nothing else changes. -/
def CompletesInFlight (i : Instr) (s : State) (h : Head) (key : Nat) (l : Line) (f : Line → Line) (fl : Flight) : Prop :=
  ∃ t, exec i s = .next t ∧ OnlyLineAndFlight s t key (f (s.past h l)) fl

/-- R65, R142: a divide or root starts in its issue unit's unit with the quotient or root rounded once, its destination pending; the result
later lands in the line and clears the pending bit. -/
def divideAndRoot : Prop :=
  ∀ (g : Guard) (la : BitVec 4) (f : FScalar) (rm : Rounding) (d : Reg) (a b : Src) (s : State) (key : Nat) (l : Line),
    let F : FpFormat := match f with
      | .f32 => fp32
      | .f64 => fp64
    let x := F.decode ((l.c.src a).toNat % 2 ^ F.width)
    let y := F.decode ((l.c.src b).toNat % 2 ^ F.width)
    let hd := headLong (.fdiv g la f rm d a b) g la (names3 d a b) (takes2 a b)
    let hr := headLong (.fsqrt g la f rm d a) g la (names2 d a) a.takeMask
    let starts := fun (i : Instr) (h : Head) (v : Nat) => Issues h s key l →
      ∃ r : DivReq, CompletesInFlight i s h key l (fun m => m.pending (regMask d)) { s.fl with divs := s.fl.divs ++ [r] } ∧
        r.line = key ∧ r.d = d.val ∧ r.value = BitVec.ofNat 64 v ∧ r.cluster = l.c.here ∧ r.unit = s.issueUnit
    starts (.fdiv g la f rm d a b) hd (F.round rm (x.quot y)) ∧ starts (.fsqrt g la f rm d a) hr (F.round rm x.sqrt) ∧
    (∀ (k : Nat) (r : DivReq), nth? s.fl.divs k = some r → r.line = key → r.d = d.val → SMap.get? s.ctx.lines key = some l →
      l.lost = 0 → l.c.st.state = .running →
      exec (.divideComplete k) s =
        .next ({ s with fl := { s.fl with divs := removeAt k s.fl.divs } }.setLine key
          { l with c := { l.c.setReg d r.value with st := { l.c.st with pend := l.c.st.pend &&& ~~~regMask d } } }))

/-- The seven special functions. -/
def sfuOps : List ((Guard → BitVec 4 → Bool → Reg → Src → Instr) × (FpVal → FpVal)) :=
  [(.rcp, rcpVal), (.rsq, FpVal.rsqrt), (.exp2, exp2Val), (.log2, log2Val), (.sin, sinVal), (.cos, cosVal), (.tanh, tanhVal)]

/-- The head of a special function. -/
def headSfu (i : Instr) (g : Guard) (la : BitVec 4) (vec : Bool) (d : Reg) (a : Src) : Head :=
  { headLong i g la ((if vec then pairMask d else regMask d) ||| (if vec then pairName a else a.nameMask))
      (if vec then a.takePair else a.takeMask) with profile := .v1, lanes := if vec then 4 else 1 }

/-- R65, R145, R147: a special function enters its cluster's queue at its tail with its results and its destination becomes pending; where no
entry is free to its unit the turn is idle, the context stays as it was, and the unit is recorded as refused. An entry that is held, for no longer than
the eighth cycle after it freed, is free to its own unit alone. -/
def specialFunctionsQueue : Prop :=
  ∀ op ∈ sfuOps, ∀ (g : Guard) (la : BitVec 4) (vec : Bool) (d : Reg) (a : Src) (s : State) (key : Nat) (l : Line),
    let i := op.1 g la vec d a
    let h := headSfu i g la vec d a
    let q := s.sfuOf l.c.here
    let unit := s.issueUnit
    let held := q.held.filter fun x => decide (s.sched.cycle ≤ x.2 + 8)
    let own := held.any fun x => x.1 == unit
    let f := fun x => fp32.round .rne (op.2 (fp32.decode x))
    Issues h s key l →
      ((q.queue.length + held.length < 16 ∨ own = true) →
        ∃ (r : SfuReq) (q' : Sfu), CompletesInFlight i s h key l (fun m => m.pending (if vec then pairMask d else regMask d))
            { s.fl with sfu := SMap.set s.fl.sfu l.c.here q' } ∧
          q'.queue = q.queue ++ [r] ∧ r.line = key ∧ r.clear = (if vec then pairMask d else regMask d) ∧
          (own = false → q'.held = q.held ∧ q'.refused = q.refused) ∧
          (own = true → q'.held.length + 1 = q.held.length ∧ q'.refused = q.refused.filter (· != unit)) ∧
          (vec = false → r.writes = [(d.val, BitVec.ofNat 64 (f ((l.c.src a).toNat % 2 ^ 32)), BitVec.allOnes 64)]) ∧
          (vec = true → ∃ v0 m0 v1 m1 : Word, r.writes = [(d.val, v0, m0), ((d.val + 1) % 8, v1, m1)] ∧
            ∀ k < 4, let m := if k < 2 then m0 else m1
              let v := if k < 2 then v0 else v1
              ∀ j < 32, m.getLsbD (32 * (k % 2) + j) = l.c.active g k ∧
                (l.c.active g k = true → v.getLsbD (32 * (k % 2) + j) = (f (laneOf (l.c.pair a.reg) 32 k)).testBit j))) ∧
      (q.queue.length + held.length ≥ 16 → own = false →
        ∃ t, exec i s = .next t ∧ SMap.get? t.ctx.lines key = some l ∧ sameLinesBut key s t ∧ (t.sfuOf l.c.here).queue = q.queue ∧
          unit ∈ (t.sfuOf l.c.here).refused)

/-- R146: the special values of the seven functions, as FP32 patterns; and for every operand that is no NaN, COS is even and TANH odd, bit for
bit. -/
def Obligations.SpecialFunctionValues : Prop :=
  (∀ r ∈ [(rcpVal, 0x00000000, 0x7F800000), (rcpVal, 0x80000000, 0xFF800000), (rcpVal, 0x7F800000, 0x00000000), (rcpVal, 0xFF800000, 0x80000000),
      (rcpVal, 0x40000000, 0x3F000000), (FpVal.rsqrt, 0x00000000, 0x7F800000), (FpVal.rsqrt, 0x80000000, 0xFF800000),
      (FpVal.rsqrt, 0xBF800000, 0x7FC00000), (FpVal.rsqrt, 0x7F800000, 0x00000000), (FpVal.rsqrt, 0x40800000, 0x3F000000),
      (exp2Val, 0xFF800000, 0x00000000), (exp2Val, 0x7F800000, 0x7F800000), (exp2Val, 0x43000000, 0x7F800000), (exp2Val, 0xC3160000, 0x00000000),
      (exp2Val, 0x40400000, 0x41000000), (log2Val, 0x00000000, 0xFF800000), (log2Val, 0x80000000, 0xFF800000), (log2Val, 0xBF800000, 0x7FC00000),
      (log2Val, 0x7F800000, 0x7F800000), (log2Val, 0x3F800000, 0x00000000), (sinVal, 0x00000000, 0x00000000), (sinVal, 0x80000000, 0x80000000),
      (sinVal, 0x7F800000, 0x7FC00000), (cosVal, 0x80000000, 0x3F800000), (cosVal, 0xFF800000, 0x7FC00000), (tanhVal, 0x80000000, 0x80000000),
      (tanhVal, 0x7F800000, 0x3F800000), (tanhVal, 0xFF800000, 0xBF800000), (tanhVal, 0x7FC00001, 0x7FC00000)],
    sfuApply r.1 r.2.1 = r.2.2) ∧
  (∀ x < 2 ^ 31, fp32.decode x ≠ .nan →
    sfuApply cosVal (2 ^ 31 + x) = sfuApply cosVal x ∧ sfuApply tanhVal (2 ^ 31 + x) = 2 ^ 31 + sfuApply tanhVal x)

/-- Integer vectors. -/
def Obligations.VectorInteger : Prop := vectorArithmetic ∧ vectorBitwise

/-- Moving lanes, and comparing them. -/
def Obligations.VectorMovementAndCompare : Prop := vectorMovement ∧ vectorCompare

/-- Float vectors and their conversions. -/
def Obligations.VectorFloatAndConvert : Prop := vectorFloat ∧ vectorConvert

/-- Scalar float results and conversions. -/
def Obligations.ScalarFloatResults : Prop := scalarFloat ∧ scalarConvert

/-- The results that come later: divides, roots and special functions. -/
def Obligations.LongResultsStart : Prop := divideAndRoot ∧ specialFunctionsQueue

/-! ### Loads, stores, atomics, fences, ranges (R149 to R163) -/

/-- The turn of the word is idle: its context stays RUNNING where it was, and nothing else changes; it is tried again (R150). -/
def Idles (i : Instr) (s : State) (key : Nat) (l : Line) : Prop :=
  ∃ t, exec i s = .next t ∧ SMap.get? t.ctx.lines key = some l ∧ sameLinesBut key s t ∧ sameMemoryBut key s t ∧ sameElse s t

/-- Translation of n bytes from `va` for an access of the context. -/
def translatesTo (s : State) (l : Line) (m : AccMode) (va : VAddr) (n : Nat) : Except (AccFault × Nat) (List Nat × List Bool) :=
  s.transBytes l.c.here l.c.asid l.c.level .context m va.toNat n

/-- The access of the word meets a page whose home is the other cluster `dest`: the context leaves for it with its PC at the access, once its
requests are acknowledged (R151, R167). -/
def LeavesFor (i : Instr) (s : State) (key : Nat) (l : Line) (dest : Nat) : Prop :=
  let obj : BitVec 60 := match l.reissue with
    | none => 0
    | some a => a.setWidth 60 ||| 1
  (s.unacked key = true → ∃ t, exec i s = .next t ∧ SMap.get? t.ctx.lines key = some { l with goTo := some (dest, obj) } ∧ sameLinesBut key s t ∧
    sameMemoryBut key s t ∧ sameElse s t) ∧
  (s.unacked key = false → (s.fl.reds.any fun r => r.line == key) = false →
    ∃ t l', exec i s = .next t ∧ SMap.get? t.ctx.lines key = some l' ∧ l'.place = .transit dest ∧ l'.c.waitKind = 6 ∧ l'.c.waitObj = obj ∧
      l'.c.st.state = .inTransit ∧ l'.c.pc = l.c.pc ∧ l'.c.g = l.c.g ∧ l'.c.p = l.c.p ∧ l'.c.st.full = l.c.st.full ∧ l'.c.st.pend = l.c.st.pend ∧
      (∀ c u sl, l.place = .slot c u sl → (t.slot c u sl).line = none) ∧ sameLinesBut key s t ∧ sameMemoryBut key s t ∧ t.mem = s.mem ∧
      t.fl = s.fl ∧ t.eng = s.eng ∧ t.groups = s.groups ∧ t.asids = s.asids ∧ t.launch = s.launch ∧ t.mgmt = s.mgmt)

/-- A load of class L issues: its destination becomes pending and the access is in flight, with its bytes where they translate now; the
registers keep their values until it lands. -/
def LoadStarts (i : Instr) (s : State) (h : Head) (key : Nat) (l : Line) (dst : BitVec 8) (kind : AccessKind) (va : VAddr) : Prop :=
  ∃ (a : Access) (dies : BitVec 4),
    CompletesInFlight i s h key l (fun m => (m.pending dst).touch dies)
      { s.fl with pend := s.fl.pend ++ [{ line := key, clear := dst, what := .access a, wake := false, tag := none, seq := s.sched.seq + 1 }] } ∧
    a.kind = kind ∧ a.va = va ∧ a.pc = l.at_ ∧ a.asid = l.c.asid ∧ a.priv = l.c.st.priv ∧ a.cluster = l.c.here ∧ a.acq = false ∧ a.rel = false ∧
    a.word = h.word ∧ a.tags = [] ∧ a.merged = [] ∧
    (∀ pas swc, translatesTo s l .read va kind.len = .ok (pas, swc) → a.pas = some pas ∧ a.swc = swc ∧ dies = s.diesOfPas pas) ∧
    (∀ e, translatesTo s l .read va kind.len = .error e → a.pas = none ∧ dies = 0)

/-- R149, R150, R153, R155, R157: LD and LDV issue from ga + OFF, a re-issued one from the replay address in its destination; a misaligned
address traps; nothing issues while an earlier load of the context is not translated. -/
def loadsIssue : Prop :=
  ∀ (g : Guard) (la : BitVec 4) (w : LoadWidth) (d : Reg) (a : Src) (off : BitVec 15) (s : State) (key : Nat) (l : Line),
    let va := if l.reissue.isSome then (l.c.reg d).setWidth 57 else effAddr (l.c.src a) off
    ∀ r ∈ [(Instr.ld g la w d a off, AccessKind.ld w, regMask d, loadBytes w), (.ldv g la d a off, .ldv, pairMask d, 16)],
      let h := { headLong r.1 g la (r.2.2.1 ||| a.nameMask) a.takeMask with again := some r.2.2.1 }
      Issues h s key l →
        (s.memBusy key l = false → va.toNat % r.2.2.2 = 0 → LoadStarts r.1 s h key l r.2.2.1 r.2.1 va) ∧
        (s.memBusy key l = false → va.toNat % r.2.2.2 ≠ 0 → Traps r.1 s h key l 0x04 0 (va.setWidth 64)) ∧
        (s.memBusy key l = true → Idles r.1 s key l)

/-- The formats of R47 by code, and their element bytes: T6 counts as one byte. -/
def elementSize (fmt : Nat) : Nat :=
  match fmt with
  | 2 => 2
  | 3 => 4
  | 4 => 8
  | 5 => 2
  | 6 => 2
  | 7 => 4
  | 8 => 8
  | _ => 1

/-- R48, R158: the element's address counts elements, and groups of three bytes for T6, from the fat pointer's address. -/
def elementAddr (p idx : Word) (off : BitVec 15) : VAddr :=
  let i := idx.toInt + off.toInt
  BitVec.ofInt 57 ((p.toNat % 2 ^ 57 : Nat) + if p.toNat / 2 ^ 60 = 10 then 3 * (i / 4) else i * elementSize (p.toNat / 2 ^ 60))

/-- R48: the fat pointer's format is one that a typed access refuses. -/
def refusedFormat (p : Word) : Prop :=
  p.toNat / 2 ^ 60 = 0 ∨ 12 ≤ p.toNat / 2 ^ 60 ∨ (p.toNat / 2 ^ 57 % 8 ≠ 0 ∧ p.toNat / 2 ^ 60 ∉ [1, 9, 10, 11])

/-- R48, R149, R158: LDT checks its format, then its alignment, and then issues; that order of its two checks is the model's choice (log entry
73). -/
def typedLoadIssues : Prop :=
  ∀ (g : Guard) (la : BitVec 4) (d : Reg) (a b : Src) (off : BitVec 15) (s : State) (key : Nat) (l : Line),
    let i := Instr.ldt g la d a b off
    let h := { headLong i g la (names3 d a b) (takes2 a b) with again := some (regMask d) }
    let p := l.c.src a
    let fmt := p.toNat / 2 ^ 60
    let va := elementAddr p (l.c.src b) off
    let pos := (((l.c.src b).toInt + off.toInt) % 4).toNat
    Issues h s key l → l.reissue = none → s.memBusy key l = false →
      (refusedFormat p → Traps i s h key l 0x06 0 0) ∧
      (¬ refusedFormat p → va.toNat % elementSize fmt ≠ 0 → Traps i s h key l 0x04 0 (va.setWidth 64)) ∧
      (¬ refusedFormat p → va.toNat % elementSize fmt = 0 → LoadStarts i s h key l (regMask d) (.ldt fmt pos) va)

/-- What a store leaves: the bytes at `pas` are on their way, in order, with the releases that they carry, its own and those of the context's
earlier fences; every byte of memory reads as
before until they are performed. -/
def StoreLeaves (i : Instr) (s : State) (h : Head) (key : Nat) (l : Line) (pas : List Nat) (swc : List Bool) (bytes mask : List Byte)
    (rel : Option Scope) : Prop :=
  ∃ (t : State) (x : Store) (l' : Line), exec i s = .next t ∧ t.mem = { s.mem with stores := s.mem.stores ++ [x] } ∧
    x.who = ctxName key l ∧ x.asid = l.c.asid ∧ x.cluster = l.c.here ∧ x.swc = swc ∧ x.pas = pas ∧ x.bytes = bytes ∧ x.mask = mask ∧
    x.seq = s.sched.seq + 1 ∧ x.rel = rel.isSome ∧
    (∀ sc, rel = some sc → x.scope = sc ∧ l'.c.floor = s.timeOf (s.past h l).c ∧
      x.tags = { time := s.timeOf (s.past h l).c, scope := sc, cluster := l.c.here, auto := false, who := some (ctxName key l), seq := x.seq } ::
        l.fenceTags) ∧
    (rel = none → x.tags = l.fenceTags ∧ l'.c.floor = (s.past h l).c.floor) ∧
    SMap.get? t.ctx.lines key = some l' ∧
    l' = { s.past h l with c := { (s.past h l).c with floor := l'.c.floor, st := { (s.past h l).c.st with dies := l.c.st.dies ||| s.diesOfPas pas } } } ∧
    sameLinesBut key s t ∧ sameMemoryBut key s t ∧ t.fl = s.fl ∧ t.eng = s.eng ∧ t.groups = s.groups ∧ t.chains = s.chains ∧ t.asids = s.asids ∧
    t.launch = s.launch ∧ t.fab = s.fab ∧ t.mgmt = s.mgmt ∧ t.time = s.time

/-- The trap code of a fault that translation finds (R236). -/
def faultCode (f : AccFault) : BitVec 8 :=
  match f with
  | .translation => 0x10
  | .permission => 0x11
  | .attrFault => 0x12
  | .dieLost => 0x20
  | .remote _ => 0

/-- R149, R150, R151, R155, R157, R286: a store of n bytes leaves at the bytes that its address ga + OFF translates to; a misaligned address, or
a translation that fails, traps with nothing done, and a page whose home is another cluster makes the context leave for it. ST.rel is a release
that carries the context's time. -/
def storesIssue : Prop :=
  ∀ (g : Guard) (w : StoreWidth) (sc : Scope) (a b : Src) (off : BitVec 15) (s : State) (key : Nat) (l : Line),
    let va := effAddr (l.c.src a) off
    ∀ r ∈ [(Instr.st g w a b off, a.nameMask ||| b.nameMask, takes2 a b, storeBytes w, (l.c.src b).toNat, (none : Option Scope)),
        (.stRel g w sc a b off, a.nameMask ||| b.nameMask, takes2 a b, storeBytes w, (l.c.src b).toNat, some sc),
        (.stv g a b off, a.nameMask ||| pairName b, a.takeMask ||| b.takePair, 16, (l.c.pair b.reg).toNat, none)],
      let (i, names, takes, n, value, rel) := r
      let h := headOf i g names takes
      Issues h s key l →
        (s.memBusy key l = true → Idles i s key l) ∧
        (s.memBusy key l = false → va.toNat % n ≠ 0 → Traps i s h key l 0x04 0 (va.setWidth 64)) ∧
        (s.memBusy key l = false → va.toNat % n = 0 →
          (∀ pas swc, translatesTo s l .write va n = .ok (pas, swc) →
            StoreLeaves i s h key l pas swc (leBytes n value) (List.replicate n 0xFF) rel) ∧
          (∀ f x, translatesTo s l .write va n = .error (f, x) → (∀ c, f ≠ .remote c) →
            Traps i s h key l (faultCode f) 0 (BitVec.ofNat 64 x)) ∧
          (∀ c x, translatesTo s l .write va n = .error (.remote c, x) → LeavesFor i s key l c))

/-- R42, R158: the bits of an element that STT makes of gd: an integer saturated to its format, FP32 and FP64 unchanged, another format
rounded from FP32. -/
def elementBits (fmt : Nat) (x : Word) : Nat :=
  match fmt with
  | 1 => (max (-128) (min 127 x.toInt) % 2 ^ 8).toNat
  | 2 => (max (-2 ^ 15) (min (2 ^ 15 - 1) x.toInt) % 2 ^ 16).toNat
  | 3 => (max (-2 ^ 31) (min (2 ^ 31 - 1) x.toInt) % 2 ^ 32).toNat
  | 4 => x.toNat
  | 5 => fp16.round .rne (fp32.decode (x.toNat % 2 ^ 32))
  | 6 => bf16.round .rne (fp32.decode (x.toNat % 2 ^ 32))
  | 7 => x.toNat % 2 ^ 32
  | 8 => x.toNat
  | 9 => encodeTaper 8 (fp32.decode (x.toNat % 2 ^ 32))
  | 10 => encodeTaper 6 (fp32.decode (x.toNat % 2 ^ 32))
  | _ => (max 0 (min 255 x.toInt)).toNat

/-- R150, R151, R158: STT stores one element; of a T6 group of three bytes it changes the element's six bits alone. A translation that fails
traps, and a page whose home is another cluster makes the context leave for it. The format is checked before the alignment by the model's choice
(log entry 73). -/
def typedStoreIssues : Prop :=
  ∀ (g : Guard) (d : Reg) (a b : Src) (off : BitVec 15) (s : State) (key : Nat) (l : Line),
    let i := Instr.stt g d a b off
    let h := headOf i g (names3 d a b) (takes2 a b)
    let p := l.c.src a
    let fmt := p.toNat / 2 ^ 60
    let va := elementAddr p (l.c.src b) off
    let pos := (((l.c.src b).toInt + off.toInt) % 4).toNat
    let v := elementBits fmt (l.c.reg d)
    let n := if fmt = 10 then 3 else elementSize fmt
    let bytes := if fmt = 10 then leBytes 3 (v * 2 ^ (6 * pos)) else leBytes n v
    let mask := if fmt = 10 then leBytes 3 (63 * 2 ^ (6 * pos)) else List.replicate n 0xFF
    Issues h s key l → s.memBusy key l = false →
      (refusedFormat p → Traps i s h key l 0x06 0 0) ∧
      (¬ refusedFormat p → va.toNat % elementSize fmt ≠ 0 → Traps i s h key l 0x04 0 (va.setWidth 64)) ∧
      (¬ refusedFormat p → va.toNat % elementSize fmt = 0 → ∀ pas swc, translatesTo s l .write va n = .ok (pas, swc) →
        StoreLeaves i s h key l pas swc bytes mask none) ∧
      (¬ refusedFormat p → va.toNat % elementSize fmt = 0 → ∀ f x, translatesTo s l .write va n = .error (f, x) → (∀ c, f ≠ .remote c) →
        Traps i s h key l (faultCode f) 0 (BitVec.ofNat 64 x)) ∧
      (¬ refusedFormat p → va.toNat % elementSize fmt = 0 → ∀ c x, translatesTo s l .write va n = .error (.remote c, x) →
        LeavesFor i s key l c)

/-- None of these bytes is of a pool entry, so that a write of them puts no line onto a pool (R349, R351). -/
def noPoolBytes (s : State) (pas : List Nat) : Prop :=
  s.mgmt.based = false ∨ ∀ pa ∈ pas, pa < s.mgmt.ptBase ∨ s.mgmt.ptBase + 32 * 4096 * 192 ≤ pa

/-- The stores of a context to the lines of these bytes went to no die's copy but this die's. -/
def StoresHere (s : State) (who die : Nat) (pas : List Nat) : Prop :=
  ∀ pa ∈ pas, ∀ y ∈ SMap.getD s.mem.wrote (pa / 128) [], y.1 = who → y.2 = die

/-- R289, R293, R379: a store on its way is performed whole: each byte at its addresses takes the stored bits under the mask, through the die's
own copy for an SWC page, and no other byte of memory changes. It waits for what must come before it, and until its request has come to its
slice and its turn there, unless the die of either end has gone; then it does not happen yet. The context's stores to the line went to no die's
copy but this die's (`copiesComeHome` says what happens to those where they did). -/
def Obligations.StorePerformed : Prop :=
  ∀ (s : State) (k : Nat) (x : Store), nth? s.mem.stores k = some x →
    let r := s.storeRequest x
    (s.canDrain x = false → act (.drain k) s = .refused (.notEnabled "STORE")) ∧
    (s.canDrain x = true → s.portGone r.src r.dst = false → s.mayPerform r = false → act (.drain k) s = .refused (.notEnabled "FABRIC")) ∧
    (s.canDrain x = true → (s.portGone r.src r.dst = true ∧ s.hostUp r.lines = true) ∨ s.mayPerform r = true → Memory.wf s.mem.bytes = true →
      StoresHere s x.who (dieOf x.cluster) x.pas →
      (∀ pa ∈ x.pas, (s.seenBy x.seq).homeGone pa = false ∧ s.lineAt pa = none) → noPoolBytes s x.pas → x.pas.Nodup → x.bytes.length = x.pas.length →
      x.mask.length = x.pas.length →
      ∃ t, act (.drain k) s = .next t ∧ (∀ pa, pa ∉ x.pas → t.readByte pa = s.readByte pa) ∧
        t.ctx.lines = s.ctx.lines ∧ t.mem.stores = removeAt k s.mem.stores ∧ t.fl = s.fl ∧ t.eng = s.eng ∧ t.asids = s.asids ∧
        (∀ n < x.pas.length,
          let pa := x.pas.getD n 0
          let m := x.mask.getD n 0
          (x.swc.getD n false = false → t.readByte pa = ((s.readByte pa &&& ~~~m) ||| (x.bytes.getD n 0 &&& m))) ∧
          (x.swc.getD n false = true → t.seenByte (dieOf x.cluster) true pa =
            ((s.seenByte (dieOf x.cluster) true pa &&& ~~~m) ||| (x.bytes.getD n 0 &&& m)))))

/-- The value that a load of one register leaves for the little-endian number x of its bytes (R75, R158): extended as its width says, or the
element of its format as an integer or in FP32. -/
def loadedValue (k : AccessKind) (x : Nat) : Word :=
  let wide := fun (w : LoadWidth) => match w with
    | .s8 => BitVec.ofInt 64 ((x : Int).bmod (2 ^ 8))
    | .s16 => BitVec.ofInt 64 ((x : Int).bmod (2 ^ 16))
    | .s32 => BitVec.ofInt 64 ((x : Int).bmod (2 ^ 32))
    | _ => BitVec.ofNat 64 x
  match k with
  | .ld w => wide w
  | .acq w => wide w
  | .ldt fmt pos =>
    match fmt with
    | 1 => BitVec.ofInt 64 ((x : Int).bmod (2 ^ 8))
    | 2 => BitVec.ofInt 64 ((x : Int).bmod (2 ^ 16))
    | 3 => BitVec.ofInt 64 ((x : Int).bmod (2 ^ 32))
    | 5 => BitVec.ofNat 64 (fp32.round .rne (fp16.decode x))
    | 6 => BitVec.ofNat 64 (fp32.round .rne (bf16.decode x))
    | 9 => BitVec.ofNat 64 (fp32.round .rne (decodeTaper 8 x))
    | 10 => BitVec.ofNat 64 (fp32.round .rne (decodeTaper 6 (x / 2 ^ (6 * pos) % 64)))
    | _ => BitVec.ofNat 64 x
  | _ => 0

/-- R75, R81, R155 to R158, R296: a load lands: its registers take the bytes at its addresses, LDV's the lower half first, and their pending bits
clear; the context of an LD.acq, which waits for it, is READY once no bit is pending, and has acquired the releases that it meets. No other line
and no byte of memory changes. -/
def loadLands : Prop :=
  ∀ (s : State) (k : Nat) (p : Pending) (a : Access) (pas : List Nat) (d : Reg) (l : Line),
    let dst := if a.kind = .ldv then pairMask d else regMask d
    let waits := l.c.st.state = .waiting ∧ l.c.waitKind = 8 ∧ l.watch = 0xFF ∧ l.cancelled = false ∧ ∃ c u sl, l.place = .slot c u sl
    nth? s.fl.pend k = some p → p.what = .access a → (∀ op wide b c, a.kind ≠ .amo op wide b c) → (∀ fmt pos, a.kind = .ldt fmt pos → 0 < fmt ∧ fmt < 12) →
    (a.kind = .ldv → d.val % 2 = 0) → a.pas = some pas → (∀ b ∈ a.swc, b = false) → p.clear = dst → p.wake = false → p.tag = none →
    s.canPerform p a = true → (∀ x ∈ s.mem.stores, x.who ≠ s.nameOf p.line) → (∀ pa ∈ pas, pa / 128 ≠ p.line) →
    SMap.get? s.ctx.lines p.line = some l → l.lost = 0 → (l.c.st.state = .running ∨ waits) →
    let x := leNat (s.readBytes pas)
    ∃ t l', exec (.lineWrite k) s = .next t ∧ SMap.get? t.ctx.lines p.line = some l' ∧
      (a.kind ≠ .ldv → ∀ r, l'.c.reg r = if r = d then loadedValue a.kind x else l.c.reg r) ∧
      (a.kind = .ldv → ∀ r : Reg, l'.c.reg r =
        if r = d then BitVec.ofNat 64 (x % 2 ^ 64) else if r.val = d.val + 1 then BitVec.ofNat 64 (x / 2 ^ 64) else l.c.reg r) ∧
      l'.c.st = { l.c.st with
        pend := l.c.st.pend &&& ~~~dst, dies := l.c.st.dies ||| s.diesOfPas pas
        state := if l.c.st.state = .waiting ∧ l.c.st.pend &&& ~~~dst = 0 then .ready else l.c.st.state } ∧
      (a.acq = false → l'.c.floor = l.c.floor) ∧
      (a.acq = true → l'.c.floor = (acquireTags l.c a.scope a.cluster (ctxName p.line l) (s.tagsAt (dieOf a.cluster) a.swc pas)).floor) ∧
      l'.c.pc = l.c.pc ∧ l'.c.p = l.c.p ∧
      sameLinesBut p.line s t ∧ sameMemoryBut p.line s t ∧ t.fl = { s.fl with pend := removeAt k s.fl.pend } ∧ t.mem = s.mem

/-- R149, R150, R151, R155, R159: an AMO and an LD.acq translate before they issue; then the access is in flight and gd pending, after LD.acq the
context waits with kind 8; a misaligned address or a failed translation traps, and a page whose home is another cluster makes the context leave
for it. -/
def Obligations.AtomicsAndAcquiresIssue : Prop :=
  ∀ (g : Guard) (la : BitVec 4) (op : AmoOp) (wide : Bool) (ord : Order) (sc : Scope) (w : LoadWidth) (d : Reg) (a b : Src) (off : BitVec 15)
    (s : State) (key : Nat) (l : Line),
    let amo := Instr.amo g la op wide ord sc d a b
    let acq := Instr.ldAcq g w sc d a off
    let hm := headLong amo g la (names3 d a b) (takes2 a b)
    let hq := headWait acq g (names2 d a) a.takeMask
    let va := effAddr (l.c.src a) 0
    let n := if wide then 8 else 4
    let vq := effAddr (l.c.src a) off
    let flight := fun (x : Access) => { s.fl with pend := s.fl.pend ++
      [{ line := key, clear := regMask d, what := .access x, wake := false, tag := none, seq := s.sched.seq + 1 }] }
    (Issues hm s key l → s.memBusy key l = false →
      (va.toNat % n ≠ 0 → Traps amo s hm key l 0x04 0 (va.setWidth 64)) ∧
      (va.toNat % n = 0 → ∀ f x, translatesTo s l .write va n = .error (f, x) → (∀ c, f ≠ .remote c) →
        Traps amo s hm key l (faultCode f) 0 (BitVec.ofNat 64 x)) ∧
      (va.toNat % n = 0 → ∀ c x, translatesTo s l .write va n = .error (.remote c, x) → LeavesFor amo s key l c) ∧
      (va.toNat % n = 0 → ∀ pas swc, translatesTo s l .write va n = .ok (pas, swc) →
        ∃ (x : Access) (f : Line → Line), CompletesInFlight amo s hm key l f (flight x) ∧ x.kind = .amo op wide (l.c.src b) (l.c.reg d) ∧
          x.pas = some pas ∧ x.swc = swc ∧ (x.acq = true ↔ ord = .acquire ∨ ord = .acqRel) ∧ (x.rel = true ↔ ord = .release ∨ ord = .acqRel) ∧
          x.scope = sc ∧ x.merged = [] ∧ (x.rel = false → x.tags = l.fenceTags) ∧
          (x.rel = true → x.tags = { time := s.timeOf (s.past hm l).c, scope := sc, cluster := l.c.here, auto := false, who := some (ctxName key l)
                                     seq := s.sched.seq + 1 } :: l.fenceTags) ∧
          (f (s.past hm l)).c.st.pend = l.c.st.pend ||| regMask d ∧ (f (s.past hm l)).c.g = l.c.g)) ∧
    (Issues hq s key l → s.memBusy key l = false →
      (vq.toNat % loadBytes w ≠ 0 → Traps acq s hq key l 0x04 0 (vq.setWidth 64)) ∧
      (vq.toNat % loadBytes w = 0 → ∀ f x, translatesTo s l .read vq (loadBytes w) = .error (f, x) → (∀ c, f ≠ .remote c) →
        Traps acq s hq key l (faultCode f) 0 (BitVec.ofNat 64 x)) ∧
      (vq.toNat % loadBytes w = 0 → ∀ c x, translatesTo s l .read vq (loadBytes w) = .error (.remote c, x) → LeavesFor acq s key l c) ∧
      (vq.toNat % loadBytes w = 0 → ∀ pas swc, translatesTo s l .read vq (loadBytes w) = .ok (pas, swc) →
        ∃ (x : Access) (f : Line → Line), CompletesInFlight acq s hq key l f (flight x) ∧ x.kind = .acq w ∧ x.pas = some pas ∧ x.acq = true ∧
          x.scope = sc ∧ (f (s.past hq l)).c.st.pend = l.c.st.pend ||| regMask d ∧ (f (s.past hq l)).c.st.state = .waiting ∧
          (f (s.past hq l)).c.waitKind = 8 ∧ (f (s.past hq l)).c.g = l.c.g))

/-- A byte at its home slice once this copy of its line has been written back: the copy's byte where it is dirty (R289). -/
def broughtByte (s : State) (c : DieCopy) (pa : Nat) : Byte :=
  if c.dirty.getLsbD (pa % 128) then (c.data >>> (8 * (pa % 128))).setWidth 8 else s.readByte pa

/-- A byte at its home slice once a die has given up its copy of the line (R289). -/
def givenUpByte (s : State) (die : Nat) (swc : Bool) (pa : Nat) : Byte :=
  match (s.viaCopy die swc pa).bind (SMap.get? s.mem.copies) with
  | some c => broughtByte s c pa
  | none => s.readByte pa

/-- R159, R289: the read and the write of an AMO are one action at the home slice: memory takes the operation's new word where it stood, no other
byte changes, and gd takes the old word, sign-extended from 32 bits but for MINU and MAXU. The issuing die's copy of an SWC line is given up first
(log entry 64). Its own stores went to no other die's copy of the line, and nothing of the copy that it gives up is uncorrectable. -/
def atomicPerformed : Prop :=
  ∀ (s : State) (k : Nat) (p : Pending) (a : Access) (op : AmoOp) (wide : Bool) (b cmp : Word) (pas : List Nat) (d : Reg) (l : Line),
    nth? s.fl.pend k = some p → p.what = .access a → a.kind = .amo op wide b cmp → a.pas = some pas → a.merged = [] →
    p.clear = regMask d → p.wake = false → p.tag = none → s.canPerform p a = true → Memory.wf s.mem.bytes = true →
    pas.Nodup → pas.length = (if wide then 8 else 4) → (∀ pa ∈ pas, pa < 2 ^ 52 ∧ s.lineAt pa = none) → noPoolBytes s pas →
    SMap.get? s.ctx.lines p.line = some l → l.lost = 0 → l.c.st.state = .running →
    StoresHere s (s.nameOf p.line) (dieOf a.cluster) pas →
    (∀ y ∈ flagged pas a.swc, ∀ c, (s.viaCopy (dieOf a.cluster) y.2 y.1).bind (SMap.get? s.mem.copies) = some c → c.bad = 0) →
    let w : Nat := if wide then 64 else 32
    let die := dieOf a.cluster
    let x := leNat ((flagged pas a.swc).map fun y => givenUpByte s die y.2 y.1)
    let y : Nat := b.toNat % 2 ^ w
    let X := (x : Int).bmod (2 ^ w)
    let Y := (y : Int).bmod (2 ^ w)
    let n : Nat := match op with
      | .add => (x + y) % 2 ^ w
      | .min => if X ≤ Y then x else y
      | .max => if X ≥ Y then x else y
      | .minu => min x y
      | .maxu => max x y
      | .and => x &&& y
      | .or => x ||| y
      | .xor => x ^^^ y
      | .swp => y
      | .cas => if x = cmp.toNat % 2 ^ w then y else x
    ∃ t l', exec (.lineWrite k) s = .next t ∧ leNat (t.readBytes pas) = n ∧
      (∀ pa, pa ∉ pas → pa / 128 ≠ p.line →
        t.readByte pa = givenUpByte s die ((flagged pas a.swc).any fun y => y.2 && y.1 / 128 == pa / 128) pa) ∧
      SMap.get? t.ctx.lines p.line = some l' ∧ sameLinesBut p.line s t ∧
      (∀ r, l'.c.reg r = if r = d then (if wide ∨ op = .minu ∨ op = .maxu then BitVec.ofNat 64 x else BitVec.ofInt 64 X) else l.c.reg r) ∧
      l'.c.st.pend = l.c.st.pend &&& ~~~regMask d

/-- A context past an ordering or range instruction waits with kind 10, object 0, its registers unchanged. -/
def WaitsPast (m m' : Line) (kind : BitVec 4) : Prop :=
  m'.c.st = { m.c.st with state := .waiting } ∧ m'.c.waitKind = kind ∧ m'.c.waitObj = 0 ∧ m'.c.pc = m.c.pc ∧ m'.c.g = m.c.g ∧ m'.c.p = m.c.p

/-- R160, R215, R230, R235: a fence, a TLB invalidation and MASKCLR are in flight while the context waits; a TLBINV whose range passes 2^57 traps, and
one of no bytes only advances. -/
def orderingsIssue : Prop :=
  ∀ (g : Guard) (ord : Order) (sc : Scope) (a b : Src) (s : State) (key : Nat) (l : Line),
    let starts := fun (i : Instr) (h : Head) (kind : OrderKind) (wk : BitVec 4) => Issues h s key l →
      ∃ f, CompletesInFlight i s h key l f { s.fl with orders := s.fl.orders ++
          [{ line := key, kind := kind, pc := l.at_, asid := l.c.asid, cluster := l.c.here, seq := s.sched.seq + 1 }] } ∧
        WaitsPast (s.past h l) (f (s.past h l)) wk
    let lo := (l.c.src a).toNat % 2 ^ 57
    let n := (l.c.src b).toNat
    let ht := headSuper (.tlbinvRange g sc a b) g (a.nameMask ||| b.nameMask) (takes2 a b)
    starts (.fence g ord sc) (headWait (.fence g ord sc) g 0 0) (.fence ord sc) 10 ∧
    starts (.fenceEv g) (headEventWait (.fenceEv g) g 0 0) .fenceEv 3 ∧
    starts (.tlbinvAll g sc) (headSuper (.tlbinvAll g sc) g 0 0) (.tlbinv sc 0 (2 ^ 57)) 10 ∧
    starts (.maskclr g) (headWait (.maskclr g) g 0 0) .maskclr 10 ∧
    (lo + n ≤ 2 ^ 57 → n ≠ 0 → starts (.tlbinvRange g sc a b) ht (.tlbinv sc lo (lo + n)) 10) ∧
    (Issues ht s key l → n = 0 → Completes (.tlbinvRange g sc a b) s ht key l id) ∧
    (Issues ht s key l → lo + n > 2 ^ 57 → Traps (.tlbinvRange g sc a b) s ht key l 0x08 0 0)

/-- R160, R230, R235: an ordering completes when, and only when, what it orders has completed: earlier reads for acquire, earlier writes for
release, both for sc and acqrel, and what the releases stand behind that its reads have met (R295, R296); the context is then READY or runs on, or
retires where a CANCEL has marked it and nothing is pending (R250); MASKCLR leaves its own die alone in the touched-dies mask, and a TLBINV has
dropped the old translations of its range. -/
def orderingsComplete : Prop :=
  ∀ (s : State) (k : Nat) (r : OrderReq) (l : Line), nth? s.fl.orders k = some r → SMap.get? s.ctx.lines r.line = some l → l.lost = 0 →
    l.c.st.state = .waiting → l.c.waitKind = (if r.kind = .fenceEv then 3 else 10) → (∃ c u sl, l.place = .slot c u sl) →
    let reads := s.readsDone r.line r.seq = true
    let writes := s.writesDone r.line r.seq = true
    let met := fun (sc : Scope) => ∀ x ∈ l.heard, x.syncs sc r.cluster (ctxName r.line l) = true → s.tagOpen x = false
    let ready := match r.kind with
      | .fence ord sc => (ord = .release ∨ reads ∧ met sc) ∧ (ord = .acquire ∨ writes)
      | .fenceEv => ∀ b ∈ s.fl.sends, ∀ e ∈ b.2, e.line = some r.line → e.id < r.seq → e.what.isEvent = false
      | .tlbinv _ _ _ => writes
      | .maskclr => reads ∧ met .pkg ∧ writes ∧ s.unacked r.line = false ∧ l.c.st.pend = 0
    (¬ ready → exec (.orderingComplete k) s = .refused (.notEnabled "ORDERING_COMPLETE")) ∧
    (ready → l.cancelled = true → l.c.st.pend = 0 → ∃ (u : State) (l' : Line), exec (.orderingComplete k) s = .next (u.retire r.line l') ∧ l'.c.g = l.c.g ∧
      l'.c.pc = l.c.pc ∧ u.fl = { s.fl with orders := removeAt k s.fl.orders } ∧ u.ctx = s.ctx ∧ u.mem.bytes = s.mem.bytes) ∧
    (ready → (l.cancelled = false ∨ l.c.st.pend ≠ 0) → ∃ t l', exec (.orderingComplete k) s = .next t ∧ SMap.get? t.ctx.lines r.line = some l' ∧ l'.c.st.state = .ready ∧
      l'.c.pc = l.c.pc ∧ l'.c.g = l.c.g ∧ t.fl = { s.fl with orders := removeAt k s.fl.orders } ∧ sameLinesBut r.line s t ∧
      l'.c.st.dies = (if r.kind = .maskclr then 1#4 <<< l.c.dieNum else l.c.st.dies) ∧
      (∀ ord sc, r.kind = .fence ord sc →
        l'.c.floor = if ord = .release then l.c.floor else (acquireTags l.c sc r.cluster (ctxName r.line l) l.heard).floor) ∧ t.mem.bytes = s.mem.bytes ∧ t.mem.pages = s.mem.pages ∧
      (∀ x, x ∈ t.mem.stale ↔ x ∈ s.mem.stale ∧ ∀ sc lo hi, r.kind = .tlbinv sc lo hi →
        ¬ (inScope sc r.cluster x.1 = true ∧ x.2.asid = r.asid ∧ x.2.va < hi ∧ lo < x.2.va + x.2.size)))

/-- R161, R162: PREF changes nothing. A range operation checks DISCARD's alignment, then its end, and then its length: that order is the model's
choice (log entry 13). A length of 0 does nothing; otherwise the context
waits with kind 10 while it proceeds. -/
def rangesAndPrefetch : Prop :=
  ∀ (g : Guard) (sc : Scope) (wr : Bool) (pa : Src) (off : BitVec 15) (a b : Reg) (s : State) (key : Nat) (l : Line),
    let hp := headOf (.pref g wr pa off) g pa.nameMask pa.takeMask
    let start := (l.c.reg a).toNat % 2 ^ 57
    let len := (l.c.reg b).toNat
    (Issues hp s key l → Completes (.pref g wr pa off) s hp key l id) ∧
    ∀ r ∈ [(Instr.clean g sc a b, RangeKind.clean), (.inv g sc a b, .inv), (.discard g sc a b, .discard)],
      let h := headWait r.1 g (regMask a ||| regMask b) 0
      let askew := r.2 = .discard ∧ (start % 128 ≠ 0 ∨ len % 128 ≠ 0)
      Issues h s key l →
        (askew → Traps r.1 s h key l 0x04 0 (BitVec.ofNat 64 start)) ∧ (¬ askew → start + len > 2 ^ 57 → Traps r.1 s h key l 0x08 0 0) ∧
        (¬ askew → len = 0 → Completes r.1 s h key l id) ∧
        (¬ askew → start + len ≤ 2 ^ 57 → len ≠ 0 →
          ∃ f x, CompletesInFlight r.1 s h key l f { s.fl with ranges := s.fl.ranges ++ [x] } ∧ WaitsPast (s.past h l) (f (s.past h l)) 10 ∧
            x.line = key ∧ x.kind = r.2 ∧ x.scope = sc ∧ x.areg = a.val ∧ x.breg = b.val ∧ x.cluster = l.c.here ∧ x.pc = l.at_)

/-- The three loads. -/
def Obligations.LoadsStart : Prop := loadsIssue ∧ typedLoadIssues

/-- The four stores. -/
def Obligations.StoresLeave : Prop := storesIssue ∧ typedStoreIssues

/-- A load and an atomic that land. -/
def Obligations.AccessesLand : Prop := loadLands ∧ atomicPerformed

/-- Fences, invalidations, range operations and the prefetch. -/
def Obligations.OrderingsAndRangesIssue : Prop := orderingsIssue ∧ rangesAndPrefetch

/-! ### Messages, tasks and the context itself (R164 to R178, R232) -/

/-- The context waits at the word, which issues again once it is woken: only its state and its wait word change, and nothing else does. -/
def WaitsHere (i : Instr) (s : State) (key : Nat) (l : Line) (kind : BitVec 4) (obj : BitVec 60) : Prop :=
  ∃ t l', exec i s = .next t ∧ SMap.get? t.ctx.lines key = some l' ∧
    l'.c = { l.c with waitKind := kind, waitObj := obj, st := { l.c.st with state := .waiting } } ∧
    sameLinesBut key s t ∧ sameMemoryBut key s t ∧ sameElse s t

/-- What is in flight with one more request, the next operation, in the send buffer of a context's cluster. -/
def sendAdded (s : State) (key : Nat) (l : Line) (what : SendWhat) (tags : List Tag) : Flight :=
  (s.setSends l.c.here (s.sendsOf l.c.here ++
    [{ id := s.sched.seq + 1, what := what, line := some key, asid := l.c.asid, pc := l.at_, tags := tags, hold := none, merged := [] }])).fl

/-- Word k of a SEND of n + 1 words from gb; the words beyond are 0. -/
def sentWord (l : Line) (b : Reg) (n : BitVec 2) (k : Nat) : Word := if k ≤ n.toNat then l.c.reg (regOf (b.val + k)) else 0

/-- R165, R166, R167: a SEND or DEP takes one of the 64 entries of its cluster's send buffer, touches the die of its target's home and goes on;
while no entry is free it waits with kind 4. The takes of what it sends happen as it issues. That its turn is idle while an earlier acquire, or an access
from before a move of its line, is in flight is the model's choice (log entry 15, for R296 and R300). -/
def sendsAndDeposits : Prop :=
  ∀ (g : Guard) (n : BitVec 2) (m : Reg) (a b : Src) (s : State) (key : Nat) (l : Line),
    let span := BitVec.ofNat 8 (((2 ^ (n.toNat + 1) - 1) * 2 ^ b.reg.val))
    let h := l.c.src a
    ∀ r ∈ [(Instr.send g n a b, a.nameMask ||| span, (a.takeMask ||| if b.take then span else 0),
          SendWhat.msg h (sentWord l b.reg n 0) (sentWord l b.reg n 1) (sentWord l b.reg n 2) (sentWord l b.reg n 3) (n.toNat + 1) .context),
        (.dep g m a b, a.nameMask ||| b.nameMask, takes2 a b, .dep h m.val (l.c.src b))],
      let hd := headWait r.1 g r.2.1 r.2.2.1
      Issues hd s key l →
        (s.orderBusy key l = false → (s.sendsOf l.c.here).length < 64 →
          CompletesInFlight r.1 s hd key l (fun x => x.touch (s.handleDie l.c.here l.c.asid h)) (sendAdded s key l r.2.2.2 l.fenceTags)) ∧
        (s.orderBusy key l = false → (s.sendsOf l.c.here).length ≥ 64 → WaitsHere r.1 s key l 4 0) ∧
        (s.orderBusy key l = true → Idles r.1 s key l)

/-- R170, R296: with a message in the inbox, RECV writes the four words of the head slot, moves the ring by one and acquires what a message of the
device carries; with none it waits with kind 2. That its turn is idle while an earlier acquire, or an access from before a move of its line, is in
flight (log entry 15), or while a plane or a port that its read needs is down (log entry 66), is the model's choice. -/
def receives : Prop :=
  ∀ (g : Guard) (d : Reg) (s : State) (key : Nat) (l : Line),
    let i := Instr.recv g d
    let h := headWait i g (quadMask d) 0
    let at_ := l.c.inboxBase.toNat * 512 + 32 * l.c.inboxHead.toNat
    Issues h s key l →
      (s.orderBusy key l = true → Idles i s key l) ∧
      (s.orderBusy key l = false → l.c.inboxCount = 0 → WaitsHere i s key l 2 0) ∧
      (s.orderBusy key l = false → l.c.inboxCount ≠ 0 → s.inReach l.c at_ 32 = false → Idles i s key l) ∧
      (s.orderBusy key l = false → l.c.inboxCount ≠ 0 → s.inReach l.c at_ 32 = true → d.val % 4 = 0 → ∀ pas swc, s.transBytes l.c.here l.c.asid l.c.level .engine .read at_ 32 = .ok (pas, swc) →
        s.poisoned pas = false →
        ∃ f, Completes i s h key l f ∧
          (f (s.past h l)).c.floor =
            (acquireTags (s.past h l).c .sys l.c.here 0 ((s.tagsAt l.c.dieNum [] (pas.take 1)).filter fun x => x.auto)).floor ∧
          (f (s.past h l)).c.inboxHead = l.c.inboxHead + 1 ∧ (f (s.past h l)).c.inboxCount = l.c.inboxCount - 1 ∧
          ∀ r : Reg, (f (s.past h l)).c.reg r = if d.val ≤ r.val ∧ r.val < d.val + 4 then
            BitVec.ofNat 64 (leNat (((s.readBytes pas).drop (8 * (r.val - d.val))).take 8)) else l.c.reg r) ∧
      (s.orderBusy key l = false → l.c.inboxCount ≠ 0 → ∀ f x, s.transBytes l.c.here l.c.asid l.c.level .engine .read at_ 32 = .error (f, x) → (∀ c, f ≠ .remote c) →
        Traps i s h key l (faultCode f) 0 (BitVec.ofNat 64 x))

/-- R171, R173: QRED makes gd and ga pending and hands their values to the reducer, or waits behind an earlier reduction of its context with
kind 8; RGET makes gd pending and sends its request, with a time-out of gb ticks, 2^20 − 1 at most. That an RGET touches the die of its target's
home as it issues is the model's reading (log entry 16; chapter 22, R387, says only what a loss then does). That the turn of either is idle while an
earlier acquire, or an access from before a move of its line, is in flight is the model's choice (log entry 15, for R296 and R300). -/
def reductionsAndRemoteReads : Prop :=
  ∀ (g : Guard) (la : BitVec 4) (k : RedKind) (m : Reg) (pk : BitVec 2) (d a : Reg) (x y : Src) (s : State) (key : Nat) (l : Line),
    let q := Instr.qred g la k d a
    let hq := headLong q g la (regMask d ||| regMask a) 0
    let r := Instr.rget g la m pk d x y
    let hr := headLong r g la (names3 d x y) (takes2 x y)
    (Issues hq s key l → s.orderBusy key l = true → Idles q s key l) ∧
    (Issues hq s key l → s.orderBusy key l = false → (∀ z ∈ s.fl.reds, z.line ≠ key) →
      ∃ f, CompletesInFlight q s hq key l f { s.fl with reds := s.fl.reds ++
          [{ line := key, kind := k, acc := l.c.reg d, cnt := (l.c.reg a).toNat, dreg := d.val, areg := a.val, pc := l.at_, word := hq.word
             seq := s.sched.seq + 1 }] } ∧
        (f (s.past hq l)).c = ((s.past hq l).pending (regMask d ||| regMask a)).c) ∧
    (Issues hq s key l → s.orderBusy key l = false → (∃ z ∈ s.fl.reds, z.line = key) → WaitsHere q s key l 8 0) ∧
    (Issues hr s key l → s.orderBusy key l = true → Idles r s key l) ∧
    (Issues hr s key l → s.orderBusy key l = false →
      CompletesInFlight r s hr key l (fun z => (z.pending (regMask d)).touch (s.handleDie l.c.here l.c.asid (l.c.src x)))
        { s.fl with owners := s.fl.owners ++
          [{ what := .rget m.val pk (min (l.c.src y).toNat (2 ^ 20 - 1)), until_ := none, asid := l.c.asid, handle := l.c.src x
             d := d.val, line := key, die := l.c.dieNum, seq := s.sched.seq + 1 }] })

/-- R174, R243, R252, R350, R351: a SPAWN whose pool can give a line leaves gd the handle of a new READY context of that line, with g0 to g3,
class, privilege, ASID and launch of its parent and everything else clear. A bad cluster or entry traps; an empty pool is waited for with
kind 5; a lost cluster gives 0. That a bad cluster is found before a bad entry is the model's choice (log entry 74), and so is the idle turn while a narrow
plane between the two dies is down (log entry 66). -/
def spawns : Prop :=
  ∀ (g : Guard) (d : Reg) (a b : Src) (s : State) (key : Nat) (l : Line),
    let i := Instr.spawn g d a b
    let h := headWait i g (names3 d a b ||| 0x0F) (takes2 a b)
    let v := l.c.src a
    let e := l.c.src b
    let home := if v = BitVec.allOnes 64 then s.anyHome l.c.here l.c.asid else some v.toNat
    Issues h s key l →
      (v ≠ BitVec.allOnes 64 → 192 ≤ v.toNat → Traps i s h key l 0x07 0 v) ∧
      ((v = BitVec.allOnes 64 ∨ v.toNat < 192) → e.toNat % 8 ≠ 0 → Traps i s h key l 0x05 0 e) ∧
      (v.toNat < 192 → e.toNat % 8 = 0 → s.clusterGone v.toNat = true → Completes i s h key l (Line.onCtx fun c => c.setReg d 0)) ∧
      ((v = BitVec.allOnes 64 ∨ v.toNat < 192 ∧ s.clusterGone v.toNat = false) → e.toNat % 8 = 0 →
        ∀ c, home = some c → s.reaches narrow l.c.dieNum (dieOf c) = false → Idles i s key l) ∧
      ((v = BitVec.allOnes 64 ∨ v.toNat < 192 ∧ s.clusterGone v.toNat = false) → e.toNat % 8 = 0 →
        (∀ c, home = some c → s.reaches narrow l.c.dieNum (dieOf c) = true) →
        (home.bind (fun c => s.poolPeek c l.c.asid) = none →
          ∃ t l', exec i s = .next t ∧ SMap.get? t.ctx.lines key = some l' ∧ l'.c.st = { l.c.st with state := .waiting } ∧ l'.c.waitKind = 5 ∧
            l'.c.waitObj = BitVec.ofNat 60 (if v = BitVec.allOnes 64 then 255 else v.toNat) ∧ l'.c.pc = l.c.pc ∧ l'.c.g = l.c.g ∧
            sameLinesBut key s t ∧ t.mem = s.mem ∧ t.fl = s.fl) ∧
        (∀ c lnum k, home = some c → c < 192 → s.poolPeek c l.c.asid = some (lnum, k) → Memory.wf s.mem.bytes = true →
          (∀ n < 4, (s.poolEntry c l.c.asid + 24 + n) / 128 ≠ k) →
          ∃ t m n, exec i s = .next t ∧ SMap.get? t.ctx.lines key = some m ∧ SMap.get? t.ctx.lines k = some n ∧
            m.c = { (s.past h l).c with floor := s.timeOf (s.past h l).c, g := l.c.g.set d.val n.handle d.isLt } ∧
            n.lnum = BitVec.ofNat 50 lnum ∧ n.c.gen = (if (s.memLine k).gen = 16383 then 1 else (s.memLine k).gen + 1) ∧
            (∀ r : Reg, n.c.reg r = if r.val < 4 then l.c.reg r else 0) ∧ (∀ r, n.c.pred r = 0) ∧ n.c.pc = e.setWidth 57 ∧
            n.c.st.state = .ready ∧ n.c.st.full = 0 ∧ n.c.st.pend = 0 ∧ n.c.st.larem = 0 ∧ n.c.st.cls = l.c.st.cls ∧
            n.c.st.priv = l.c.st.priv ∧ n.c.asid = l.c.asid ∧ n.c.launch = l.c.launch ∧ n.c.inboxCount = 0 ∧ n.c.inboxHead = 0 ∧
            n.c.inboxBase = (s.memLine k).inboxBase ∧ n.c.here = c))

/-- R82, R175, R250, R252: QUIT waits with kind 8 for its pending results and with kind 4 for its acknowledgements, and then the line is live no
longer: where its pool is not in use, its bytes are ordinary memory that holds the line as it was, with STATE RETIRED. -/
def quits : Prop :=
  ∀ (g : Guard) (done : Bool) (s : State) (key : Nat) (l : Line),
    let i := if done then Instr.quitDone g else .quit g
    let h := headWait i g 0 0
    Issues h s key l →
      (l.c.st.pend ≠ 0 → WaitsHere i s key l 8 0) ∧
      (l.c.st.pend = 0 → s.unacked key = true → WaitsHere i s key l 4 0) ∧
      (l.c.st.pend = 0 → s.unacked key = false → goesOn (exec i s)) ∧
      (l.c.st.pend = 0 → s.unacked key = false → done = false → Memory.wf s.mem.bytes = true → SMap.risingFrom 0 s.ctx.lines = true →
        (s.mgmt.based = false ∨ (s.readWord (s.poolEntry l.c.here l.c.asid)).getLsbD 63 = false) → (∀ n < 8, (s.poolEntry l.c.here l.c.asid + n) / 128 ≠ key) →
        ∃ t m : State, exec i s = .next t ∧ t = m.cancelProgress ∧ SMap.get? m.ctx.lines key = none ∧ sameLinesBut key s m ∧
          m.readBytes (rangeFrom (128 * key) 128) = (List.range 128).map ({ (s.past h l).c with st := { (s.past h l).c.st with
            state := .retired, valid := false } }.byte) ∧
          ∀ c u sl, l.place = .slot c u sl → (m.slot c u sl).line = none)

/-- R176, R261: MIG to another cluster that is there makes the line IN_TRANSIT toward it with kind 6, at once when its requests are acknowledged;
MIG to its own cluster only advances; a bad number traps with code 0x07, a lost cluster with 0x20. -/
def migrates : Prop :=
  ∀ (g : Guard) (a : Src) (s : State) (key : Nat) (l : Line),
    let i := Instr.mig g a
    let h := headWait i g a.nameMask a.takeMask
    let v := (l.c.src a).toNat
    Issues h s key l →
      (192 ≤ v → Traps i s h key l 0x07 0 (l.c.src a)) ∧
      (v = l.c.here → v < 192 → Completes i s h key l id) ∧
      (v ≠ l.c.here → v < 192 → s.clusterGone v = true → Traps i s h key l 0x20 0 0) ∧
      (v ≠ l.c.here → s.clusterGone v = false → s.unacked key = true →
        Completes i s h key l fun m => { m with goTo := some (v, 0) }) ∧
      (v ≠ l.c.here → s.clusterGone v = false → s.unacked key = false → (∀ z ∈ s.fl.reds, z.line ≠ key) →
        ∃ t l', exec i s = .next t ∧ SMap.get? t.ctx.lines key = some l' ∧ l'.place = .transit v ∧ l'.c.st.state = .inTransit ∧
          l'.c.waitKind = 6 ∧ l'.c.waitObj = 0 ∧ l'.c.g = l.c.g ∧ l'.c.p = l.c.p ∧ l'.c.pc = (s.past h l).c.pc ∧ l'.c.here = l.c.here ∧
          (∀ c u sl, l.place = .slot c u sl → (t.slot c u sl).line = none) ∧ sameLinesBut key s t ∧ sameMemoryBut key s t ∧ t.mem = s.mem ∧
          t.fl = s.fl ∧ t.eng = s.eng)

/-- R177, R178, R232: SELF's four facts, the full bits that FSET and FCLR change, and TIME: the larger of the die's time base and the floor,
which becomes the floor. -/
def ownFacts : Prop :=
  ∀ (g : Guard) (d : Reg) (m : BitVec 8) (s : State) (key : Nat) (l : Line),
    let one := fun (i : Instr) => headOf i g (regMask d) 0
    let all := fun (i : Instr) => headOf i g m 0
    let full := fun (x : BitVec 8) (c : Ctx) => { c with st := { c.st with full := x } }
    let ht := one (.time g d)
    let T := s.timeOf (s.past ht l).c
    (∀ r ∈ [(SelfFact.handle, l.c.gen ++ l.lnum), (.ident, l.c.gen ++ l.c.asid ++ (0 : BitVec 6) ++ l.c.launch),
        (.loc, BitVec.ofNat 64 (l.c.st.die.toNat * 48 + l.c.st.cluster.toNat + l.c.st.unit.toNat * 2 ^ 8 + l.c.st.slot.toNat * 2 ^ 10)),
        (.inbox, BitVec.ofNat 64 l.c.inboxCount.toNat)],
      Issues (one (.self g r.1 d)) s key l → Completes (.self g r.1 d) s (one (.self g r.1 d)) key l (Line.onCtx fun c => c.setReg d r.2)) ∧
    (Issues (all (.fset g m)) s key l → Completes (.fset g m) s (all (.fset g m)) key l (Line.onCtx fun c => full (c.st.full ||| m) c)) ∧
    (Issues (all (.fclr g m)) s key l → Completes (.fclr g m) s (all (.fclr g m)) key l (Line.onCtx fun c => full (c.st.full &&& ~~~m) c)) ∧
    (T = (if (s.timeAt l.c.dieNum).toNat < (s.past ht l).c.floor.toNat then (s.past ht l).c.floor else s.timeAt l.c.dieNum)) ∧
    (Issues ht s key l → Completes (.time g d) s ht key l (Line.onCtx fun c => { c.setReg d T with floor := T }))

/-- The seven instructions that carry data between contexts. -/
def Obligations.MessagesIssue : Prop := sendsAndDeposits ∧ receives ∧ reductionsAndRemoteReads

/-- The instructions that make, end and move contexts. -/
def Obligations.TasksIssue : Prop := spawns ∧ quits ∧ migrates

/-- What a context learns of itself and does to its own full bits. -/
def Obligations.OwnFacts : Prop := ownFacts

/-! ### Events, engine queues, handle tables (R179 to R183, R191 to R193, R211 to R221) -/

/-- A line whose floor is a time that it has released. -/
def timedLine (x : Word) (l : Line) : Line := { l with c := { l.c with floor := x } }

/-- The die bit of an event address or of a tile handle: its two upper bits. -/
def dieOfName (x : BitVec 32) : BitVec 4 := 1#4 <<< (x.toNat / 2 ^ 30)

/-- R211, R213, R214, R305: EVSND and EVARM put one event into the send buffer of their cluster, with release only when asked for it; without a
free entry the turn is idle. -/
def eventsSent : Prop :=
  ∀ (g : Guard) (rel : Bool) (a b cc : Src) (s : State) (key : Nat) (l : Line),
    ∀ r ∈ [(Instr.evsnd g rel a b cc, false), (.evarm g rel a b cc, true)],
      let h := { headOf r.1 g (a.nameMask ||| b.nameMask ||| cc.nameMask) (takes2 a b ||| cc.takeMask) with profile := .n1 }
      let T := if rel then s.timeOf (s.past h l).c else 0
      let addr : BitVec 32 := (l.c.src a).setWidth 32
      let e : Ev := { addr := addr, value := BitVec.ofInt 48 ((l.c.src b).setWidth 32).toInt, step := (l.c.src cc).setWidth 32, asid := l.c.asid
                      arm := r.2, rel := rel, count := 1, time := T }
      Issues h s key l →
        ((s.sendsOf l.c.here).length < 64 →
          CompletesInFlight r.1 s h key l (fun m => (if rel then timedLine T m else m).touch (dieOfName addr))
            (sendAdded s key l (.event e .context) [])) ∧
        ((s.sendsOf l.c.here).length ≥ 64 → Idles r.1 s key l)

/-- R211, R216, R217, R218, R221: the requests to a bank: the context waits past the word with kind 3 while its request is on its way. EVCFG reads
its 32-byte record first, and its faults are precise. That its turn is idle while an earlier acquire, or an access from before a move of its line, is in
flight (log entry 15), or while a plane or a port that its read needs is down (log entry 66), is the model's choice. -/
def bankRequests : Prop :=
  ∀ (g : Guard) (d : Reg) (a b : Src) (s : State) (key : Nat) (l : Line),
    let addr : BitVec 32 := (l.c.src a).setWidth 32
    let hd := fun (i : Instr) (n t : BitVec 8) => { headWait i g n t with profile := .n1 }
    let asks := fun (i : Instr) (h : Head) (what : BankWhat) =>
      CompletesInFlight i s h key l (fun m => (m.touch (dieOfName addr)).waits 3 0 0) { s.fl with banks := s.fl.banks ++
        [{ what := what, addr := addr, asid := l.c.asid, d := d.val, line := key, seq := s.sched.seq + 1 }] }
    (∀ r ∈ [(Instr.evstep g d a b, BankWhat.step ((l.c.src b).setWidth 32)), (.evwr g d a b, .wr (l.c.src b))],
      Issues (hd r.1 (names3 d a b) (takes2 a b)) s key l → asks r.1 (hd r.1 (names3 d a b) (takes2 a b)) r.2) ∧
    (∀ r ∈ [(Instr.evrdMem g d a, BankWhat.rdMem), (.evrdStep g d a, .rdStep), (.evrdLate g d a, .rdLate)],
      Issues (hd r.1 (names2 d a) a.takeMask) s key l → asks r.1 (hd r.1 (names2 d a) a.takeMask) r.2) ∧
    (∀ r ∈ [(Instr.evcfg g d a b, false), (.evcfgClr g d a b, true)],
      let h := hd r.1 (names3 d a b) (takes2 a b)
      let va := (l.c.src b).setWidth 57
      Issues h s key l →
        (s.orderBusy key l = true → Idles r.1 s key l) ∧
        (s.orderBusy key l = false → va.toNat % 32 ≠ 0 → Traps r.1 s h key l 0x04 0 (va.setWidth 64)) ∧
        (s.orderBusy key l = false → va.toNat % 32 = 0 → (∀ f x, s.transBytes l.c.here l.c.asid l.c.level .engine .read va.toNat 32 = .error (f, x) →
          (∀ c, f ≠ .remote c) → Traps r.1 s h key l (faultCode f) 0 (BitVec.ofNat 64 x))) ∧
        (s.orderBusy key l = false → va.toNat % 32 = 0 → s.inReach l.c va.toNat 32 = false → Idles r.1 s key l) ∧
        (s.orderBusy key l = false → va.toNat % 32 = 0 → s.inReach l.c va.toNat 32 = true →
          ∀ pas swc, s.transBytes l.c.here l.c.asid l.c.level .engine .read va.toNat 32 = .ok (pas, swc) →
          (s.poisonedAt l.c.dieNum swc pas = true → Traps r.1 s h key l 0x16 0 (va.setWidth 64)) ∧
          (s.poisonedAt l.c.dieNum swc pas = false → pas.any s.homeGone = false → (∀ x ∈ s.mem.stores, x.who ≠ ctxName key l) →
            asks r.1 h (.cfg (BitVec.ofNat 256 (leNat (s.seenBytes l.c.dieNum swc pas))) r.2))))

/-- The event instructions; FENCE.EV is among the orderings. -/
def Obligations.EventsIssue : Prop := eventsSent ∧ bankRequests

/-- R78, R179, R183, R274, R305: POST and POSTW put the command word into the send buffer, with bit 247 set by .rel and CKIND cleared by POSTW;
they touch the dies that the command names. POST's gd is pending until the command is accepted, and POSTW waits with kind 3. -/
def postsIssue : Prop :=
  ∀ (g : Guard) (la : BitVec 4) (rel : Bool) (d : Reg) (a : Src) (s : State) (key : Nat) (l : Line),
    let quad := l.c.reg (regOf (a.reg.val + 3)) ++ l.c.reg (regOf (a.reg.val + 2)) ++ l.c.reg (regOf (a.reg.val + 1)) ++ l.c.reg a.reg
    let w := if rel then quad ||| 1#256 <<< 247 else quad
    let hp := { headLong (.post g la rel d a) g la (regMask d ||| quadMask a.reg) (if a.take then quadMask a.reg else 0) with profile := .e1 }
    let hw := { headWait (.postw g rel d a) g (regMask d ||| quadMask a.reg) (if a.take then quadMask a.reg else 0) with profile := .e1 }
    let done := fun (h : Head) (v : BitVec 256) (wait : Bool) (i : Instr) (after : Line → Line) =>
      let T := s.timeOf (s.past h l).c
      let relBit := v.getLsbD 247
      Issues h s key l →
        ((s.sendsOf l.c.here).length < 64 →
          CompletesInFlight i s h key l (fun m => after ((if relBit then timedLine T m else m).touch (postDies (v.toNat / 2 ^ 248) (cmdArgsOf v))))
            (sendAdded s key l (.post v d.val wait)
              (if relBit then [{ time := T, scope := (cmdArgsOf v).scope, cluster := l.c.here, auto := false, who := some (ctxName key l)
                                 seq := s.sched.seq + 1 }] else []))) ∧
        ((s.sendsOf l.c.here).length ≥ 64 → Idles i s key l)
    done hp w false (.post g la rel d a) (fun m => m.pending (regMask d)) ∧
    done hw (w &&& ~~~(3#256 <<< 244)) true (.postw g rel d a) (fun m => m.waits 3 0 0)

/-- R191, R192, R193: TALLOC, TFREE and TINFO ask the table of their cluster and wait with kind 3; TALLOC traps on a number that names no
cluster, and takes all ones for its own. -/
def tablesAsked : Prop :=
  ∀ (g : Guard) (d : Reg) (a b : Src) (s : State) (key : Nat) (l : Line),
    let v := l.c.src b
    let c := if v = BitVec.allOnes 64 then l.c.here else v.toNat
    let t := (l.c.src a).setWidth 32
    let asks := fun (i : Instr) (h : Head) (what : HandleWhat) (die : BitVec 4) =>
      CompletesInFlight i s h key l (fun m => (m.touch die).waits 3 0 0) { s.fl with handles := s.fl.handles ++
        [{ what := what, asid := l.c.asid, d := d.val, line := key, seq := s.sched.seq + 1 }] }
    let ha := { headWait (.talloc g d a b) g (names3 d a b) (takes2 a b) with profile := .e1 }
    (Issues ha s key l → v ≠ BitVec.allOnes 64 → 192 ≤ v.toNat → Traps (.talloc g d a b) s ha key l 0x07 0 v) ∧
    (Issues ha s key l → (v = BitVec.allOnes 64 ∨ v.toNat < 192) → asks (.talloc g d a b) ha (.alloc (l.c.src a) c) (1#4 <<< (c / 48))) ∧
    (∀ r ∈ [(Instr.tfree g d a, HandleWhat.release t), (.tinfo g d a, .info t)],
      let h := { headWait r.1 g (names2 d a) a.takeMask with profile := .e1 }
      Issues h s key l → asks r.1 h r.2 (dieOfName t))

/-- The engine instructions. -/
def Obligations.EngineWordsIssue : Prop := postsIssue ∧ tablesAsked

/-! ### Control registers and system instructions (R223 to R235, R356, R375, R397, R401, R404) -/

/-- The bits of each control register, for an ASID and a cluster (R226 to R229, R356, R375, R397, R401, R404). -/
def csrBits (s : State) (asid : BitVec 12) (c : Nat) (r : CsrName) : Word :=
  let x := s.asidRegs asid
  match r with
  | .profileMask => x.profile.setWidth 64
  | .ctxHandler => x.handler
  | .undelivCount => x.undeliv
  | .evRefused => x.refused
  | .trapRing => BitVec.ofNat 64 (x.ringBase.toNat * 2 ^ 12 + x.ringSize.toNat)
  | .trapHead => x.ringHead.setWidth 64
  | .trapTail => x.ringTail.setWidth 64
  | .trapOverflow => x.ringOver
  | .arrivalLimit => BitVec.ofNat 64 (SMap.getD s.ctx.limits c 64)
  | .readyMap => s.mgmt.ready
  | .dieOrient => BitVec.ofNat 64 (if c / 48 = 0 then 0xD000 else if c / 48 = 1 then 0x2501 else if c / 48 = 2 then 0x7A02 else 0x8F03)
  | .powerStatus => s.mgmt.rises ++ (0 : BitVec 3) ++ BitVec.ofBool s.mgmt.alarm ++ s.mgmt.limit ++ s.mgmt.power
  | .secverFuse => s.mgmt.secver.setWidth 64
  | .tenantWeight => BitVec.ofNat 64 (x.quota.toNat * 2 ^ 32 + x.weight.toNat)

/-- What a write of v leaves in a register that holds `old`: reserved bits are ignored, a value out of range becomes the one that the spec
names (R226 to R229, R356, R401). -/
def csrStored (r : CsrName) (old v : Word) : Word :=
  let n := v.toNat
  match r with
  | .profileMask => v &&& 0xE ||| 1
  | .ctxHandler => v
  | .undelivCount => v
  | .evRefused => v
  | .trapRing => v &&& 0x1FFFFFFFFFFF000 ||| if 6 ≤ n % 2 ^ 5 ∧ n % 2 ^ 5 ≤ 16 then v &&& 0x1F else 0
  | .trapTail => v &&& 0xFFFFFFFF
  | .trapOverflow => v
  | .arrivalLimit => if 1 ≤ n % 2 ^ 7 ∧ n % 2 ^ 7 ≤ 64 then v &&& 0x7F else 64
  | .secverFuse => if old.toNat < n % 2 ^ 32 then v &&& 0xFFFFFFFF else old
  | .tenantWeight => (if n / 2 ^ 32 % 2 ^ 11 ≤ 1024 then v &&& 0x7FF00000000 else 0) ||| if n % 2 ^ 16 = 0 then 1 else v &&& 0xFFFF
  | .trapHead => old
  | .readyMap => old
  | .dieOrient => old
  | .powerStatus => old

/-- From s to t a register of an ASID at a cluster has been written with v, and no other register has changed but that TRAP_RING's write clears
TRAP_HEAD and TRAP_TAIL (R228). -/
def csrWritten (s t : State) (asid : BitVec 12) (c : Nat) (r : CsrName) (v : Word) : Prop :=
  (r = .arrivalLimit → SMap.risingFrom 0 s.ctx.limits = true) →
    csrBits t asid c r = csrStored r (csrBits s asid c r) v ∧
    (∀ q, q ≠ r → ¬ (r = .trapRing ∧ (q = .trapHead ∨ q = .trapTail)) → csrBits t asid c q = csrBits s asid c q) ∧
    (r = .trapRing → csrBits t asid c .trapHead = 0 ∧ csrBits t asid c .trapTail = 0) ∧
    (∀ a, a ≠ asid → t.asidRegs a = s.asidRegs a) ∧ (∀ k, k ≠ c → SMap.getD t.ctx.limits k 64 = SMap.getD s.ctx.limits k 64) ∧
    { t.mgmt with secver := s.mgmt.secver } = s.mgmt ∧ t.mem = s.mem ∧ t.fl = s.fl ∧ t.eng = s.eng ∧ t.groups = s.groups ∧
    t.launch = s.launch ∧ t.fab = s.fab ∧ t.time = s.time ∧ t.ctx.slots = s.ctx.slots ∧ t.ctx.run = s.ctx.run

/-- R225, R226, R375: CSRR reads, DIE_ORIENT the values of R375; CSRW, CSRS and CSRC read the old value into gd and write ga, the union or the difference. -/
def csrAccesses : Prop :=
  ∀ (g : Guard) (d : Reg) (a : Src) (num : BitVec 12) (r : CsrName) (s : State) (key : Nat) (l : Line), csrOf num = some r →
    let old := csrBits s l.c.asid l.c.here r
    let x := l.c.src a
    let hr := headCsr (.csrr g d num) g num false (regMask d) 0
    (Issues hr s key l → Completes (.csrr g d num) s hr key l (Line.onCtx fun c => c.setReg d old)) ∧
    (∀ z ∈ [(Instr.csrw g d a num, x), (.csrs g d a num, old ||| x), (.csrc g d a num, old &&& ~~~x)],
      let h := headCsr z.1 g num true (names2 d a) a.takeMask
      Issues h s key l →
        ∃ t, exec z.1 s = .next t ∧ SMap.get? t.ctx.lines key = some (Line.onCtx (fun c => c.setReg d old) (s.past h l)) ∧
          sameLinesBut key s t ∧ sameMemoryBut key s t ∧ csrWritten s t l.c.asid l.c.here r z.2)

/-- The registers of R226 by number, with the least privilege of a read and of a write. -/
def csrTable : List (BitVec 12 × CsrName × Nat × Option Nat) :=
  [(0x001, .profileMask, 0, some 1), (0x010, .ctxHandler, 1, some 1), (0x011, .undelivCount, 0, some 1), (0x012, .evRefused, 0, some 1),
   (0x013, .trapRing, 1, some 1), (0x014, .trapHead, 1, none), (0x015, .trapTail, 1, some 1), (0x016, .trapOverflow, 1, some 1),
   (0x020, .arrivalLimit, 0, some 1), (0x030, .readyMap, 0, none), (0x031, .dieOrient, 0, none), (0x032, .powerStatus, 0, none),
   (0x033, .secverFuse, 0, some 3), (0x040, .tenantWeight, 1, some 3)]

/-- R225, R226: the head of each form: a number that is not listed, and a write of a read-only register, is an illegal encoding with detail 8; a
listed one has the privilege of its register. -/
def csrHeads : Prop :=
  ∀ (i : Instr) (g : Guard) (n : BitVec 12) (wr : Bool) (names takes : BitVec 8),
    let h := headCsr i g n wr names takes
    (∀ r ∈ csrTable, r.1 = n → csrOf n = some r.2.1 ∧ (wr = false → h.bad = none ∧ h.level = r.2.2.1) ∧
      (wr = true → match r.2.2.2 with
        | some v => h.bad = none ∧ h.level = v
        | none => h.bad = some 8)) ∧
    ((∀ r ∈ csrTable, r.1 ≠ n) → csrOf n = none ∧ h.bad = some 8)

/-- The same writes as steps of the device (R228, R229, R356, R401). -/
def csrDeviceWrites : Prop :=
  ∀ (s : State) (asid : BitVec 12) (c : Nat) (v : Word),
    ∀ r ∈ [(Instr.trapRingWrite asid v, CsrName.trapRing), (.secverFuseWrite v, .secverFuse), (.arrivalLimitWrite c v, .arrivalLimit),
        (.tenantWeightWrite asid v, .tenantWeight)],
      c < 192 → ∃ t, exec r.1 s = .next t ∧ t.ctx.lines = s.ctx.lines ∧ csrWritten s t asid c r.2 v

/-- The control registers: their numbers, their privileges, what reads and writes of them do. -/
def Obligations.ControlRegisters : Prop := csrAccesses ∧ csrHeads ∧ csrDeviceWrites

/-- R224, R231: RESUME is a release and asks the owner of the line that its handle names; so does an EVICT of another context; both wait with
kind 3. An EVICT of the context itself gives gd 0 and moves it at once, to its cluster's context L2 or to memory, READY: that it does so is the
model's choice (log entry 45). -/
def resumesAndEvicts : Prop :=
  ∀ (g : Guard) (d : Reg) (a : Src) (s : State) (key : Nat) (l : Line),
    let x := l.c.src a
    let hd := fun (i : Instr) => { headWait i g (names2 d a) a.takeMask with level := 1 }
    let hr := hd (.resume g d a)
    let asks := fun (what : OwnerWhat) => { s.fl with owners := s.fl.owners ++
      [{ what := what, until_ := none, asid := l.c.asid, handle := x, d := d.val, line := key, die := l.c.dieNum, seq := s.sched.seq + 1 }] }
    (Issues hr s key l →
      CompletesInFlight (.resume g d a) s hr key l (fun m => (timedLine (s.timeOf (s.past hr l).c) m).waits 3 0 0) (asks .resume)) ∧
    (∀ r ∈ [(Instr.evictL2 g d a, false), (.evictMem g d a, true)],
      Issues (hd r.1) s key l → s.isSelf key l x = false →
        CompletesInFlight r.1 s (hd r.1) key l (fun m => m.waits 3 0 0) (asks (.evict r.2))) ∧
    (∀ r ∈ [(Instr.evictL2 g d a, Place.l2 l.c.here), (.evictMem g d a, .memory)], ∀ c u sl,
      Issues (hd r.1) s key l → s.isSelf key l x = true → s.unacked key = false → (∀ z ∈ s.fl.reds, z.line ≠ key) →
        s.l2Count l.c.here < 2048 → l.place = .slot c u sl →
        ∃ t l', exec r.1 s = .next t ∧ SMap.get? t.ctx.lines key = some l' ∧ l'.place = r.2 ∧ l'.c.st.state = .ready ∧
          l'.c.reg d = 0 ∧ (∀ q, q ≠ d → l'.c.reg q = l.c.reg q) ∧ l'.c.pc = (s.past (hd r.1) l).c.pc ∧ (t.slot c u sl).line = none)

/-- R233, R341: a LAUNCH whose request is bad gives gd its status in [63:56] and changes nothing else; one that lacks the resources likewise; one
that succeeds gives gd its slot, which is then taken by the ASID's job, or waits with kind 3 while its job is told: its spawn requests are not
queued before. Its idle turn while stores of its context are on their way (log entry 25), while a plane that it needs is down (log entry 66), or while a
bank is in an action that has not ended (log entry 31), is the model's choice. -/
def launches : Prop :=
  ∀ (g : Guard) (d : Reg) (a : Src) (s : State) (key : Nat) (l : Line),
    let i := Instr.launch g d a
    let h := { headWait i g (names2 d a) a.takeMask with level := 1 }
    let va := (l.c.src a).toNat % 2 ^ 57
    let clear := s.orderBusy key l = false ∧ (∀ x ∈ s.mem.stores, x.who ≠ ctxName key l) ∧ s.launchReach l.c va = true ∧ s.chains = []
    Issues h s key l →
      (va % 128 ≠ 0 → Traps i s h key l 0x04 0 (BitVec.ofNat 64 va)) ∧
      (va % 128 = 0 → ¬ clear → Idles i s key l) ∧
      (va % 128 = 0 → clear → ∀ code x, s.nextSeq.launchFate l.c va = .trap (code, x) → Traps i s h key l code 0 (BitVec.ofNat 64 x)) ∧
      (va % 128 = 0 → clear → ∀ n, s.nextSeq.launchFate l.c va = .status n →
        Completes i s h key l (Line.onCtx fun c => c.setReg d (BitVec.ofNat 64 (n * 2 ^ 56)))) ∧
      (va % 128 = 0 → clear → ∀ p, s.nextSeq.launchFate l.c va = .plan p → s.isReady (p.own / 256 / 48) 3 = true →
        (∀ code x, s.nextSeq.launchBuild l.c p = .error (code, x) → Traps i s h key l code 0 (BitVec.ofNat 64 x)) ∧
        (∀ u, s.nextSeq.launchBuild l.c p = .ok u →
          ∃ t l', exec i s = .next t ∧ SMap.get? t.ctx.lines key = some l' ∧ l'.c.pc = (s.past h l).c.pc ∧
            (∀ k, k ≠ p.slot → SMap.get? t.launch.table k = SMap.get? s.launch.table k) ∧
            (∃ q, SMap.get? t.launch.table p.slot = some q ∧ q.asid = l.c.asid ∧ q.job = p.req.job ∧ q.jobacc = p.req.jobacc ∧
              q.maq = p.req.maq ∧ q.work = p.req.work ∧ q.group = p.own ∧ q.insts = p.insts ∧ q.cancelled = false) ∧
            (p.req.jobacc = 0 → l'.c.st.state = .running ∧ l'.c.reg d = BitVec.ofNat 64 p.slot) ∧
            (p.req.jobacc ≠ 0 → l'.c.st.state = .waiting ∧ l'.c.waitKind = 3 ∧ l'.c.floor = s.timeOf (s.past h l).c ∧ t.fl.spawns = s.fl.spawns ∧
              ∃ w, t.fl.launches = s.fl.launches ++ [w] ∧ w.line = key ∧ w.d = d.val ∧ w.slot = p.slot ∧ w.roots = roots p.nodes p.req.ni)))

/-- R341, R345: a LAUNCH with a job goes on only when the +1 to its job's accumulator has been acknowledged: then it queues its spawn requests and
gives gd its slot, and its context is READY. -/
def launchesGoOn : Prop :=
  ∀ (s : State) (k : Nat) (w : LaunchWait) (l : Line), nth? s.fl.launches k = some w →
    ((∃ b ∈ s.fl.sends, ∃ e ∈ b.2, e.id = w.event) → launchGoesOn k s = .refused (.notEnabled "LAUNCH")) ∧
    ((∀ b ∈ s.fl.sends, ∀ e ∈ b.2, e.id ≠ w.event) → w.roots = [] → SMap.get? s.ctx.lines w.line = some l → l.lost = 0 → l.cancelled = false →
      l.c.st.state = .waiting → l.c.waitKind = 3 → (∃ c u sl, l.place = .slot c u sl) → w.d < 8 →
      ∃ t l', launchGoesOn k s = .next t ∧ SMap.get? t.ctx.lines w.line = some l' ∧ l'.c.st.state = .ready ∧
        (∀ r : Reg, l'.c.reg r = if r.val = w.d then BitVec.ofNat 64 w.slot else l.c.reg r) ∧
        t.fl = { s.fl with launches := removeAt k s.fl.launches } ∧ sameLinesBut w.line s t ∧ t.mem = s.mem ∧ t.launch = s.launch)

/-- R341: the checks of a LAUNCH that end it with status 1: a bit that must be zero, a base out of place, a maquette with no nodes or more than
255. That a misaligned MAQ is one of them is the model's choice (log entry 25). -/
def launchRefusals : Prop :=
  ∀ (s : State) (c : Ctx) (va : Nat) (l : List Byte), s.launchRead c va 128 = .ok l →
    (wordAt l 0 % 64 ≠ 0 ∨ 2 ^ 57 ≤ wordAt l 0 ∨ wordAt l 5 % 4096 ≠ 0 ∨ 2 ^ 57 ≤ wordAt l 5 ∨ 2 ^ 48 ≤ wordAt l 1 ∨ 2 ^ 32 ≤ wordAt l 3 ∨
        2 ^ 9 ≤ wordAt l 4 ∨ 2 ^ 32 ≤ wordAt l 6 ∨ (∃ k, 7 ≤ k ∧ k < 16 ∧ wordAt l k ≠ 0) → s.launchFate c va = .status 1) ∧
    (∀ m, (launchReqOf l).bad = false → s.launchRead c (wordAt l 0) 64 = .ok m → (wordAt m 0 = 0 ∨ 256 ≤ wordAt m 0) →
      s.launchFate c va = .status 1)

/-- R234, R346: CANCEL of no live launch of the ASID gives gd 1; else each launch that it names is marked cancelled, no spawn request of it waits any
longer, a command that a context of it has posted and that no queue has taken yet is discarded when one takes it (R182, R187), and the context waits
with kind 3. -/
def cancels : Prop :=
  ∀ (g : Guard) (d : Reg) (a : Src) (s : State) (key : Nat) (l : Line),
    let x := (l.c.src a).toNat
    ∀ r ∈ [(Instr.cancelLaunch g d a, false), (.cancelJob g d a, true)],
      let h := { headWait r.1 g (names2 d a) a.takeMask with level := 1 }
      let named := fun (k : Nat) (q : Launch) => q.asid = l.c.asid ∧ if r.2 then q.job = x % 2 ^ 16 else k = x % 2 ^ 12
      Issues h s key l →
        ((∀ y ∈ s.launch.table, ¬ named y.1 y.2) → Completes r.1 s h key l (Line.onCtx fun c => c.setReg d 1)) ∧
        ((∃ y ∈ s.launch.table, named y.1 y.2) →
          ∃ t l', exec r.1 s = .next t ∧ SMap.get? t.ctx.lines key = some l' ∧ l'.c.st.state = .waiting ∧ l'.c.waitKind = 3 ∧
            l'.c.g = l.c.g ∧ l'.c.pc = (s.past h l).c.pc ∧
            (∀ k q, SMap.get? s.launch.table k = some q → (named k q → ∃ q', SMap.get? t.launch.table k = some q' ∧ q'.cancelled = true) ∧
              (¬ named k q → SMap.risingFrom 0 s.launch.table = true → SMap.get? t.launch.table k = some q)) ∧
            (r.2 = false → ∀ buf e w d' wait k' y, e ∈ s.sendsOf buf → e.what = .post w d' wait → e.asid = l.c.asid → e.line = some k' →
              SMap.get? s.ctx.lines k' = some y → y.ofLaunch l.c.asid (x % 2 ^ 12) = true →
              ∃ e' ∈ t.sendsOf buf, e'.id = e.id ∧ e'.what = e.what ∧ e'.void = true) ∧
            (∀ z ∈ t.fl.spawns, z ∈ s.fl.spawns ∧ ∀ k n i q, z.acct = some (k, n, i) → z.asid = l.c.asid →
              SMap.get? s.launch.table k = some q → ¬ named k q))

/-- The system instructions that ask for something. -/
def Obligations.SystemRequests : Prop := resumesAndEvicts ∧ launches ∧ launchesGoOn ∧ launchRefusals ∧ cancels

/-! ### Engine commands (R42 to R52, R185 to R210, R276 to R282) -/

/-- The command at the head of queue q of cluster cl, an entry e, is instruction i, and may start (R187, R188). -/
def Starting (s : State) (cl q : Nat) (e : QEntry) (rest : List QEntry) (i : Instr) : Prop :=
  s.sched.cmd = some (cl, q) ∧ s.queue cl q = e :: rest ∧ s.mayStart cl q e = true ∧ decodeCommand e.cmd = some i

/-- The command starts: it leaves its queue and runs, with its identity in what its completion will say, and its writes still to be made: until its
end no tile, no byte of memory, no line and no group has changed (R184, R187). -/
def Begins (s : State) (cl q : Nat) (e : QEntry) (rest : List QEntry) (i : Instr) (P : Run → Prop) : Prop :=
  ∃ t run, exec i s = .next t ∧ P run ∧ t.runs cl q = s.runs cl q ++ [run] ∧ (SMap.risingFrom 0 s.eng.queues = true → t.queue cl q = rest) ∧
    run.e = e ∧ run.ended = false ∧ run.info.cop = e.cmd.extractLsb' 248 8 ∧ run.info.asid = e.asid ∧ run.info.seq = e.seq ∧
    run.info.cluster = cl ∧ run.info.queue = q ∧ run.info.ckind = e.cmd.extractLsb' 244 2 ∧
    t.eng.tiles = s.eng.tiles ∧ t.mem = s.mem ∧ t.ctx = s.ctx ∧ t.groups = s.groups ∧ t.chains = s.chains ∧ t.launch = s.launch ∧
    t.asids = s.asids ∧ t.fab = s.fab ∧ t.mgmt = s.mgmt ∧ t.time = s.time ∧ { t.fl with sends := s.fl.sends, cancels := s.fl.cancels } = s.fl

/-- What a run says at its start: status, flags, result word and writes. -/
def Run.says (status flags : Nat) (w0 : Word) (effects : List Effect) (r : Run) : Prop :=
  r.info.status = status ∧ r.info.flags = BitVec.ofNat 8 flags ∧ r.info.w0 = w0 ∧ r.effects = effects

/-- A command that does nothing but end with a status. -/
def fails (status : Nat) (r : Run) : Prop := r.info.status = status ∧ r.info.flags = 0 ∧ r.info.w0 = 0 ∧ r.effects = []

/-- A command that does nothing but end with status 8 and the handle of a tile whose data is uncorrectable (R185, R391). -/
def failsBad (h : BitVec 32) (r : Run) : Prop := r.info.status = 8 ∧ r.info.w0 = h.setWidth 64 ∧ r.effects = []

/-- The reserved values of OPS by command (R194, R199, R205, R206, R208, R209). -/
def opsReserved (i : Instr) : Bool :=
  let t := fun (c : CmdArgs) => fp32.decode (c.ops.toNat % 2 ^ 32)
  let odd := fun (x : FpVal) => x == .nan || x == .inf false || x == .inf true
  match i with
  | .tadd c => c.ops.toNat % 4 == 3
  | .tsub c => c.ops.toNat % 4 == 3
  | .tmul c => c.ops.toNat % 4 == 3
  | .tmax c => c.ops.toNat % 4 == 3
  | .tact c => decide (7 ≤ c.ops.toNat % 16) || (c.ops.toNat % 16 != 1 && c.ops.toNat / 2 ^ 32 % 2 ^ 32 != 0)
  | .tsoftmax c => odd (t c)
  | .quant c => t c == .nan || (t c).compare (.fin false 0 0) == some .lt || (c.hb == 0 && t c != .inf false)
  | .pool c => c.hc == 0 && c.ckind != 1
  | _ => false

/-- A command whose shared checks pass (R187), with the tiles of HA, HB and HC. -/
def Passes (s : State) (cl : Nat) (e : QEntry) (i : Instr) (a b d : Tile) : Prop :=
  let c := cmdArgsOf e.cmd
  let u := usesOf (copOf e.cmd)
  e.cancelled = false ∧ reservedSet e (copOf e.cmd) c = false ∧ opsReserved i = false ∧ s.checkTile e.asid u.1 c.ha = .ok a ∧
  s.checkTile e.asid u.2.1 c.hb = .ok b ∧ s.checkTile e.asid u.2.2 c.hc = .ok d ∧
  (misplaced cl u.1 c.ha || misplaced cl u.2.1 c.hb || misplaced cl u.2.2 c.hc) = false

/-- R187, R194, R346: the checks that every command makes first, in their order: discarded by a CANCEL, 10; a field that must be zero, 2; a handle
that names no live tile of the ASID, 3, or one of a cluster that is gone, 9; a tile that must be at the home and is not, 12. A command that fails one
runs to its end with the status, and writes nothing. The order of the handles and of 3 before 9 is the model's choice (log entry 50). -/
def commandChecks : Prop :=
  ∀ (i : Instr) (s : State) (cl q : Nat) (e : QEntry) (rest : List QEntry), Starting s cl q e rest i →
    let c := cmdArgsOf e.cmd
    let u := usesOf (copOf e.cmd)
    let reserved := reservedSet e (copOf e.cmd) c || opsReserved i
    let x := [s.checkTile e.asid u.1 c.ha, s.checkTile e.asid u.2.1 c.hb, s.checkTile e.asid u.2.2 c.hc]
    (e.cancelled = true → Begins s cl q e rest i (fails 10)) ∧
    (e.cancelled = false → reserved = true → Begins s cl q e rest i (fails 2)) ∧
    (e.cancelled = false → reserved = false → (∃ y ∈ x, ∃ n, y = .error n) →
      ∃ n, Begins s cl q e rest i (fails n) ∧ (x.find? fun y => match y with
        | .error _ => true
        | .ok _ => false) = some (.error n) ∧ (n = 3 ∨ n = 9)) ∧
    (e.cancelled = false → reserved = false → (∀ y ∈ x, ∃ t, y = .ok t) →
      (misplaced cl u.1 c.ha || misplaced cl u.2.1 c.hb || misplaced cl u.2.2 c.hc) = true → Begins s cl q e rest i (fails 12))

/-- What one tile row, or a part of it, takes: its elements and its scales. -/
def rowEffects (r : TileRef) (elems : List (Nat × Nat)) (scales : List (Nat × BitVec 8)) : List Effect :=
  (if elems = [] then [] else [.elems r elems]) ++ (if scales = [] then [] else [.scales r scales])

/-- Elements of row r of a tile of n columns. -/
def rowOf (r n : Nat) (f : Nat → Nat) : List (Nat × Nat) := (List.range n).map fun k => (r * 256 + k, f k)

/-- Scales of row r of a tile of n blocks. -/
def scaleRow (r n : Nat) (f : Nat → BitVec 8) : List (Nat × BitVec 8) := (List.range n).map fun k => (r * 256 + k, f k)

/-- R41, R44, R196, R397: TLOAD checks formats (4), alignment (5) and shape (6), and then writes the destination's rows from memory, each from its
own address; a row that cannot be read ends it with what the earlier rows have, and one whose memory is not up yet makes the command wait. TSTORE
writes memory from the rows, up to the first that cannot be written. That alignment goes by the pointer's format, an inherited one as 1 byte, and
that a command accesses memory with user permissions is the model's choice (log entry 51). -/
def transfersStart : Prop :=
  ∀ (s : State) (cl q : Nat) (e : QEntry) (rest : List QEntry) (a b d : Tile),
    let c := cmdArgsOf e.cmd
    let n := c.ops.toNat / 2 ^ 64 % 2 ^ 8 + 1
    let scl := c.ops.getLsbD 72
    let rs : Int := bitsInt 32 (c.ops.toNat % 2 ^ 32)
    let ps : Int := bitsInt 32 (c.ops.toNat / 2 ^ 32 % 2 ^ 32)
    let at_ := fun (p : Word) (r : Nat) => ((((p.toNat % 2 ^ 57 : Nat) : Int) + (r % n : Nat) * rs + (r / n : Nat) * ps) % (2 ^ 57 : Nat)).toNat
    let bad := fun (p : Word) (t : Tile) =>
      let fmt := p.toNat / 2 ^ 60
      let blk := p.toNat / 2 ^ 57 % 8
      let size : Nat := if scl ∨ fmt = 10 then 1 else fmtBytes fmt
      if 12 ≤ fmt ∨ (blk ≠ 0 ∧ fmt ∉ [1, 9, 10, 11]) ∨ (fmt ≠ 0 ∧ (fmt ≠ t.fmt ∨ blk ≠ t.block)) ∨ (scl ∧ t.block = 0) then 4
      else if p.toNat % 2 ^ 57 % size ≠ 0 ∨ c.ops.toNat % 2 ^ 32 % size ≠ 0 ∨ c.ops.toNat / 2 ^ 32 % 2 ^ 32 % size ≠ 0 then 5
      else if t.rows % n ≠ 0 then 6 else 0
    (Starting s cl q e rest (.tload c) → Passes s cl e (.tload c) a b d →
      let p := c.hb ++ c.ha
      let rows := fun (m : Nat) (data : Nat → List Byte) => (List.range m).flatMap fun r =>
        if scl then rowEffects (tileRef c.hc) [] (scaleRow r (data r).length fun k => (data r).getD k 0)
        else rowEffects (tileRef c.hc) (rowOf r d.cols fun k => if d.fmt = 10 then leNat (((data r).drop (3 * (k / 4))).take 3) / 2 ^ (6 * (k % 4)) % 64
          else leNat (((data r).drop (k * fmtBytes d.fmt)).take (fmtBytes d.fmt))) []
      let read := fun (r : Nat) => s.engRead cl e.asid (at_ p r) (if scl then d.blocks else rowBytes d.fmt d.cols)
      (bad p d ≠ 0 → Begins s cl q e rest (.tload c) (fails (bad p d))) ∧
      (bad p d = 0 → ∀ data : Nat → List Byte, (∀ r < d.rows, read r = .ok (data r)) →
        Begins s cl q e rest (.tload c) (Run.says 0 0 0 (rows d.rows data))) ∧
      (bad p d = 0 → ∀ (m n : Nat) (w : Word) (data : Nat → List Byte), m < d.rows → (∀ r < m, read r = .ok (data r)) → read m = .error (n, w) →
        (n ≠ notYet → Begins s cl q e rest (.tload c) (Run.says n 0 w (rows m data))) ∧
        (n = notYet → exec (.tload c) s = .refused (.notEnabled "TLOAD")))) ∧
    (Starting s cl q e rest (.tstore c) → Passes s cl e (.tstore c) a b d →
      let p := c.hc ++ c.hb
      (bad p a ≠ 0 → Begins s cl q e rest (.tstore c) (fails (bad p a))) ∧
      (bad p a = 0 → a.bad = [] → ∀ to_ : Nat → Effect,
        let write := fun (r : Nat) => s.engWrite cl e.asid (at_ p r) (if scl then a.rowScales r else a.rowBytes r)
        ((∀ r < a.rows, write r = .ok (to_ r)) → Begins s cl q e rest (.tstore c) (Run.says 0 0 0 ((List.range a.rows).map to_))) ∧
        (∀ (m n : Nat) (w : Word), m < a.rows → (∀ r < m, write r = .ok (to_ r)) → write m = .error (n, w) →
          (n ≠ notYet → Begins s cl q e rest (.tstore c) (Run.says n 0 w ((List.range m).map to_))) ∧
          (n = notYet → exec (.tstore c) s = .refused (.notEnabled "TSTORE")))))

/-- R197, R198: TCOPY, TGATHER, TFILL and TTRANS: their formats (4) and shapes (6), and what each row of the destination takes. An index out of range
gives a row of zeros and flag 4. -/
def movesStart : Prop :=
  ∀ (s : State) (cl q : Nat) (e : QEntry) (rest : List QEntry) (a b d : Tile),
    let c := cmdArgsOf e.cmd
    let to_ := tileRef c.hc
    let run := fun (i : Instr) (P : Run → Prop) => Starting s cl q e rest i → Passes s cl e i a b d → Begins s cl q e rest i P
    let scalesOf := fun (r i : Nat) => scaleRow i a.blocks fun k => SMap.getD a.scales (r * 256 + k) 0
    let w := fmtBits d.fmt
    let v := c.ops.toNat % 2 ^ 64
    let sc := c.ops.toNat / 2 ^ 64 % 2 ^ 8
    let idx := fun (k : Nat) => bitsInt 32 (b.elem 0 k)
    let good := fun (k : Nat) => decide (0 ≤ idx k) && decide (idx k < a.rows)
    (a.fmt ≠ d.fmt ∨ a.block ≠ d.block → run (.tcopy c) (fails 4)) ∧
    (a.fmt = d.fmt → a.block = d.block → a.rows ≠ d.rows ∨ a.cols ≠ d.cols → run (.tcopy c) (fails 6)) ∧
    (a.fmt = d.fmt → a.block = d.block → a.rows = d.rows → a.cols = d.cols → a.bad = [] →
      run (.tcopy c) (Run.says 0 0 0 ((List.range d.rows).flatMap fun r => rowEffects to_ (rowOf r a.cols fun k => a.elem r k) (scalesOf r r)))) ∧
    (a.fmt ≠ d.fmt ∨ a.block ≠ d.block ∨ b.fmt ≠ 3 → run (.tgather c) (fails 4)) ∧
    (a.fmt = d.fmt → a.block = d.block → b.fmt = 3 → a.cols ≠ d.cols ∨ b.cols < d.rows → run (.tgather c) (fails 6)) ∧
    (a.fmt = d.fmt → a.block = d.block → b.fmt = 3 → a.cols = d.cols → d.rows ≤ b.cols → a.bad = [] → b.bad = [] → c.ha ≠ c.hc → c.hb ≠ c.hc →
      run (.tgather c) (Run.says 0 (if (List.range d.rows).all good then 0 else 4) 0 ((List.range d.rows).flatMap fun k =>
        if good k then rowEffects to_ (rowOf k a.cols fun j => a.elem (idx k).toNat j) (scalesOf (idx k).toNat k)
        else rowEffects to_ (rowOf k d.cols fun _ => 0) (scaleRow k d.blocks fun _ => 0)))) ∧
    (a.fmt = d.fmt → a.block = d.block → b.fmt = 3 → a.cols = d.cols → d.rows ≤ b.cols → a.bad = [] → b.bad = [] → d.bad = [] →
      run (.tgather c) fun r => r.info.status = 0 ∧ r.info.w0 = 0 ∧ (d.cols ≠ 0 → d.rows ≤ r.effects.length)) ∧
    ((d.block = 0 ∧ sc ≠ 0) ∨ 2 ^ w ≤ v → run (.tfill c) (fails 2)) ∧
    (¬ ((d.block = 0 ∧ sc ≠ 0) ∨ 2 ^ w ≤ v) →
      run (.tfill c) (Run.says 0 0 0 ((List.range d.rows).flatMap fun r =>
        rowEffects to_ (rowOf r d.cols fun _ => v) (scaleRow r d.blocks fun _ => BitVec.ofNat 8 sc)))) ∧
    (a.block ≠ 0 ∨ d.block ≠ 0 ∨ a.fmt ≠ d.fmt → run (.ttrans c) (fails 4)) ∧
    (a.block = 0 → d.block = 0 → a.fmt = d.fmt → c.ha = c.hc ∨ d.rows ≠ a.cols ∨ d.cols ≠ a.rows → run (.ttrans c) (fails 6)) ∧
    (a.block = 0 → d.block = 0 → a.fmt = d.fmt → c.ha ≠ c.hc → d.rows = a.cols → d.cols = a.rows → a.bad = [] →
      run (.ttrans c) (Run.says 0 0 0 ((List.range d.rows).flatMap fun j => rowEffects to_ (rowOf j a.rows fun r => a.elem r j) [])))

/-- The FP32 tile after the first n rows of a TSCADD's source have been added to the rows that their indices name, one rounding each (R52). -/
def scattered (a b d : Tile) : Nat → Nat → Nat → Nat
  | 0, x, k => d.elem x k
  | n + 1, x, k =>
    if bitsInt 32 (b.elem 0 n) = x ∧ x < d.rows then
      fp32.round .rne (.sum .rne [(fp32.decode (scattered a b d n x k)).scale (d.scaleAt x k), a.value n k])
    else scattered a b d n x k

/-- R197, R201: TSCADD adds its rows in order; EVSTREAM sends one event for each row of its pair tile, with the step, ARM and release that OPS gives,
and its completion waits for all of them. -/
def scattersAndStreams : Prop :=
  ∀ (s : State) (cl q : Nat) (e : QEntry) (rest : List QEntry) (a b d : Tile),
    let c := cmdArgsOf e.cmd
    let run := fun (i : Instr) (P : Run → Prop) => Starting s cl q e rest i → Passes s cl e i a b d → Begins s cl q e rest i P
    let idx := fun (k : Nat) => bitsInt 32 (b.elem 0 k)
    let good := fun (k : Nat) => decide (0 ≤ idx k) && decide (idx k < d.rows)
    let T := if (s.timeAt (cl / 48)).toNat < (((e.tag.map Tag.time).getD 0)).toNat then ((e.tag.map Tag.time).getD 0) else s.timeAt (cl / 48)
    (a.fmt ∉ [5, 6, 7] ∨ a.block ≠ 0 ∨ d.fmt ≠ 7 ∨ b.fmt ≠ 3 → run (.tscadd c) (fails 4)) ∧
    (a.fmt ∈ [5, 6, 7] → a.block = 0 → d.fmt = 7 → b.fmt = 3 → a.cols ≠ d.cols ∨ b.cols < a.rows → run (.tscadd c) (fails 6)) ∧
    (a.fmt ∈ [5, 6, 7] → a.block = 0 → d.fmt = 7 → b.fmt = 3 → a.cols = d.cols → a.rows ≤ b.cols → a.bad = [] → b.bad = [] → d.bad = [] →
      c.ha ≠ c.hc → d.block = 0 → SMap.risingFrom 0 d.data = true → d.cols ≤ 256 →
      run (.tscadd c) (Run.says 0 (if (List.range a.rows).all good then 0 else 4) 0 ((List.range a.rows).flatMap fun k =>
        if good k then rowEffects (tileRef c.hc) (rowOf (idx k).toNat d.cols fun j => scattered a b d (k + 1) (idx k).toNat j) [] else []))) ∧
    (a.fmt ∈ [5, 6, 7] → a.block = 0 → d.fmt = 7 → b.fmt = 3 → a.cols = d.cols → a.rows ≤ b.cols → a.bad = [] → b.bad = [] → d.bad = [] →
      run (.tscadd c) fun r => r.info.status = 0 ∧ r.info.w0 = 0) ∧
    (a.fmt ≠ 3 → run (.evstream c) (fails 4)) ∧
    (a.fmt = 3 → a.cols ≠ 2 → run (.evstream c) (fails 6)) ∧
    (a.fmt = 3 → a.cols = 2 → a.bad = [] → s.fl.cancels = [] → Starting s cl q e rest (.evstream c) → Passes s cl e (.evstream c) a b d →
      ∃ t, exec (.evstream c) s = .next t ∧ (∃ run, t.runs cl q = s.runs cl q ++ [run] ∧ run.waiting = a.rows ∧ run.good = 0 ∧ run.refused = 0 ∧
        run.info.status = 0) ∧
        ∃ l, t.sendsOf cl = s.sendsOf cl ++ l ∧ l.map (·.what) = (List.range a.rows).map fun r => SendWhat.event
          { addr := BitVec.ofNat 32 (a.elem r 0), value := BitVec.ofInt 48 (bitsInt 32 (a.elem r 1)), step := BitVec.ofNat 32 (c.ops.toNat % 2 ^ 32)
            asid := e.asid, arm := c.ops.getLsbD 32, rel := c.ops.getLsbD 33, count := 1, time := T } (.stream cl e.id))

/-- The tile commands that move data. -/
def Obligations.CopyEngineStarts : Prop := transfersStart ∧ movesStart ∧ scattersAndStreams

/-- The elements of a destination by row and column, each value converted to its format under rne (R42, R195). -/
def mapped (hc : BitVec 32) (d : Tile) (f : Nat → Nat → FpVal) : List Effect :=
  [.elems (tileRef hc) ((List.range d.rows).flatMap fun i => rowOf i d.cols fun j => fmtEncode d.fmt .rne (f i j))]

/-- Flag SAT, when the conversion of a value saturates (R186). -/
def satOf (d : Tile) (f : Nat → Nat → FpVal) : Nat :=
  if (List.range d.rows).any fun i => (List.range d.cols).any fun j => fmtSat d.fmt (f i j) then 8 else 0

/-- R52, R199: a sum in FP32 of terms in their order: the first is rounded, each other is added exactly to what stands there and rounded once; without a
term it is +0. -/
def sum32 : List FpVal → Nat
  | [] => 0
  | v :: l => l.foldl (fun a x => fp32.round .rne (.sum .rne [fp32.decode a, x])) (fp32.round .rne v)

/-- R206: what TACT makes of a value with a function of codes 2 to 6: sigmoid, tanh, GELU, SILU and EXP, each rounded once to FP32. What GELU and SILU
give at −infinity is stated nowhere (log entry 22). -/
def activated (code : Nat) (v : FpVal) : FpVal :=
  match code with
  | 2 => fp32.decode (fp32.round .rne (sigmoidVal v))
  | 3 => fp32.decode (fp32.round .rne (tanhVal v))
  | 4 => if v = .inf true then fp32.decode (Config.tactUnstated 4).toNat else fp32.decode (fp32.round .rne (geluVal v))
  | 5 => if v = .inf true then fp32.decode (Config.tactUnstated 5).toNat else fp32.decode (fp32.round .rne (siluVal v))
  | _ => fp32.decode (fp32.round .rne (expVal v))

/-- R208: element j of the softmax of a row, before its conversion: y is the row times t, in FP32, m the largest of it, e the exponential of the
differences from m, and s the sum of e in increasing order; NaN in a row that holds one, or whose maximum is infinite. -/
def softmaxed (t : FpVal) (row : List FpVal) (j : Nat) : FpVal :=
  let y := row.map fun x => fp32.decode (fp32.round .rne (x.mul t))
  let m := y.tail.foldl FpVal.maxNum (y.headD .nan)
  let e := y.map fun x => fp32.round .rne (expVal (fp32.decode (fp32.round .rne (.sum .rne [x, m.negate]))))
  let s := sum32 (e.map fp32.decode)
  if row.any FpVal.isNan || y.any FpVal.isNan || m == .inf false || m == .inf true then .nan
  else (fp32.decode (e.getD j 0)).quot (fp32.decode s)

/-- R209: the scale of a block: 127 where an element is infinite; else 0 where none is nonzero; else the least c with every element at most F × 2^c in
magnitude, NaNs ignored, clamped to a signed byte. F is 127 for INT8, 255 for UINT8, 64 for T8 and 16 for T6. -/
def IsScale (fmt : Nat) (block : List FpVal) (s : Int) : Prop :=
  let infinite := ∃ x ∈ block, x = .inf false ∨ x = .inf true
  let nonzero := ∃ x ∈ block, ∃ b m e, x = .fin b m e ∧ m ≠ 0
  let F : Nat := if fmt = 1 then 127 else if fmt = 11 then 255 else if fmt = 9 then 64 else 16
  (infinite → s = 127) ∧ (¬ infinite → ¬ nonzero → s = 0) ∧
  (¬ infinite → nonzero → ∃ c : Int, s = max (-128) (min 127 c) ∧ (∀ x ∈ block, x.absVal.compare (.fin false F c) ≠ some .gt) ∧
    ∃ x ∈ block, x.absVal.compare (.fin false F (c - 1)) = some .gt)

/-- The arithmetic formats (R195). -/
def arith (f : Nat) : Prop := f ∈ [1, 2, 3, 5, 6, 7, 9, 10, 11]

/-- R52, R195, R205, R206, R207, R208, R210: the elementwise commands: wrong formats end with 4, wrong shapes with 6, uncorrectable data with 8; else
every element is the exact result converted once. The rounding of the first term of a sum and what sets SAT are the model's choice (log entry 54), and
GELU and SILU have no stated result at −infinity (log entry 22). -/
def elementwiseStarts : Prop :=
  ∀ (s : State) (cl q : Nat) (e : QEntry) (rest : List QEntry) (a b d : Tile),
    let c := cmdArgsOf e.cmd
    let run := fun (i : Instr) (P : Run → Prop) => Starting s cl q e rest i → Passes s cl e i a b d → Begins s cl q e rest i P
    let gives := fun (f : Nat → Nat → FpVal) => Run.says 0 (satOf d f) 0 (mapped c.hc d f)
    let k := c.ops.toNat % 4
    let x := a.value
    let y := fun i j => if k = 1 then b.value 0 j else if k = 2 then b.value i 0 else b.value i j
    let imm := fun (n : Nat) => fp32.decode (c.ops.toNat / 2 ^ n % 2 ^ 32)
    let same := a.rows = d.rows ∧ a.cols = d.cols
    let fits := same ∧ if k = 1 then b.rows = 1 ∧ b.cols = a.cols else if k = 2 then b.rows = a.rows ∧ b.cols = 1 else b.rows = a.rows ∧ b.cols = a.cols
    let zero := FpVal.fin false 0 0
    let pos := fun (v : FpVal) => v.compare zero = some .gt
    let row := fun (i : Nat) => (List.range a.cols).map (a.value i)
    let code := c.ops.toNat % 16
    let two := [(Instr.tadd c, fun i j => FpVal.sum .rne [x i j, y i j]), (.tsub c, fun i j => .sum .rne [x i j, (y i j).negate]),
      (.tmul c, fun i j => (x i j).mul (y i j)), (.tmax c, fun i j => (x i j).maxNum (y i j))]
    let one : List (Instr × (Nat → Nat → FpVal)) := [(.tscale c, fun i j => .sum .rne [(x i j).mul (imm 0), imm 32]),
      (.tact c, fun i j => match code with
        | 0 => if (x i j).isNan then .nan else if pos (x i j) then x i j else zero
        | 1 => if pos (x i j) then x i j else (x i j).mul (imm 32)
        | _ => activated code (x i j))]
    (∀ r ∈ two,
      (¬ arith a.fmt ∨ ¬ arith b.fmt ∨ ¬ arith d.fmt ∨ d.block ≠ 0 → run r.1 (fails 4)) ∧
      (arith a.fmt → arith b.fmt → arith d.fmt → d.block = 0 → ¬ fits → run r.1 (fails 6)) ∧
      (arith a.fmt → arith b.fmt → arith d.fmt → d.block = 0 → fits → a.badAny = true → run r.1 (failsBad c.ha)) ∧
      (arith a.fmt → arith b.fmt → arith d.fmt → d.block = 0 → fits → a.badAny = false → b.badAny = true → run r.1 (failsBad c.hb)) ∧
      (arith a.fmt → arith b.fmt → arith d.fmt → d.block = 0 → fits → a.badAny = false → b.badAny = false → run r.1 (gives r.2))) ∧
    (∀ r ∈ one,
      (¬ arith a.fmt ∨ ¬ arith d.fmt ∨ d.block ≠ 0 → run r.1 (fails 4)) ∧
      (arith a.fmt → arith d.fmt → d.block = 0 → ¬ same → run r.1 (fails 6)) ∧
      (arith a.fmt → arith d.fmt → d.block = 0 → same → a.badAny = true → run r.1 (failsBad c.ha)) ∧
      (arith a.fmt → arith d.fmt → d.block = 0 → same → a.badAny = false → run r.1 (gives r.2))) ∧
    (¬ arith a.fmt ∨ d.fmt ≠ 7 → run (.trowred c) (fails 4)) ∧
    (arith a.fmt → d.fmt = 7 → d.rows ≠ a.rows ∨ d.cols ≠ 1 → run (.trowred c) (fails 6)) ∧
    (arith a.fmt → d.fmt = 7 → d.rows = a.rows → d.cols = 1 → a.badAny = false →
      run (.trowred c) (gives fun i _ => match k with
        | 0 => fp32.decode (sum32 (row i))
        | 1 => (row i).tail.foldl FpVal.maxNum ((row i).headD .nan)
        | 2 => (row i).tail.foldl FpVal.minNum ((row i).headD .nan)
        | _ => fp32.decode (sum32 ((row i).map fun v => v.mul v)))) ∧
    (arith a.fmt → d.fmt = 7 → d.rows = a.rows → d.cols = 1 → a.badAny = true → run (.trowred c) (failsBad c.ha)) ∧
    (¬ arith a.fmt ∨ d.fmt ∉ [5, 6, 7] → run (.tsoftmax c) (fails 4)) ∧
    (arith a.fmt → d.fmt ∈ [5, 6, 7] → same → a.badAny = true → run (.tsoftmax c) (failsBad c.ha)) ∧
    (a.fmt ∈ [1, 9, 10, 11] → d.fmt ∈ [5, 6, 7] → same → a.badAny = true → run (.dequant c) (failsBad c.ha)) ∧
    (arith a.fmt → d.fmt ∈ [5, 6, 7] → ¬ same → run (.tsoftmax c) (fails 6)) ∧
    (arith a.fmt → d.fmt ∈ [5, 6, 7] → same → a.badAny = false →
      run (.tsoftmax c) (gives fun i j => softmaxed (imm 0) (row i) j)) ∧
    (a.fmt ∉ [1, 9, 10, 11] ∨ d.fmt ∉ [5, 6, 7] → run (.dequant c) (fails 4)) ∧
    (a.fmt ∈ [1, 9, 10, 11] → d.fmt ∈ [5, 6, 7] → ¬ same → run (.dequant c) (fails 6)) ∧
    (a.fmt ∈ [1, 9, 10, 11] → d.fmt ∈ [5, 6, 7] → same → a.badAny = false → run (.dequant c) (gives x))

/-- R209, R282: QUANT: columns whose largest magnitude exceeds the threshold go to the skim tile in BF16, the first eight of them, and leave zeros; every
other element is divided by its block's scale and converted. -/
def quantStarts : Prop :=
  ∀ (s : State) (cl q : Nat) (e : QEntry) (rest : List QEntry) (a b d : Tile),
    let c := cmdArgsOf e.cmd
    let run := fun (P : Run → Prop) => Starting s cl q e rest (.quant c) → Passes s cl e (.quant c) a b d → Begins s cl q e rest (.quant c) P
    let formats := a.fmt ∈ [5, 6, 7] ∧ d.fmt ∈ [1, 9, 10, 11] ∧ (c.hb = 0 ∨ b.fmt = 6)
    let same := a.rows = d.rows ∧ a.cols = d.cols
    let fits := same ∧ (c.hb = 0 ∨ b.rows = a.rows ∧ b.cols = 8 ∧ c.hb ≠ c.ha ∧ c.hb ≠ c.hc)
    let tau := fp32.decode (c.ops.toNat % 2 ^ 32)
    let peak := fun (j : Nat) => (List.range a.rows).foldl (fun (m : FpVal) i => m.maxNum (a.value i j).absVal) (FpVal.fin false 0 0)
    let tall := if c.hb = 0 then [] else (List.range a.cols).filter fun j => (peak j).compare tau == some .gt
    let skim := tall.take 8
    let block := fun (i n : Nat) => (List.range (blockLen d.block)).filterMap fun k =>
      if n * blockLen d.block + k < a.cols ∧ n * blockLen d.block + k ∉ skim then some (a.value i (n * blockLen d.block + k)) else none
    let scaled := fun (i n : Nat) (sc : Int) => if d.block = 0 then sc = 0 else IsScale d.fmt (block i n) sc
    (¬ formats → run (fails 4)) ∧ (formats → ¬ fits → run (fails 6)) ∧ (formats → fits → a.badAny = true → run (failsBad c.ha)) ∧
    (formats → fits → a.badAny = false → run fun r =>
      r.info.status = 0 ∧ r.info.skim = skim.length ∧
      r.info.w0 = BitVec.ofNat 64 (((List.range skim.length).map fun k => skim.getD k 0 * 2 ^ (8 * k)).sum) ∧
      (r.info.flags.getLsbD 1 = decide (8 < tall.length)) ∧
      (∃ f, .elems (tileRef c.hc) f ∈ r.effects ∧ ∀ i < d.rows, ∀ j < d.cols, ∀ sc, scaled i (j / blockLen d.block) sc → (i * 256 + j,
        if j ∈ skim then 0 else fmtEncode d.fmt .rne ((a.value i j).scale (-sc))) ∈ f) ∧
      (c.hb ≠ 0 → ∃ f, .elems (tileRef c.hb) f ∈ r.effects ∧ ∀ i < a.rows, ∀ k < 8, (i * 256 + k,
        if k < skim.length then bf16.round .rne (a.value i (skim.getD k 0)) else 0) ∈ f) ∧
      (d.block ≠ 0 → ∃ f, .scales (tileRef c.hc) f ∈ r.effects ∧ ∀ i < d.rows, ∀ n < d.blocks, ∃ sc : Int, scaled i n sc ∧
        (i * 256 + n, BitVec.ofInt 8 sc) ∈ f))

/-- The elementwise engine's commands. -/
def Obligations.ElementwiseStarts : Prop := elementwiseStarts ∧ quantStarts

/-- The accumulator of an FP32 element after n chunks of 32 products: each chunk's sum is rounded, and then its sum with the accumulator (R49, R50). -/
def mmaAcc (prods : Nat → List FpVal) : Nat → Nat → Nat
  | 0, acc => acc
  | n + 1, acc =>
    fp32.round .rne (.sum .rne [fp32.decode (mmaAcc prods n acc), fp32.decode (fp32.round .rne (.sum .rne (prods n)))])

/-- The integer of an INT8 or UINT8 pattern (R39). -/
def smallInt (fmt x : Nat) : Int := if fmt = 1 then bitsInt 8 x else (x % 256 : Nat)

/-- R49, R50, R202, R204: MMA computes an M × N block of C over K = 32 × (KC + 1), with origins in each tile, onto C or onto zero; wrong formats end with 4,
a block that leaves a tile with 6. In FP32 each element is as mmaAcc has it. HALF says that the alarm is on. -/
def mmaStarts : Prop :=
  ∀ (s : State) (cl q : Nat) (e : QEntry) (rest : List QEntry) (a b d : Tile),
    let c := cmdArgsOf e.cmd
    let f : Nat → Nat → Nat := fun i n => c.ops.toNat / 2 ^ i % 2 ^ n
    let M : Nat := f 0 7 + 1
    let N : Nat := f 7 7 + 1
    let K : Nat := 32 * (f 14 3 + 1)
    let run := fun (P : Run → Prop) => Starting s cl q e rest (.mma c) → Passes s cl e (.mma c) a b d → Begins s cl q e rest (.mma c) P
    let half := fun (x : Nat) => x = 5 ∨ x = 6
    let narrow := fun (x : Nat) => x = 1 ∨ x = 9 ∨ x = 10 ∨ x = 11
    let float32 := d.block = 0 ∧ d.fmt = 7 ∧ (half a.fmt ∧ half b.fmt ∨ a.fmt = 7 ∧ b.fmt = 7)
    let float64 := d.block = 0 ∧ d.fmt = 7 ∧ narrow a.fmt ∧ narrow b.fmt
    let int64 := d.block = 0 ∧ d.fmt = 3 ∧ (a.fmt = 1 ∨ a.fmt = 11) ∧ (b.fmt = 1 ∨ b.fmt = 11) ∧ a.block = 0 ∧ b.block = 0
    let inside := f 17 8 + M ≤ a.rows ∧ f 25 8 + K ≤ a.cols ∧ f 33 8 + K ≤ b.rows ∧ f 41 8 + N ≤ b.cols ∧ f 49 8 + M ≤ d.rows ∧ f 57 8 + N ≤ d.cols
    let fit := inside ∧ ((float64 ∨ int64) → K % 64 = 0)
    let zero := c.ops.getLsbD 65
    let prods := fun (i j n : Nat) => (List.range 32).map fun t => (a.value (f 17 8 + i) (f 25 8 + 32 * n + t)).mul (b.value (f 33 8 + 32 * n + t) (f 41 8 + j))
    (¬ float32 → ¬ float64 → ¬ int64 → run (fails 4)) ∧
    (float32 ∨ float64 ∨ int64 → ¬ fit → run (fails 6)) ∧
    (float32 ∨ float64 → fit → a.bad = [] → b.bad = [] → d.bad = [] →
      run (Run.says 0 (if s.mgmt.alarm then 1 else 0) 0 [.elems (tileRef c.hc) ((List.range M).flatMap fun i => (List.range N).map fun j =>
        ((f 49 8 + i) * 256 + (f 57 8 + j),
          mmaAcc (prods i j) (K / 32) (if zero then 0 else d.elem (f 49 8 + i) (f 57 8 + j))))])) ∧
    (int64 → fit → a.bad = [] → b.bad = [] → d.bad = [] → run fun r => r.info.status = 0 ∧ ∃ l : List (Nat × Nat), r.effects = [.elems (tileRef c.hc) l] ∧
      ∀ i < M, ∀ j < N, ∃ v : Int, ((f 49 8 + i) * 256 + (f 57 8 + j), intBits 32 v) ∈ l ∧
        (∀ x : Nat → Int, x 0 = (if zero then 0 else bitsInt 32 (d.elem (f 49 8 + i) (f 57 8 + j))) →
          (∀ n, x (n + 1) = max (-(2 ^ 31)) (min (2 ^ 31 - 1) (x n + ((List.range 32).map fun t =>
            smallInt a.fmt (a.elem (f 17 8 + i) (f 25 8 + 32 * n + t)) * smallInt b.fmt (b.elem (f 33 8 + 32 * n + t) (f 41 8 + j))).sum))) →
          v = x (K / 32)))

/-- R187, R203, R277, R397: MMAG reads its table at its start, and waits while the table's memory is not up yet: a table address that is not a multiple of 16 ends with 5, a table that breaks its rules with 11;
else its gang of members waits for a ticket, which it asks of the sequencer of its die. -/
def mmagStarts : Prop :=
  ∀ (s : State) (cl q : Nat) (e : QEntry) (rest : List QEntry) (a b d : Tile),
    let c := cmdArgsOf e.cmd
    let va : Nat := c.ops.toNat % 2 ^ 57
    let gr : Nat := c.ops.toNat / 2 ^ 57 % 4 + 1
    let gc : Nat := c.ops.toNat / 2 ^ 59 % 8 + 1
    let i := Instr.mmag c
    let run := fun (P : Run → Prop) => Starting s cl q e rest i → Passes s cl e i a b d → Begins s cl q e rest i P
    (va % 16 ≠ 0 → run (fails 5)) ∧
    (va % 16 = 0 → ∀ n w, s.engRead cl e.asid va (16 * gr * gc) = .error (n, w) →
      (n ≠ notYet → run (Run.says n 0 w [])) ∧
      (n = notYet → Starting s cl q e rest i → Passes s cl e i a b d → exec i s = .refused (.notEnabled "MMAG"))) ∧
    (va % 16 = 0 → ∀ l, s.engRead cl e.asid va (16 * gr * gc) = .ok l → gangOk c.hc gr gc l = false → run (fails 11)) ∧
    (va % 16 = 0 → ∀ l ta tb tc, s.engRead cl e.asid va (16 * gr * gc) = .ok l → gangOk c.hc gr gc l = true →
      s.liveTiles e.asid (gangHandles gr gc l).a = .ok ta → s.liveTiles e.asid (gangHandles gr gc l).b = .ok tb →
      s.liveTiles e.asid (gangHandles gr gc l).c = .ok tc → ∀ n, gangShape c ta tb tc gc = some n → run (fails n)) ∧
    (va % 16 = 0 → cl < 192 → q < 3 → ∀ l, s.engRead cl e.asid va (16 * gr * gc) = .ok l → gangOk c.hc gr gc l = true →
      ∀ ta tb tc, s.liveTiles e.asid (gangHandles gr gc l).a = .ok ta → s.liveTiles e.asid (gangHandles gr gc l).b = .ok tb →
        s.liveTiles e.asid (gangHandles gr gc l).c = .ok tc → gangShape c ta tb tc gc = none →
        (s.sequencer (cl / 48)).requests = [] → Starting s cl q e rest i → Passes s cl e i a b d →
        ∃ (t : State) (run : Run) (g : Gang), exec i s = .next t ∧ t.runs cl q = s.runs cl q ++ [run] ∧ run.info.status = 0 ∧ run.gang = some g ∧ g.ticket = none ∧
          g.rows = gr ∧ g.cols = gc ∧ g.slices.length = gr * gc ∧ (∀ x ∈ g.slices, x.phase = .waits ∧ x.status = 0) ∧
          (∀ k < gr * gc, (g.slices.map (·.c))[k]? = some (tileRef ((gangHandles gr gc l).c.getD k 0))) ∧
          (t.sequencer (cl / 48)).requests = [(s.sched.cycle, cl, e.id)] ∧ t.eng.tiles = s.eng.tiles ∧ t.mem = s.mem ∧ t.ctx = s.ctx)

/-- R187, R199, R200, R365, R366, R397: POOL and ROWADD check formats (4), shapes (6) and ROWADD's alignment (5); a descriptor that cannot be read, or
is bad, ends them; then they read the current-version word, and the record of the version that it names, as acquiring loads; a word or a record
that cannot be read or is bad ends them, one whose memory is not up yet makes them wait, and else they begin with the +1 to the version's drain
member. That the shape against the descriptor is checked before the version's record is read is the model's choice (log entry 52). -/
def bagsStart : Prop :=
  ∀ (s : State) (cl q : Nat) (e : QEntry) (rest : List QEntry) (a b d : Tile),
    let c := cmdArgsOf e.cmd
    let n := c.ops.toNat / 2 ^ 57 % 2 ^ 8 + 1
    let run := fun (i : Instr) (P : Run → Prop) => Starting s cl q e rest i → Passes s cl e i a b d → Begins s cl q e rest i P
    let poolBad := a.fmt ≠ 3 ∨ (c.hb ≠ 0 ∧ b.fmt ≠ 7) ∨ (c.hc ≠ 0 ∧ d.fmt ≠ 7)
    let poolOdd := a.cols < n ∨ (c.hb ≠ 0 ∧ b.cols < n)
    let addBad := a.fmt ∉ [5, 6, 7] ∨ a.block ≠ 0
    let col := c.ops.toNat % 2 ^ 4 * 2 ^ 7 + c.ops.toNat / 2 ^ 65 % 2 ^ 7
    let fits := fun (t : Table) (pool : Bool) =>
      if pool then if c.hc = 0 then 2 * col + 1 < t.width else d.cols = t.width
      else a.cols = t.width ∧ c.hb.toNat < t.rows ∧ t.owners.getD (c.hb.toNat * 0x9E3779B1 % 2 ^ 32 % t.owners.length) 0 = cl
    (poolBad → run (.pool c) (fails 4)) ∧ (¬ poolBad → poolOdd → run (.pool c) (fails 6)) ∧ (addBad → run (.rowadd c) (fails 4)) ∧
    (¬ addBad → c.ops.toNat % 2 ^ 57 % 128 ≠ 0 → run (.rowadd c) (fails 5)) ∧
    ∀ r ∈ [(Instr.pool c, c.ops.toNat / 2 ^ 7 % 2 ^ 50 * 128, true), (.rowadd c, c.ops.toNat % 2 ^ 57, false)],
      let stops := fun (m : Nat) (w : Word) => (m ≠ notYet → run r.1 (Run.says m 0 w [])) ∧
        (m = notYet → Starting s cl q e rest r.1 → Passes s cl e r.1 a b d →
          exec r.1 s = .refused (.notEnabled (if r.2.2 then "POOL" else "ROWADD")))
      (if r.2.2 then ¬ poolBad ∧ ¬ poolOdd else ¬ addBad ∧ r.2.1 % 128 = 0) →
        (∀ m w, s.engRead cl e.asid r.2.1 128 = .error (m, w) → stops m w) ∧
        (∀ l, s.engRead cl e.asid r.2.1 128 = .ok l → tableOf l = none → run r.1 (fails 2)) ∧
        (∀ l t, s.engRead cl e.asid r.2.1 128 = .ok l → tableOf l = some t → ¬ fits t r.2.2 → run r.1 (fails 6)) ∧
        (∀ l t, s.engRead cl e.asid r.2.1 128 = .ok l → tableOf l = some t → fits t r.2.2 →
          (∀ m w, s.engAcquire cl e.asid 0 (r.2.1 + 0x10) 8 = .error (m, w) → stops m w) ∧
          ∀ x f, s.engAcquire cl e.asid 0 (r.2.1 + 0x10) 8 = .ok (x, f) →
            let at_ := wordAt x 0
            (at_ % 128 ≠ 0 ∨ 2 ^ 57 ≤ at_ → run r.1 (fails 2)) ∧
            (at_ % 128 = 0 → at_ < 2 ^ 57 →
              (∀ m w, s.engAcquire cl e.asid f at_ 128 = .error (m, w) → stops m w) ∧
              (∀ rec_ g, s.engAcquire cl e.asid f at_ 128 = .ok (rec_, g) → versionOf t rec_ = none → run r.1 (fails 2)) ∧
              (∀ rec_ g v, s.engAcquire cl e.asid f at_ 128 = .ok (rec_, g) → versionOf t rec_ = some v → s.fl.cancels = [] →
                Starting s cl q e rest r.1 → Passes s cl e r.1 a b d →
                ∃ (t' : State) (run : Run) (bag : Bag) (y : SendEntry), exec r.1 s = .next t' ∧ t'.runs cl q = s.runs cl q ++ [run] ∧
                  run.bag = some bag ∧ bag.phase = .plus at_ ∧ bag.desc = l ∧ bag.record = rec_ ∧ bag.floor = g ∧ t'.sendsOf cl = s.sendsOf cl ++ [y] ∧
                  y.what = .event { addr := v.drain, value := 1, step := BitVec.allOnes 32, asid := e.asid, arm := false, rel := false, count := 1
                                    time := 0 } (.pin cl e.id))))

/-- R184: the words of a completion message. -/
def completionWords (i : CmdInfo) : List Word :=
  [i.w0, BitVec.ofNat 64 (i.cop.toNat * 2 ^ 56 + i.status * 2 ^ 48 + i.flags.toNat * 2 ^ 40 + i.skim * 2 ^ 36 + i.home.toNat),
   BitVec.ofNat 64 (i.seq.toNat + i.cluster % 256 * 2 ^ 32), BitVec.ofNat 64 (0xF3 * 2 ^ 56)]

/-- No address of a context line, of a home that has gone or of a pool is among these. -/
def PlainBytes (s seen : State) (pas : List Nat) : Prop :=
  (∀ a ∈ pas, s.lineAt a = none ∧ seen.homeGone a = false) ∧
    (s.mgmt.based = false ∨ ∀ pa ∈ pas, pa < s.mgmt.ptBase ∨ s.mgmt.ptBase + 32 * 4096 * 192 ≤ pa)

/-- R52, R199, R200, R364, R366: a POOL that has pinned a version, here one without moves, delivers its partial sum, as a result word or in row 0 of HC: each
column's sum over the entries of the bag whose rows this cluster owns, in order, of the weight and the row's element; an index outside the table sets
IDXRANGE. A ROWADD rewrites the elements of its row, each the exact sum of element and update, converted under the row's own scales. Before the
completion it gives the version up, with −1 and release to the drain member; so does one that has stopped with a version. -/
def bagsDeliver : Prop :=
  ∀ (s : State) (cl : Nat) (r : Run) (b : Bag) (t : Table) (vr : Version),
    let c := cmdArgsOf r.e.cmd
    let seen := s.seenBy r.start
    s.runs cl 1 = [r] → r.ended = false → r.waiting = 0 → r.gang = none → r.bag = some b → r.effects = [] → r.e.poster = none → r.info.ckind = 1 →
    SMap.risingFrom 0 s.eng.running = true → s.chains = [] → s.fl.cancels = [] →
    tableOf b.desc = some t → versionOf t b.record = some vr →
    let ends := fun (unpins : Bool) (status flags : Nat) (w0 : Word) (P : State → Prop) =>
      ∃ (t' : State) (y : SendEntry), exec (.engineCommandEnd cl 1 0) s = .next t' ∧ P t' ∧ t'.runs cl 1 = [] ∧
        (let w := completionWords { r.info with status := status, flags := BitVec.ofNat 8 flags, w0 := w0 }
         y.what = .msg r.info.ctgt (w.getD 0 0) (w.getD 1 0) (w.getD 2 0) (w.getD 3 0) 4
          (.completion { r.info with status := status, flags := BitVec.ofNat 8 flags, w0 := w0 })) ∧
        (unpins = false → t'.sendsOf cl = s.sendsOf cl ++ [y]) ∧
        (unpins = true → ∃ (x : SendEntry) (z : Ev), t'.sendsOf cl = s.sendsOf cl ++ [x, y] ∧ x.what = .event z .device ∧ z.addr = vr.drain ∧
          z.value = -1 ∧ z.step = 0xFFFFFFFF ∧ z.arm = false ∧ z.rel = true ∧ z.asid = r.e.asid ∧ z.count = 1)
    let owner := fun (x : Nat) => x * 0x9E3779B1 % 2 ^ 32 % t.owners.length
    (∀ st w, b.phase = .stopped st w none → st ≠ notYet → ends false st 0 w fun t' => t'.eng.tiles = s.eng.tiles ∧ t'.mem = s.mem) ∧
    (∀ st w v, b.phase = .stopped st w (some v) → st ≠ notYet → ends true st 0 w fun t' => t'.eng.tiles = s.eng.tiles ∧ t'.mem = s.mem) ∧
    ∀ (v : Nat) (sb : List Byte), b.phase = .pinned v → vr.moves = 0 → seen.engRead cl r.e.asid vr.shards (8 * t.owners.length) = .ok sb →
      let slot := fun (x : Nat) => (wordAt sb (owner x) + vr.pitch * x) % 2 ^ 57
      let entries := b.a.zip (if c.hb = 0 then b.a.map fun _ => FpVal.fin false 1 0 else b.b.map fp32.decode)
      let inside := fun (x : Nat) => 0 ≤ bitsInt 32 x ∧ bitsInt 32 x < t.rows
      let mine := entries.filter fun x => decide (inside x.1 ∧ t.owners.getD (owner (bitsInt 32 x.1).toNat) 0 = cl)
      (copOf r.e.cmd = 0x08 → b.a ≠ [] → (c.hb ≠ 0 → b.b ≠ []) → ∀ rows : Nat → List Byte,
        (∀ x ∈ mine, seen.engRead cl r.e.asid (slot (bitsInt 32 x.1).toNat) t.slotBytes = .ok (rows (bitsInt 32 x.1).toNat)) →
        let sum := fun (k : Nat) => sum32 (mine.map fun x => x.2.mul (t.value (rows (bitsInt 32 x.1).toNat) k))
        let flags := if ∀ x ∈ entries, inside x.1 then 0 else 4
        let col := 2 * (c.ops.toNat % 2 ^ 4 * 2 ^ 7 + c.ops.toNat / 2 ^ 65 % 2 ^ 7)
        (c.hc = 0 → ends true 0 flags (BitVec.ofNat 64 (sum col + sum (col + 1) * 2 ^ 32)) fun t' => t'.eng.tiles = s.eng.tiles ∧ t'.mem = s.mem) ∧
        (let x := s.entry (tileKey c.hc)
         c.hc ≠ 0 → x.live = true → x.gen = c.hc.setWidth 12 → seen.clusterGone (tileCluster c.hc) = false → SMap.risingFrom 0 x.data = true →
          ends true 0 flags 0 fun t' => t'.mem = s.mem ∧ (∀ k < t.width, SMap.getD (t'.entry (tileKey c.hc)).data k 0 = sum k) ∧
            (∀ n, t.width ≤ n → SMap.getD (t'.entry (tileKey c.hc)).data n 0 = SMap.getD x.data n 0) ∧
            ∀ key, key ≠ tileKey c.hc → t'.entry key = s.entry key)) ∧
      (copOf r.e.cmd = 0x09 → b.a ≠ [] → ∀ (row : List Byte) (pas : List Nat) (swc : List Bool),
        seen.engRead cl r.e.asid (slot c.hb.toNat) t.slotBytes = .ok row →
        let vals := (List.range t.width).map fun k =>
          (FpVal.sum .rne [t.value row k, fmtDecode b.aFmt (b.a.getD k 0)]).scale (-(t.scale row k))
        let bytes := t.bytesOf (vals.map (fmtEncode t.fmt .rne))
        seen.engWrite cl r.e.asid (slot c.hb.toNat) bytes = .ok (.mem swc pas bytes) → (∀ f ∈ swc, f = false) → pas.Nodup → PlainBytes s seen pas →
        Memory.wf s.mem.bytes = true →
        ends true 0 (if vals.any (fmtSat t.fmt) then 8 else 0) 0 fun t' => t'.readBytes pas = bytes ∧ (∀ a, a ∉ pas → t'.readByte a = s.readByte a) ∧
          t'.eng.tiles = s.eng.tiles)

/-- The matrix commands and those of embedding tables. -/
def Obligations.MatrixAndBagStarts : Prop := mmaStarts ∧ mmagStarts ∧ bagsStart ∧ bagsDeliver

/-- The shared checks of every engine command. -/
def Obligations.CommandChecks : Prop := commandChecks

/-! ### Results, faults and orderings that end (R81, R142, R147, R152 to R154, R162, R171, R172, R382, R407) -/

/-- The step does not happen in this state. -/
def NotYet (i : Instr) (s : State) (name : String) : Prop := exec i s = .refused (.notEnabled name)

/-- A line at which a change is a change of the line alone: no loss of a die waits for it, no CANCEL has reached it, and if it waits it
holds its slot. -/
def Quiet (l : Line) : Prop := l.lost = 0 ∧ l.cancelled = false ∧ (l.c.st.state = .waiting → ∃ c u sl, l.place = .slot c u sl)

/-- R81: l' is l after a result: the written bits of the written registers, the predicate pair that comes with it, the cleared pending
bits; a context that waits for no more than this is READY. -/
def Landed (l l' : Line) (writes : List RegWrite) (clear : BitVec 8) (pred : Option (BitVec 2 × Bool)) (wake : Bool) : Prop :=
  let pend := l.c.st.pend &&& ~~~clear
  l'.c.g = (writes.foldl (fun (c : Ctx) w => c.setReg (regOf w.1) ((c.reg (regOf w.1) &&& ~~~w.2.2) ||| (w.2.1 &&& w.2.2))) l.c).g ∧
  (pred = none → l'.c.p = l.c.p) ∧
  (∀ k v, pred = some (k, v) → l'.c.p =
    ((l.c.setPred (pairLo k) (if v then 0xFFFF else 0)).setPred (pairHi k) (if v then 0 else 0xFFFF)).p) ∧
  l'.c.pc = l.c.pc ∧ l'.c.st = { l.c.st with pend := pend, state := l'.c.st.state } ∧
  (l'.c.st.state = .ready ∨ l'.c.st.state = l.c.st.state) ∧
  (l.c.st.state ≠ .waiting → l'.c.st.state = l.c.st.state) ∧
  (l.c.st.state = .waiting → l.c.waitKind = 8 → (l'.c.st.state = .ready ↔ pend &&& l.watch = 0)) ∧
  (l.c.st.state = .waiting → l.c.waitKind = 3 → (l'.c.st.state = .ready ↔ wake = true))

/-- A result lands in one line: the line is as `Landed` says, every other line and all of memory are as before, and the operations in flight
are as given. -/
def LandsIn (i : Instr) (s : State) (key : Nat) (l : Line) (writes : List RegWrite) (clear : BitVec 8) (pred : Option (BitVec 2 × Bool))
    (wake : Bool) (fl : Flight) : Prop :=
  ∃ (t : State) (l' : Line), exec i s = .next t ∧ SMap.get? t.ctx.lines key = some l' ∧ Landed l l' writes clear pred wake ∧
    sameLinesBut key s t ∧ sameMemoryBut key s t ∧ t.mem = s.mem ∧ t.fl = fl ∧ t.eng = s.eng ∧ t.groups = s.groups ∧ t.asids = s.asids

/-- R81, R142, R147: LINE_WRITE of a value and DIVIDE_COMPLETE each land one result. SFU_COMPLETE ends the request at the head of a cluster's queue,
whatever has become of its context: its result is on its way to the line, and its entry is free, held for the recorded unit that comes first in the
rotation; an entry that its unit has not taken in the 8 cycles after it freed is released. Where the rotation starts, and that the released entry is any unit's, is the model's choice (log entry 63). -/
def valuesLand : Prop :=
  ∀ (s : State) (k c : Nat) (l : Line),
    (∀ (p : Pending) (w : List RegWrite) (pred : Option (BitVec 2 × Bool)), nth? s.fl.pend k = some p → p.what = .value w pred →
      SMap.get? s.ctx.lines p.line = some l → Quiet l →
      LandsIn (.lineWrite k) s p.line l w p.clear pred p.wake { s.fl with pend := removeAt k s.fl.pend }) ∧
    (∀ r : DivReq, nth? s.fl.divs k = some r → SMap.get? s.ctx.lines r.line = some l → Quiet l →
      LandsIn (.divideComplete k) s r.line l [(r.d, r.value, BitVec.allOnes 64)] (regMask (regOf r.d)) none false
        { s.fl with divs := removeAt k s.fl.divs }) ∧
    (∀ (q : Sfu) (r : SfuReq) (rest : List SfuReq), SMap.get? s.fl.sfu c = some q → q.queue = r :: rest →
      let open_ := fun (u : Nat) => u ∈ q.refused
      let p : Pending := { line := r.line, clear := r.clear, what := .value r.writes none, wake := false, tag := none, seq := r.seq }
      ∃ q' : Sfu, q'.queue = rest ∧ q'.refused = q.refused ∧
        exec (.sfuComplete c) s = .next { s with fl := { s.fl with sfu := SMap.set s.fl.sfu c q', pend := s.fl.pend ++ [p] } } ∧
        ((∀ u < 4, ¬ open_ u) → q'.held = q.held) ∧
        (∀ n < 4, open_ ((s.sched.cycle + n) % 4) → (∀ m < n, ¬ open_ ((s.sched.cycle + m) % 4)) →
          q'.held = q.held ++ [((s.sched.cycle + n) % 4, s.sched.cycle)])) ∧
    (∀ (q : Sfu) (x : Nat × Nat), SMap.get? s.fl.sfu c = some q → nth? q.held k = some x →
      (x.2 + 8 < s.sched.cycle → exec (.sfuHoldExpire c k) s =
        .next { s with fl := { s.fl with sfu := SMap.set s.fl.sfu c { q with held := removeAt k q.held } } }) ∧
      (s.sched.cycle ≤ x.2 + 8 → NotYet (.sfuHoldExpire c k) s "SFU_HOLD_EXPIRE"))

/-- R171: the accumulator after one more message. -/
def reduced (kind : RedKind) (acc w0 : Word) : Word :=
  match kind with
  | .i64 => acc + w0
  | .f64 => BitVec.ofNat 64 (fp64.add .rne acc.toNat w0.toNat)
  | .f32 => BitVec.ofNat 64 (fp32.add .rne (acc.toNat % 2 ^ 32) (w0.toNat % 2 ^ 32) +
      2 ^ 32 * fp32.add .rne (acc.toNat / 2 ^ 32) (w0.toNat / 2 ^ 32))

/-- R171: a reduction pops the head message of its inbox and adds its first word; when it has popped its count it writes both registers and
clears their pending bits; with an empty inbox it waits, and while a plane or a port that its read needs is down (log entry 66). -/
def reductionPops : Prop :=
  ∀ (s : State) (k : Nat) (r : Reduction) (l : Line), nth? s.fl.reds k = some r → SMap.get? s.ctx.lines r.line = some l → Quiet l →
    (∀ m, m ≠ k → ∀ x, nth? s.fl.reds m = some x → x.line ≠ r.line) →
    let ends := fun (m : Line) (acc : Word) (cnt : Nat) (t : State) => ∃ l', SMap.get? t.ctx.lines r.line = some l' ∧ l'.redo = false ∧
      l'.c.inboxCount = m.c.inboxCount ∧ l'.c.inboxHead = m.c.inboxHead ∧ t.fl = { s.fl with reds := removeAt k s.fl.reds } ∧
      Landed m l' [(r.dreg, acc, BitVec.allOnes 64), (r.areg, BitVec.ofNat 64 cnt, BitVec.allOnes 64)]
        (regMask (regOf r.dreg) ||| regMask (regOf r.areg)) none false
    let rest := fun (t : State) => sameLinesBut r.line s t ∧ sameMemoryBut r.line s t ∧ t.mem = s.mem ∧ t.eng = s.eng ∧ t.asids = s.asids
    (r.cnt = 0 → ∃ t, exec (.reducerPop k) s = .next t ∧ ends l r.acc 0 t ∧ rest t) ∧
    (r.cnt ≠ 0 → l.c.inboxCount = 0 → NotYet (.reducerPop k) s "REDUCER_POP") ∧
    (r.cnt ≠ 0 → s.inReach l.c (l.c.inboxBase.toNat * 512 + 32 * l.c.inboxHead.toNat) 32 = false → NotYet (.reducerPop k) s "REDUCER_POP") ∧
    (∀ pas swc, r.cnt ≠ 0 → l.c.inboxCount ≠ 0 → s.inReach l.c (l.c.inboxBase.toNat * 512 + 32 * l.c.inboxHead.toNat) 32 = true →
      s.transBytes l.c.here l.c.asid l.c.level .engine .read (l.c.inboxBase.toNat * 512 + 32 * l.c.inboxHead.toNat) 32 = .ok (pas, swc) →
      s.poisoned pas = false →
      let acc := reduced r.kind r.acc (BitVec.ofNat 64 (leNat (s.readBytes (pas.take 8))))
      let m := { l with c := { l.c with inboxHead := l.c.inboxHead + 1, inboxCount := l.c.inboxCount - 1 } }
      ∃ t, exec (.reducerPop k) s = .next t ∧ rest t ∧ (r.cnt = 1 → ends m acc 0 t) ∧
        (r.cnt ≠ 1 → ∃ l', SMap.get? t.ctx.lines r.line = some l' ∧ l'.c.g = l.c.g ∧ l'.c.st = l.c.st ∧ l'.c.inboxHead = m.c.inboxHead ∧
          l'.c.inboxCount = m.c.inboxCount ∧
          t.fl = { s.fl with reds := modifyAt (fun x => { x with acc := acc, cnt := r.cnt - 1 }) k s.fl.reds }))

/-- Results reach their lines: values, quotients and roots, special functions, and the registers of a reduction (R81, R142, R147, R171). -/
def Obligations.ResultsLand : Prop := valuesLand ∧ reductionPops

/-- The words of a MEMORY record (R393), written by die d. -/
def memoryRecord (s : State) (cause : Nat) (asid : BitVec 12) (handle pc va : Word) (pa d : Nat) : List Word :=
  [BitVec.ofNat 64 (1 + cause * 2 ^ 8 + asid.toNat * 2 ^ 16 + ((s.homeDie pa).getD 0) * 2 ^ 28), handle, pc, va, BitVec.ofNat 64 (pa / 64 * 64),
   0, s.timeAt d, 0]

/-- The replay address of R152. -/
def replayWord (a : Access) : Word :=
  match a.kind with
  | .ldt fmt pos => BitVec.ofNat 64 (fmt * 2 ^ 60 + (if fmt = 10 then pos else 0) * 2 ^ 57) ||| a.va.setWidth 64
  | _ => a.va.setWidth 64

/-- The result of the k-th access in flight does not land: its destination takes the replay address and is no longer pending, and the RUNNING
context is trapped at once, with this detail in its record, in a state u in which the access is gone and otherwise only the given error record has
been written. -/
def StopsWith (i : Instr) (s : State) (k : Nat) (p : Pending) (a : Access) (l : Line) (code : BitVec 8) (obj : Option (BitVec 60)) (va : Nat)
    (detail : Word) (records : List (List Word)) : Prop :=
  ∃ (u : State) (m : Line), Landed l m [(lowestReg p.clear, replayWord a, BitVec.allOnes 64)] p.clear none p.wake ∧
    u.fl = { s.fl with pend := removeAt k s.fl.pend } ∧ u.mgmt.errCopies = s.mgmt.errCopies ++ records ∧ u.asids = s.asids ∧ u.eng = s.eng ∧
    (records = [] → u.mem = s.mem ∧ sameLinesBut p.line s u) ∧
    exec i s = .next (u.takeTrap p.line { m with fault := none }
      { code := code, pc := l.c.pc, obj := obj, at_ := a.pc, src := a.pc, va := (BitVec.ofNat 57 va).setWidth 64, word := a.word, detail := detail })

/-- R152, R154, R238, R387: a load in flight that meets a fault, a remote TRV home, uncorrectable data or a lost home does not load: the context is
TRAPPED with the replay marker, travels to that home with it, or is TRAPPED without a marker and recorded. An atomic toward a lost home
leaves no marker. The detail of a translation, permission or attribute fault says that it was deferred. -/
def accessesStop : Prop :=
  ∀ (s : State) (k : Nat) (p : Pending) (a : Access) (l : Line), nth? s.fl.pend k = some p → p.what = .access a → p.tag = none →
    p.wake = false → SMap.get? s.ctx.lines p.line = some l → Quiet l → l.c.st.state = .running →
    let mark : BitVec 60 := a.pc.setWidth 60 ||| 1
    let seen := s.seenBy p.seq
    let pa := (a.pas.getD []).headD 0
    let va : Word := a.va.setWidth 64
    let bad := fun (b : Nat × Bool) => s.badByteAt (a.cluster / 48) b.2 b.1
    (∀ f x, a.pas = none → seen.transAccess a .read = .error (f, x) → (∀ c, f ≠ .remote c) →
      StopsWith (.deferredFault k) s k p a l (faultCode f) (some mark) x (if f = .dieLost then 0 else 1) []) ∧
    (∀ pas, a.pas = some pas → (∃ b ∈ pas, seen.homeGone b = true) →
      (∀ w fmt pos, a.kind ∈ [.ld w, .ldv, .ldt fmt pos] → StopsWith (.deferredFault k) s k p a l 0x20 (some mark) a.va.toNat 0 []) ∧
      (∀ w op wide b c, a.kind ∈ [.acq w, .amo op wide b c] →
        StopsWith (.deferredFault k) s k p a l 0x20 none a.va.toNat 0
          [memoryRecord s 6 a.asid l.handle (a.pc.setWidth 64) va pa (a.cluster / 48)])) ∧
    (∀ c x, a.pas = none → seen.transAccess a .read = .error (.remote c, x) → s.unacked p.line = false →
      (s.fl.reds.any fun r => r.line == p.line) = false →
      ∃ t l', exec (.loadRemoteHome k) s = .next t ∧ SMap.get? t.ctx.lines p.line = some l' ∧ l'.place = .transit c ∧
        l'.c.st.state = .inTransit ∧ l'.c.waitKind = 6 ∧ l'.c.waitObj = mark ∧ l'.c.pc = l.c.pc ∧ l'.c.reg (regOf (lowestReg p.clear)) = replayWord a ∧
        l'.c.st.pend = l.c.st.pend &&& ~~~p.clear ∧ t.fl = { s.fl with pend := removeAt k s.fl.pend } ∧ t.mem = s.mem) ∧
    (∀ pas b, a.pas = some pas → StoresHere s (s.nameOf p.line) (a.cluster / 48) pas → b ∈ flagged pas a.swc → bad b = true → (∀ b', b' ∈ flagged pas a.swc → bad b' = true → b'.1 = b.1) →
      StopsWith (.poisonedData k) s k p a l 0x16 none a.va.toNat 0
        [memoryRecord s 1 a.asid l.handle (a.pc.setWidth 64) va b.1 (a.cluster / 48)]) ∧
    (∀ pas, a.pas = some pas → StoresHere s (s.nameOf p.line) (a.cluster / 48) pas → (∀ b ∈ flagged pas a.swc, bad b = false) →
      NotYet (.poisonedData k) s "POISONED_DATA") ∧
    (∀ pas, a.pas = some pas → (∀ b ∈ pas, seen.homeGone b = false) → NotYet (.deferredFault k) s "DEFERRED_FAULT" ∧
      NotYet (.loadRemoteHome k) s "LOAD_REMOTE_HOME")

/-- R156, R289, R300, R391, R393: a die's slice replaces its copy of an SWC line: the copy is dropped, its dirty bytes stand at the home slice and no
other byte changes; a unit of it that is uncorrectable and has dirty bytes is uncorrectable there, and a MEMORY record of cause 2 says that the
write-back found it. A load by a context whose stores to the line went to another die's copy finds them: that copy is written back and dropped
first, by the model's choice of when (log entry 64). -/
def copiesComeHome : Prop :=
  (∀ (s : State) (die line : Nat) (c : DieCopy),
    let key := copyKey die line
    let hurt := [0, 1].filter fun h => c.bad.getLsbD h && (List.range 128).any fun i => c.dirty.getLsbD i && i / 64 == h
    let record := fun (h : Nat) => [BitVec.ofNat 64 (1 + 2 * 2 ^ 8 + ((s.homeDie (128 * line + 64 * h)).getD 0) * 2 ^ 28), 0, 0, 0,
      BitVec.ofNat 64 (128 * line + 64 * h), 1, s.timeAt die, 0]
    (SMap.get? s.mem.copies key = none → act (.replaceCopy die line) s = .refused (.notEnabled "COPY")) ∧
    (SMap.get? s.mem.copies key = some c → line < 2 ^ 45 → SMap.risingFrom 0 s.mem.copies = true → Memory.wf s.mem.bytes = true →
      s.lineAt (128 * line) = none → s.mgmt.based = false →
      ∃ t, act (.replaceCopy die line) s = .next t ∧ SMap.get? t.mem.copies key = none ∧
        (∀ k, k ≠ key → SMap.get? t.mem.copies k = SMap.get? s.mem.copies k) ∧
        (∀ a, t.readByte a = if a / 128 = line then broughtByte s c a else s.readByte a) ∧
        (∀ h < 2, h ∈ hurt → t.unitBad (2 * line + h) = true) ∧ (∀ u, u / 2 ≠ line → t.unitBad u = s.unitBad u) ∧
        t.mgmt.errCopies = s.mgmt.errCopies ++ hurt.map record ∧ t.ctx = s.ctx ∧ t.fl = s.fl)) ∧
  ∀ (s : State) (k line die' : Nat) (p : Pending) (a : Access) (w : LoadWidth) (pas : List Nat) (d : Reg) (l : Line) (c : DieCopy),
    let die := dieOf a.cluster
    let who := s.nameOf p.line
    nth? s.fl.pend k = some p → p.what = .access a → a.kind = .ld w → a.pas = some pas → a.swc = pas.map (fun _ => true) → pas ≠ [] →
    (∀ pa ∈ pas, pa / 128 = line ∧ ∃ h, s.homeDie pa = some h ∧ h ≠ die) → line < 2 ^ 45 → line ≠ p.line → s.lineAt (128 * line) = none →
    p.clear = regMask d → p.wake = false → p.tag = none → s.canPerform p a = true → (∀ x ∈ s.mem.stores, x.who ≠ who) →
    SMap.get? s.ctx.lines p.line = some l → l.lost = 0 → l.c.st.state = .running →
    ((SMap.getD s.mem.wrote line []).filter fun x => x.1 == who && x.2 != die) = [(who, die')] →
    SMap.get? s.mem.copies (copyKey die' line) = some c → c.bad = 0 → SMap.get? s.mem.copies (copyKey die line) = none →
    SMap.risingFrom 0 s.mem.copies = true → Memory.wf s.mem.bytes = true →
    ∃ t l', exec (.lineWrite k) s = .next t ∧ SMap.get? t.ctx.lines p.line = some l' ∧
      l'.c.reg d = loadedValue a.kind (leNat (pas.map (broughtByte s c))) ∧ SMap.get? t.mem.copies (copyKey die' line) = none ∧
      (∀ pa ∈ pas, t.readByte pa = broughtByte s c pa)

/-- R382: two plain AMO.ADD requests of one width to one word, under one ASID, become one that carries both operands; when it is performed,
memory takes the sum, the upper request the old word, and the lower the old word and the upper operand. -/
def atomicsMerge : Prop :=
  ∀ (s : State) (k1 k2 : Nat) (p q : Pending) (a b : Access) (wide : Bool) (x y cx cy : Word) (pas : List Nat),
    nth? s.fl.pend k1 = some p → nth? s.fl.pend k2 = some q → p.what = .access a → q.what = .access b → a.kind = .amo .add wide x cx →
    a.pas = some pas →
    (b.kind = .amo .add wide y cy → b.pas = some pas → k1 ≠ k2 → a.asid = b.asid → a.acq = false → a.rel = false → b.acq = false →
      b.rel = false → (∀ n ∈ pas, n < 2 ^ 51) → (wide = true → -(2 ^ 40) ≤ x.toInt ∧ x.toInt < 2 ^ 40 ∧ -(2 ^ 40) ≤ y.toInt ∧ y.toInt < 2 ^ 40) →
      a.merged = [] → b.merged = [] → s.isMerged p.seq = false → s.isMerged q.seq = false →
      s.mustWait (s.nameOf p.line) p.seq pas true = false → s.mustWait (s.nameOf q.line) q.seq pas true = false → s.tagsReady b.tags = true →
      ∃ t, exec (.amoMerge k1 k2) s = .next t ∧ t = { s with fl := { s.fl with pend := t.fl.pend } } ∧
        nth? t.fl.pend k1 = some { p with what := .access { a with merged := [(q.seq, y)], tags := a.tags ++ b.tags } } ∧ nth? t.fl.pend k2 = some q ∧
        (∀ n, n ≠ k1 → n ≠ k2 → nth? t.fl.pend n = nth? s.fl.pend n)) ∧
    (∀ (l : Line) (d : Reg), a.merged = [(q.seq, y)] → k1 < k2 → p.seq ≠ q.seq → (∀ m, m ≠ k2 → ∀ z, nth? s.fl.pend m = some z → z.seq ≠ q.seq) →
      q.clear = regMask d → a.acq = false → p.wake = false → p.tag = none → s.canPerform p a = true → Memory.wf s.mem.bytes = true → pas.Nodup →
      pas.length = (if wide then 8 else 4) → (∀ n ∈ pas, s.lineAt n = none) → (∀ z ∈ a.swc, z = false) → noPoolBytes s pas → SMap.get? s.ctx.lines p.line = some l → l.lost = 0 →
      l.c.st.state = .running →
      let w : Nat := if wide then 64 else 32
      let old := leNat (s.readBytes pas)
      let out := fun (n : Nat) => if wide then BitVec.ofNat 64 n else BitVec.ofInt 64 ((n : Int).bmod (2 ^ 32))
      ∃ t l', exec (.lineWrite k1) s = .next t ∧ leNat (t.readBytes pas) = (old + x.toNat + y.toNat) % 2 ^ w ∧
        SMap.get? t.ctx.lines p.line = some l' ∧ l'.c.reg (regOf (lowestReg p.clear)) = out old ∧
        nth? t.fl.pend (k2 - 1) = some { q with what := .value [(d.val, out ((old + x.toNat % 2 ^ w) % 2 ^ w), BitVec.allOnes 64)] none })

/-- R128, R391, R396: a fetch that fails traps the context before the word issues, with the failing address and the source address; one of a host page
that is not COH by the attribute fault. That a fetch toward a die that is lost traps as one of poisoned data is the model's reading (log entry 11). -/
def fetchesFail : Prop :=
  ∀ (s : State) (key : Nat) (l : Line), s.issuing = some (key, l) →
    let got := s.transBytes l.c.here l.c.asid l.c.level .fetch .exec l.at_.toNat 8
    let src := if l.reissue.isSome then l.at_ else l.src
    let trap := fun (code : BitVec 8) => exec .fetchFault s = .next (s.takeTrap key l
      { code := code, pc := l.c.pc, obj := l.reissue.map (fun x => x.setWidth 60 ||| 1), at_ := l.at_, src := src,
        va := l.at_.setWidth 64, word := 0, detail := 0 })
    (∀ x, got = .error (.translation, x) → trap 0x13) ∧ (∀ x, got = .error (.permission, x) → trap 0x14) ∧
    (∀ x, got = .error (.attrFault, x) → trap 0x12) ∧
    (∀ pas swc, got = .ok (pas, swc) → s.poisonedAt l.c.dieNum swc pas = true ∨ (∃ a ∈ pas, s.homeGone a = true) → trap 0x15) ∧
    (∀ pas swc, got = .ok (pas, swc) → s.poisonedAt l.c.dieNum swc pas = false → (∀ a ∈ pas, s.homeGone a = false) → NotYet .fetchFault s "FETCH_FAULT")

/-- What an access, a merge in the Armature or a fetch that cannot deliver leaves (R128, R152, R154, R382), and a die copy that is written back before
an access or replaced by its slice (R156, R289, R391). -/
def Obligations.AccessesThatStop : Prop := accessesStop ∧ copiesComeHome ∧ atomicsMerge ∧ fetchesFail

/-- R153, R172, R254: the context at issue takes its replay marker, and the marked instruction is the one that issues, in that turn; a stopped reduction
restarts from its registers before anything else issues, and no register is taken. -/
def replaysAndRestarts : Prop :=
  ∀ (s : State) (key : Nat) (l : Line), s.atIssue = some (key, l) → l.lost &&& l.c.st.dies = 0 → l.goTo = none → l.fault = none →
    l.cancelled = false → l.redo = false →
    let st := l.c.st
    let marked := { l with reissue := some (l.c.waitObj.setWidth 57 &&& ~~~1), c := { l.c with waitKind := 0, waitObj := 0 } }
    let mask := regMask (regOf st.qacc.toNat) ||| regMask (regOf st.qcnt.toNat)
    (st.qkind = 0 → (l.c.waitKind = 6 ∨ l.c.waitKind = 15) → l.c.waitObj.getLsbD 0 = true →
      s.issuing = some (key, marked) ∧ boundary s key marked = (if s.parentBusy l.after then some (s.setLine key marked) else none) ∧
      ∃ t, exec .replayReissue s = .next t ∧ t.sched = s.sched ∧ sameLinesBut key s t ∧ sameMemoryBut key s t ∧ sameElse s t ∧
        SMap.get? t.ctx.lines key = some marked) ∧
    ((l.c.waitKind ≠ 6 ∧ l.c.waitKind ≠ 15 ∨ l.c.waitObj.getLsbD 0 = false) → NotYet .replayReissue s "REPLAY_REISSUE" ∧ s.issuing = some (key, l)) ∧
    (st.qkind ≠ 0 → ∃ (t : State) (r : Reduction), exec .qredRestart s = .next t ∧ sameLinesBut key s t ∧ t.mem = s.mem ∧
      t.fl = { s.fl with reds := s.fl.reds ++ [r] } ∧ r.line = key ∧ r.acc = l.c.reg (regOf st.qacc.toNat) ∧
      r.cnt = (l.c.reg (regOf st.qcnt.toNat)).toNat ∧ r.dreg = st.qacc.toNat ∧ r.areg = st.qcnt.toNat ∧
      r.kind = (if st.qkind = 1 then .i64 else if st.qkind = 2 then .f64 else .f32) ∧
      SMap.get? t.ctx.lines key = some
        { l with redo := true, c := { l.c with st := { st with pend := st.pend ||| mask, qkind := 0, qacc := 0, qcnt := 0 } } }) ∧
    (st.qkind = 0 → NotYet .qredRestart s "QRED_RESTART")

/-- The die copies that a range operation of this kind leaves of one that it reaches. -/
def copyAfter (kind : RangeKind) (x : DieCopy) : Option DieCopy :=
  match kind with
  | .clean => some { x with dirty := 0 }
  | .inv => none
  | .discard => none

/-- The physical parts of a range by its pages, in order: from one virtual address each page translates, and ends where the next begins, up to the end
of the range or of what is done. -/
def InPages (found : Nat → Except AccFault (Nat × Page)) (hi : Nat) : Nat → List (Nat × Nat) → Nat → Prop
  | va, [], stop => stop = va
  | va, (pa, n) :: l, stop => va < hi ∧ ∃ pg : Page, found va = .ok (pa, pg) ∧ n = min hi (pg.va + pg.size) - va ∧ InPages found hi (va + n) l stop

/-- R162: a range operation goes through its pages. At DIE, PKG and SYS the die copies of the parts that translate are cleaned or dropped, and what
was dirty is at the home slice but for DISCARD, which writes no byte; at CTX and CL none is touched. At its end ga is past the range, modulo 2^57, gb
is 0 and the context READY; a page that faults traps at the instruction, with ga and gb naming what is left. It waits for the context's earlier
accesses (log entry 30). That the work is done page by page, and that an earlier page's stays when a later one faults, is the model's choice (log
entry 13), and so is that after a DISCARD the home slice reads as before, and that of the stores on their way a DISCARD at PKG or SYS may take only
those that lie in the range whole (log entry 65). Nothing of the copies is uncorrectable; what a write-back of such data does is `copiesComeHome`'s. -/
def rangesEnd : Prop :=
  ∀ (s : State) (k : Nat) (r : RangeReq) (l : Line) (parts : List (Nat × Nat)) (stop : Nat), nth? s.fl.ranges k = some r →
    SMap.get? s.ctx.lines r.line = some l → Quiet l →
    l.c.st.state = .waiting → l.c.waitKind = 10 → SMap.risingFrom 0 s.mem.copies = true → (∀ x ∈ s.mem.copies, x.2.bad = 0) →
    (l.live = true ∨ ∀ key, key % 2 ^ 45 = r.line → SMap.get? s.mem.copies key = none) →
    let start := (l.c.reg (regOf r.areg)).toNat % 2 ^ 57
    let hi := start + (l.c.reg (regOf r.breg)).toNat
    let found := (s.openPages r.kind).translate r.cluster l.c.asid l.c.level .engine (if r.kind = .discard then .write else .read)
    let reached := fun (key : Nat) => (r.scope = .pkg ∨ r.scope = .sys ∨ r.scope = .die ∧ key / 2 ^ 45 = r.cluster / 48) ∧
      ∃ x ∈ parts, x.1 / 128 ≤ key % 2 ^ 45 ∧ 128 * (key % 2 ^ 45) < x.1 + x.2
    let left := (l.c.setReg (regOf r.areg) (BitVec.ofNat 64 (stop % 2 ^ 57))).setReg (regOf r.breg) (BitVec.ofNat 64 (hi - stop))
    let taken := fun (x : Store) => r.kind = .discard ∧ (r.scope = .pkg ∨ r.scope = .sys) ∧ ∃ y ∈ parts, ∀ a ∈ x.pas, y.1 ≤ a ∧ a < y.1 + y.2
    let done := fun (t : State) => t.fl = { s.fl with ranges := removeAt k s.fl.ranges } ∧
      (∀ x ∈ t.mem.stores, x ∈ s.mem.stores) ∧ (∀ x ∈ s.mem.stores, taken x ∨ x ∈ t.mem.stores) ∧
      (r.kind = .discard → ∀ a, a / 128 ≠ r.line → t.readByte a = s.readByte a) ∧
      (∀ key x, SMap.get? s.mem.copies key = some x → reached key → SMap.get? t.mem.copies key = copyAfter r.kind x) ∧
      (∀ key, ¬ reached key → SMap.get? t.mem.copies key = SMap.get? s.mem.copies key) ∧
      (r.kind ≠ .discard → Memory.wf s.mem.bytes = true → ∀ key x i, SMap.get? s.mem.copies key = some x → reached key → i < 128 →
        x.dirty.getLsbD i = true → s.lineAt (128 * (key % 2 ^ 45) + i) = none →
        (∀ key' y, key' ≠ key → key' % 2 ^ 45 = key % 2 ^ 45 → SMap.get? s.mem.copies key' = some y → reached key' → y.dirty.getLsbD i = false) →
        t.readByte (128 * (key % 2 ^ 45) + i) = (x.data >>> (8 * i)).setWidth 8)
    (s.openBefore (s.nameOf r.line) r.seq = true → NotYet (.rangeOperationEnd k) s "RANGE_OPERATION_END") ∧
    (s.openBefore (s.nameOf r.line) r.seq = false → InPages found hi start parts stop → hi ≤ stop →
      ∃ t l', exec (.rangeOperationEnd k) s = .next t ∧ SMap.get? t.ctx.lines r.line = some l' ∧ l'.c.st.state = .ready ∧ l'.c.g = left.g ∧
        l'.c.pc = l.c.pc ∧ done t) ∧
    (∀ f, s.openBefore (s.nameOf r.line) r.seq = false → InPages found hi start parts stop → stop < hi → found stop = .error f →
      ∃ (u : State) (m : Line), done u ∧ (parts = [] → u.mem = s.mem ∧ sameLinesBut r.line s u) ∧ m.c.g = left.g ∧ m.c.st.pend = l.c.st.pend ∧
        exec (.rangeOperationEnd k) s = .next (u.takeTrap r.line m
          { code := f.code, pc := r.pc, obj := none, at_ := r.pc, src := r.pc, va := BitVec.ofNat 64 stop, word := r.word, detail := 0 }))

/-- Orderings and range operations that end, and what is run again. -/
def Obligations.OrderingsAndRestartsEnd : Prop := orderingsComplete ∧ replaysAndRestarts ∧ rangesEnd

/-! ### Messages and deposits at their target's owner (R81, R164, R166 to R168, R357) -/

/-- The request of an entry finds its handle's line l, as R81 and R169 require: a COH or TRV page, a home and an owner that are there, the
ASID and the generation of the handle, and a state that is neither FREE nor RETIRED. -/
def Reaches (s : State) (cluster seq : Nat) (asid : BitVec 12) (h : Word) (key : Nat) (l : Line) : Prop :=
  ∃ (pa : Nat) (p : Page), s.handlePage cluster asid h = some (pa, p) ∧ key = pa / 128 ∧ SMap.get? s.ctx.lines key = some l ∧
    (s.seenBy seq).homeGone pa = false ∧ (∀ d, l.place.ownerDie = some d → (s.seenBy seq).dieGone d = false) ∧
    (p.attr = .coh ∨ p.attr = .trv) ∧ l.c.asid = asid ∧ l.c.gen = handleGen h ∧ l.c.st.state ≠ .free ∧ l.c.st.state ≠ .retired

/-- The reason of R168 for which a request finds no such line. -/
def FailsFor (s : State) (cluster seq : Nat) (asid : BitVec 12) (h : Word) (reason : Nat) : Prop :=
  let seen := s.seenBy seq
  let page := s.handlePage cluster asid h
  let good := fun (pa : Nat) (p : Page) => page = some (pa, p) ∧ seen.homeGone pa = false
  let at_ := fun (pa : Nat) (l : Line) => SMap.get? s.ctx.lines (pa / 128) = some l ∧ l.lost = 0
  let live := fun (pa : Nat) (l : Line) => at_ pa l ∧ ∀ d, l.place.ownerDie = some d → seen.dieGone d = false
  (reason = 5 ∧ page = none) ∨
  (reason = 3 ∧ ∃ pa p, page = some (pa, p) ∧ seen.homeGone pa = true ∧ SMap.get? s.ctx.lines (pa / 128) = none) ∨
  (reason = 3 ∧ ∃ pa p l d, good pa p ∧ at_ pa l ∧ l.place.ownerDie = some d ∧ seen.dieGone d = true) ∨
  (reason = 5 ∧ ∃ pa p l, good pa p ∧ live pa l ∧ (p.attr = .prv ∨ p.attr = .swc ∨ l.c.asid ≠ asid)) ∨
  (reason = 1 ∧ ∃ pa p l, good pa p ∧ live pa l ∧ (p.attr = .coh ∨ p.attr = .trv) ∧ l.c.asid = asid ∧ l.c.gen ≠ handleGen h) ∨
  (reason = 2 ∧ ∃ pa p l, good pa p ∧ live pa l ∧ (p.attr = .coh ∨ p.attr = .trv) ∧ l.c.asid = asid ∧ l.c.gen = handleGen h ∧
    (l.c.st.state = .free ∨ l.c.st.state = .retired))

/-- An entry x of the buffer is to the handle of e, and from the same context, or both are the device's. -/
def SameWay (e x : SendEntry) : Prop :=
  x.what.handle? = e.what.handle? ∧ x.what.isDevice = e.what.isDevice ∧ (e.what.isDevice = true ∨ x.line = e.line)

/-- Entry e stands at place k of a cluster's send buffer and may be offered: no NACK holds it back, no earlier entry goes its way,
and what the releases that it carries stand behind is performed. -/
def MayGo (s : State) (buf k : Nat) (e : SendEntry) : Prop :=
  nth? (s.sendsOf buf) k = some e ∧ buf < 192 ∧ e.hold = none ∧ SMap.risingFrom 0 s.fl.sends = true ∧
  (∀ j < k, ∀ x, nth? (s.sendsOf buf) j = some x → ¬ SameWay e x) ∧ s.tagsReady e.tags = true

/-- Nothing waits for a free entry, and nothing is about to leave its cluster. -/
def NoneWaits (s : State) : Prop :=
  ∀ k l, SMap.get? s.ctx.lines k = some l → l.goTo = none ∧ (l.c.st.state = .waiting → l.c.waitKind ≠ 4)

/-- The entry is acknowledged and freed. -/
def Freed (s t : State) (buf : Nat) (e : SendEntry) : Prop := t.sendsOf buf = (s.sendsOf buf).filter fun x => x.id != e.id

/-- The entry keeps its place in its buffer and is changed by f; no line and no byte of memory changes. -/
def Kept (s t : State) (buf : Nat) (e : SendEntry) (f : SendEntry → SendEntry) : Prop :=
  t.sendsOf buf = (s.sendsOf buf).map (fun x => if x.id = e.id then f x else x) ∧ t.ctx = s.ctx ∧ t.mem = s.mem

/-- R168: the undeliverable request turns into a notice for its sender, and UNDELIV_COUNT rises by 1. -/
def BecomesNotice (s t : State) (buf : Nat) (e : SendEntry) (h w1 : Word) (reason more : Nat) : Prop :=
  let w3 : Word := BitVec.ofNat 64 (0xF * 2 ^ 60 + 2 ^ 56 + reason * 2 ^ 48 + more)
  Kept s t buf e (fun x => { x with tags := [], what := .notice h w1 (e.pc.setWidth 64) w3 }) ∧
  (t.asidRegs e.asid).undeliv = (s.asidRegs e.asid).undeliv + 1

/-- R164, R167: a message in an inbox: 32 bytes at the slot (head + count) mod 16, one message more, a WAITING context of kind 2 READY. -/
def Appended (s t : State) (key : Nat) (l : Line) (pas : List Nat) (ws : List Word) : Prop :=
  (∃ l', SMap.get? t.ctx.lines key = some l' ∧ l'.c.inboxCount = l.c.inboxCount + 1 ∧ l'.c.inboxHead = l.c.inboxHead ∧ l'.c.g = l.c.g ∧
    l'.c.pc = l.c.pc ∧ (l.c.st.state = .waiting → l.c.waitKind = 2 → l'.c.st.state = .ready) ∧
    (l.c.st.state ≠ .waiting → l'.c.st = l.c.st)) ∧
  t.readBytes pas = (ws.flatMap fun w => leBytes 8 w.toNat) ∧ (∀ a, a ∉ pas → a / 128 ≠ key → t.readByte a = s.readByte a) ∧ sameLinesBut key s t

/-- R164: where the next message of an inbox goes. -/
def nextSlotPas (s : State) (l : Line) : Option (List Nat) :=
  s.deviceDest l.c.here l.c.asid (l.c.inboxBase.toNat * 512 + 32 * ((l.c.inboxHead.toNat + l.c.inboxCount.toNat) % 16)) 32

/-- R164, R167, R168: a message of a context is appended to its target's inbox, NACKed when the inbox is full, or turned into a notice with its
reason. `noticesAndRetries` says when it is not offered; tokens and the way there are `requestsCross`'s. -/
def messagesDelivered : Prop :=
  ∀ (s : State) (buf k n : Nat) (e : SendEntry) (h w0 w1 w2 w3 : Word), e.what = .msg h w0 w1 w2 w3 n .context → MayGo s buf k e →
    let i := Instr.messageDelivery buf k
    (∀ key l, Reaches s buf e.id e.asid h key l → Quiet l →
      (16 ≤ l.c.inboxCount.toNat → ∃ t, exec i s = .next t ∧ Kept s t buf e fun x => { x with hold := some (s.sched.cycle + 64) }) ∧
      (l.c.inboxCount.toNat < 16 → nextSlotPas s l = none → ∃ t, exec i s = .next t ∧ BecomesNotice s t buf e h w0 4 ((n - 1) * 2 ^ 8)) ∧
      (∀ pas, l.c.inboxCount.toNat < 16 → nextSlotPas s l = some pas → pas.Nodup → Memory.wf s.mem.bytes = true → (∀ a ∈ pas, s.lineAt a = none) →
        NoneWaits s →
        ∃ t, exec i s = .next t ∧ Appended s t key l pas [w0, w1, w2, w3] ∧ Freed s t buf e ∧ t.fab = s.fab)) ∧
    (∀ reason, FailsFor s buf e.id e.asid h reason → ∃ t, exec i s = .next t ∧ BecomesNotice s t buf e h w0 reason ((n - 1) * 2 ^ 8))

/-- R81, R166, R167, R168: a deposit writes its register and sets the full bit, which a take may wait for; a register that is full NACKs it. -/
def depositsDelivered : Prop :=
  ∀ (s : State) (buf k : Nat) (e : SendEntry) (h v : Word) (m : Reg), e.what = .dep h m.val v → MayGo s buf k e →
    let i := Instr.depositDelivery buf k
    (∀ key l, Reaches s buf e.id e.asid h key l → Quiet l →
      (l.c.st.full.getLsbD m.val = true → ∃ t, exec i s = .next t ∧ Kept s t buf e fun x => { x with hold := some (s.sched.cycle + 64) }) ∧
      (l.c.st.full.getLsbD m.val = false → NoneWaits s →
        let full := l.c.st.full ||| regMask m
        ∃ t l', exec i s = .next t ∧ SMap.get? t.ctx.lines key = some l' ∧ (∀ r, l'.c.reg r = if r = m then v else l.c.reg r) ∧
          l'.c.st.full = full ∧ l'.c.st.pend = l.c.st.pend ∧ l'.c.p = l.c.p ∧ l'.c.pc = l.c.pc ∧
          (l.c.st.state = .waiting → l.c.waitKind = 1 → (l'.c.st.state = .ready ↔ full &&& l.watch = l.watch)) ∧
          (l.c.st.state ≠ .waiting → l'.c.st.state = l.c.st.state) ∧ Freed s t buf e ∧ sameLinesBut key s t ∧ sameMemoryBut key s t)) ∧
    (∀ reason, FailsFor s buf e.id e.asid h reason → ∃ t, exec i s = .next t ∧ BecomesNotice s t buf e h v reason (2 ^ 40 + m.val))

/-- R167, R168, R179: a notice enters its sender's own inbox; a ring that cannot take it drops it, and the request counts once more. A trapped
handler receives no notice of a DIE_LOST trap, which counts instead (R389). A request that a NACK holds back may be offered again 64 cycles
later, a command likewise; what its releases stand behind must be performed first (R295), and an earlier request of its context to the same handle comes
before it. -/
def noticesAndRetries : Prop :=
  ∀ (s : State) (buf k : Nat) (e : SendEntry), nth? (s.sendsOf buf) k = some e → SMap.risingFrom 0 s.fl.sends = true →
    (∀ (w0 w1 w2 w3 : Word) (key : Nat) (l : Line), e.what = .notice w0 w1 w2 w3 → e.line = some key → buf < 192 → e.hold = none →
      (∀ j < k, ∀ x, nth? (s.sendsOf buf) j = some x → ¬ SameWay e x) → SMap.get? s.ctx.lines key = some l → Quiet l →
      s.tagsReady e.tags = true →
      let i := Instr.messageDelivery buf k
      (16 ≤ l.c.inboxCount.toNat → ∃ t, exec i s = .next t ∧ Kept s t buf e fun x => { x with hold := some (s.sched.cycle + 64) }) ∧
      (l.c.inboxCount.toNat < 16 → nextSlotPas s l = none → NoneWaits s →
        ∃ t, exec i s = .next t ∧ Freed s t buf e ∧ t.ctx = s.ctx ∧ t.mem = s.mem ∧
          (t.asidRegs e.asid).undeliv = (s.asidRegs e.asid).undeliv + 1) ∧
      (∀ pas, l.c.inboxCount.toNat < 16 → nextSlotPas s l = some pas → pas.Nodup → Memory.wf s.mem.bytes = true → (∀ a ∈ pas, s.lineAt a = none) →
        NoneWaits s →
        ∃ t, exec i s = .next t ∧ Appended s t key l pas [w0, w1, w2, w3] ∧ Freed s t buf e)) ∧
    (∀ h w0 w1 w2 w3 n key l, e.what = .msg h w0 w1 w2 w3 n .trapNotice → MayGo s buf k e → w3.setWidth 8 = 0x20#8 →
      Reaches s buf e.id e.asid h key l → Quiet l → l.c.st.state = .trapped → NoneWaits s →
      ∃ t, exec (.messageDelivery buf k) s = .next t ∧ Freed s t buf e ∧ t.ctx = s.ctx ∧ t.mem = s.mem ∧
        (t.asidRegs e.asid).undeliv = (s.asidRegs e.asid).undeliv + 1) ∧
    (e.hold.isSome = true ∨ s.tagsReady e.tags = false ∨ (∃ j < k, ∃ x, nth? (s.sendsOf buf) j = some x ∧ SameWay e x) →
      NotYet (.messageDelivery buf k) s "MESSAGE_DELIVERY" ∧ NotYet (.depositDelivery buf k) s "DEPOSIT_DELIVERY") ∧
    (∀ c, e.hold = some c →
      let post := ∃ cmd d w, e.what = .post cmd d w
      let again := fun (i : Instr) => ∃ t, exec i s = .next t ∧ Kept s t buf e fun x => { x with hold := none }
      (c ≤ s.sched.cycle → ¬ post → again (.sendRetry buf k)) ∧ (c ≤ s.sched.cycle → post → again (.postRetry buf k)) ∧
      (s.sched.cycle < c → NotYet (.sendRetry buf k) s "SEND_RETRY" ∧ NotYet (.postRetry buf k) s "POST_RETRY"))

/-- R357: every 1,024 fabric cycles a port's refill gives every ASID that has a request or other traffic waiting there, or was active there, its share of 1,024 tokens
by weight, the remainder going by one each from the one after the last; a bucket holds at most two shares, and other buckets are unchanged. That a
port without either refills as well, and changes nothing, is the model's choice of a cycle for it (log entry 20). -/
def portsRefill : Prop :=
  ∀ (s : State) (die port : Nat),
    let p := die * 64 + port
    let q := s.port p
    let A := s.portAsids p q
    let W := (A.map fun a => (s.asidRegs (BitVec.ofNat 12 a)).weight.toNat).sum
    let share := fun (a : Nat) => if W = 0 then 0 else 1024 * (s.asidRegs (BitVec.ofNat 12 a)).weight.toNat / W
    let more := ((A.filter fun a => decide (q.last < a)) ++ A.filter fun a => decide (a ≤ q.last)).take (1024 - (A.map share).sum)
    let due := die < 4 ∧ port < 64 ∧ s.sched.cycle % 1024 = 0 ∧ q.filled ≠ s.sched.cycle + 1
    (∀ a, a ∈ A ↔ a < 4096 ∧ ((∃ r ∈ s.requests, r.src = p ∧ SMap.get? s.fab.sent r.id = none ∧ r.asid.toNat = a) ∨
      (∃ x ∈ s.traffic, x.src = p ∧ ∃ y : BitVec 12, x.asid = some y ∧ y.toNat = a) ∨ a ∈ q.active)) ∧
    (due →
      ∃ t, exec (.tokenRefill die port) s = .next t ∧ t.ctx = s.ctx ∧ t.mem = s.mem ∧ t.fl = s.fl ∧ (t.port p).active = [] ∧ (t.port p).filled = s.sched.cycle + 1 ∧
        (∀ a ∈ A, let n := share a + (if a ∈ more then 1 else 0)
          SMap.getD (t.port p).buckets a 0 = min (SMap.getD q.buckets a 0 + n) (2 * n)) ∧
        (∀ a, a ∉ A → SMap.getD (t.port p).buckets a 0 = SMap.getD q.buckets a 0) ∧
        (∀ x, x ≠ p → t.port x = s.port x)) ∧
    (¬ due → NotYet (.tokenRefill die port) s "TOKEN_REFILL")

/-- Messages, deposits and notices at their target's owner, their retries, and the tokens that they spend. -/
def Obligations.DeliveriesAtOwners : Prop := messagesDelivered ∧ depositsDelivered ∧ noticesAndRetries ∧ portsRefill

/-! ### Requests at a line's owner, and waits that time ends (R120, R122, R173, R224, R231) -/

/-- The answer to a request: gd of the requester takes the value, its wait of kind 3 ends, and of the operations in flight only the request
is gone. -/
def Answers (i : Instr) (s : State) (k : Nat) (r : OwnerReq) (q : Line) (v : Word) : Prop :=
  ∃ (t : State) (q' : Line), exec i s = .next t ∧ SMap.get? t.ctx.lines r.line = some q' ∧ Landed q q' [(r.d, v, BitVec.allOnes 64)] 0 none true ∧
    t.fl = { s.fl with owners := removeAt k s.fl.owners }

/-- R173, R301: an RGET of a RUNNING or READY target is answered with its register and with the releases of the deposit that stands there; one of
a stale handle with 2. One of any other target stays for its ticks, counted from its arrival, until the target is RUNNING or READY, and is answered
with 1 when they have passed and it is not. The answer is on its way to the register and the pair, which `valuesLand` says it writes; that 2 is
answered for every check of R169 that fails is the model's choice (log entry 16). -/
def remoteReads : Prop :=
  ∀ (s : State) (k m ticks : Nat) (pk : BitVec 2) (r : OwnerReq) (q : Line), nth? s.fl.owners k = some r → r.what = .rget m pk ticks →
    SMap.get? s.ctx.lines r.line = some q → Quiet q →
    let i := Instr.requestAtLineOwner k
    let late := Instr.rgetTimeout k
    let now := (s.timeAt r.die).toNat
    let reply := fun (v : Word) (ok : Bool) =>
      ({ line := r.line, clear := regMask (regOf r.d), what := .value [(r.d, v, BitVec.allOnes 64)] (some (pk, ok)), wake := false, tag := none
         seq := r.seq } : Pending)
    let replies := fun (i : Instr) (v : Word) (ok : Bool) (tags : List Tag) => ∃ t, exec i s = .next t ∧
      t.fl = { s.fl with owners := removeAt k s.fl.owners, pend := s.fl.pend ++ [reply v ok] } ∧ t.mem = s.mem ∧ sameLinesBut r.line s t ∧
      SMap.get? t.ctx.lines r.line = some { q with heard := if tags = [] then q.heard else (q.heard ++ tags).dedup }
    (∀ key l, Reaches s (r.die * 48) r.seq r.asid r.handle key l → Quiet l →
      (l.c.st.state = .running ∨ l.c.st.state = .ready →
        replies i (l.c.reg (regOf m)) true (l.depTags (regMask (regOf m))) ∧ NotYet late s "RGET_TIMEOUT") ∧
      (l.c.st.state ≠ .running → l.c.st.state ≠ .ready →
        (r.until_ = none → exec i s = .next { s with fl := { s.fl with
          owners := modifyAt (fun x => { x with until_ := some (now + ticks) }) k s.fl.owners } }) ∧
        (r.until_ ≠ none → NotYet i s "REQUEST_AT_LINE_OWNER") ∧
        (∀ t, r.until_ = some t → t ≤ now → replies late 1 false []))) ∧
    (∀ reason, FailsFor s (r.die * 48) r.seq r.asid r.handle reason → replies i 2 false [] ∧ NotYet late s "RGET_TIMEOUT") ∧
    (r.until_ = none ∨ (∃ t, r.until_ = some t ∧ now < t) → NotYet late s "RGET_TIMEOUT")

/-- R224, R295, R296: RESUME makes a TRAPPED context READY, once the earlier reads and writes of its issuer are performed: its trap code is 0, its
wait word is cleared unless it holds a replay marker, its next issue acquires the issuer's time, and nothing else of it changes. -/
def resumesDone : Prop :=
  ∀ (s : State) (k : Nat) (r : OwnerReq) (q : Line), nth? s.fl.owners k = some r → r.what = .resume →
    SMap.get? s.ctx.lines r.line = some q → Quiet q → q.c.st.state = .waiting →
    let i := Instr.requestAtLineOwner k
    let done := s.writesDone r.line r.seq = true ∧ s.readsDone r.line r.seq = true
    (¬ done → (∀ pa p, s.handlePage (r.die * 48) r.asid r.handle = some (pa, p) →
        ∀ l, SMap.get? s.ctx.lines (pa / 128) = some l → l.lost = 0) → NotYet i s "REQUEST_AT_LINE_OWNER") ∧
    (∀ key l, done → Reaches s (r.die * 48) r.seq r.asid r.handle key l → l.lost = 0 → key ≠ r.line →
      (l.c.st.state ≠ .trapped → Answers i s k r q 1) ∧
      (l.c.st.state = .trapped → ∃ (t : State) (q' l' : Line), exec i s = .next t ∧ SMap.get? t.ctx.lines r.line = some q' ∧
        Landed q q' [(r.d, 0, BitVec.allOnes 64)] 0 none true ∧ SMap.get? t.ctx.lines key = some l' ∧
        l'.c.st = { l.c.st with state := .ready, trapcode := 0, queued := l'.c.st.queued } ∧ l'.onIssue = some q.c.floor ∧ l'.c.g = l.c.g ∧ l'.c.p = l.c.p ∧ l'.c.pc = l.c.pc ∧
        (if l.c.waitKind = 15 ∧ l.c.waitObj.getLsbD 0 = false then l'.c.waitKind = 0 ∧ l'.c.waitObj = 0
         else l'.c.waitKind = l.c.waitKind ∧ l'.c.waitObj = l.c.waitObj))) ∧
    (∀ reason, done → FailsFor s (r.die * 48) r.seq r.asid r.handle reason →
      Answers i s k r q (if reason = 3 then 3 else 2))

/-- R231: EVICT moves a line to its cluster's context L2 or to memory; it has no effect on one that is there already, or IN_TRANSIT. -/
def evictsDone : Prop :=
  ∀ (s : State) (k : Nat) (toMem : Bool) (r : OwnerReq) (q : Line), nth? s.fl.owners k = some r → r.what = .evict toMem →
    SMap.get? s.ctx.lines r.line = some q → Quiet q → q.c.st.state = .waiting →
    let i := Instr.requestAtLineOwner k
    (∀ reason, FailsFor s (r.die * 48) r.seq r.asid r.handle reason → Answers i s k r q (if reason = 3 then 3 else 1)) ∧
    (∀ key l, Reaches s (r.die * 48) r.seq r.asid r.handle key l → l.lost = 0 →
      (l.c.st.state = .inTransit → Answers i s k r q 4) ∧
      (l.c.st.state ≠ .inTransit → (l.place = .memory ∨ toMem = false ∧ ∃ c, l.place = .l2 c) → Answers i s k r q 2) ∧
      (l.c.st.state ≠ .inTransit → key ≠ r.line → l.mayRetire = false → (s.fl.reds.any fun x => x.line == key) = false → l.waitOver = false →
        (∃ c u, l.place = .l1 c u ∨ ∃ sl, l.place = .slot c u sl) → s.unacked key = false → (toMem = true ∨ s.l2Count l.c.here < 2048) →
        ∃ (t : State) (q' l' : Line), exec i s = .next t ∧ SMap.get? t.ctx.lines r.line = some q' ∧
          Landed q q' [(r.d, 0, BitVec.allOnes 64)] 0 none true ∧ SMap.get? t.ctx.lines key = some l' ∧
          l'.place = (if toMem then .memory else .l2 l.c.here) ∧ l'.c.g = l.c.g ∧ l'.c.p = l.c.p ∧ l'.c.pc = l.c.pc ∧ l'.c.st.valid = false ∧
          l'.c.st.state = (if l.c.st.state = .running then .ready else l.c.st.state)))

/-- R123, R262: a run list that an entry joins, in the cycle from which it stands there: behind those that stand there by then. -/
def joined (l : List RunEntry) (e : RunEntry) : List RunEntry :=
  l.filter (fun x => decide (x.from_ ≤ e.from_)) ++ e :: l.filter fun x => decide (e.from_ < x.from_)

/-- A WAITING context becomes READY: in its slot it issues again; in a cache of its cluster it joins the tail of a run list, once its last turn in a slot
has ended. -/
def Wakes (i : Instr) (s : State) (key : Nat) (l : Line) : Prop :=
  ∃ (t : State) (l' : Line), exec i s = .next t ∧ SMap.get? t.ctx.lines key = some l' ∧ l'.c.st.state = .ready ∧ l'.c.g = l.c.g ∧ l'.c.pc = l.c.pc ∧
    l'.place = l.place ∧ t.fl = s.fl ∧ (l.place ≠ .memory → sameLinesBut key s t ∧ t.mem = s.mem) ∧
    (∀ c, (∃ u, l.place = .l1 c u) ∨ l.place = .l2 c ∨ l.place = .arrival c →
      t.runList c l.c.st.cls.toNat = joined (s.runList c l.c.st.cls.toNat) { line := key, age := 0, from_ := max s.sched.cycle l.out })

/-- R120, R122: a WAIT.time ends at the first tick at which TIME has reached its object: the fabric cycle does not pass before it has; a wait for a
word ends once the word is available. -/
def waitsEnd : Prop :=
  ∀ (s : State) (key : Nat) (l : Line), SMap.get? s.ctx.lines key = some l → l.c.st.state = .waiting →
    (l.c.waitKind = 9 → l.c.waitObj.toNat ≤ (s.timeOf l.c).toNat → Wakes (.timeWaitExpire key) s key l) ∧
    (l.c.waitKind = 9 → (s.timeOf l.c).toNat < l.c.waitObj.toNat → NotYet (.timeWaitExpire key) s "TIME_WAIT_EXPIRE") ∧
    (l.c.waitKind = 9 → l.c.waitObj.toNat ≤ (s.timeOf l.c).toNat → act .idle s = .refused (.notEnabled "CYCLE")) ∧
    (l.c.waitKind = 7 → Wakes (.fetchArrive key) s key l) ∧ (l.c.waitKind ≠ 7 → NotYet (.fetchArrive key) s "FETCH_ARRIVE")

/-- Requests that are answered at a line's owner, and waits that end by themselves. -/
def Obligations.RequestsAtOwners : Prop := remoteReads ∧ resumesDone ∧ evictsDone ∧ waitsEnd

/-! ### Slots, claims, swaps, rings and run lists (R253 to R260, R352 to R355) -/

/-- R254, R255, R261: the line is claimed for the slot: RUNNING, VALID, its cluster the slot's, its cluster's die touched; no list names it. One in
the slot's own context L1 begins its swap; another leaves its place and moves to that L1, within its cluster or across the Armature (R248). -/
def ClaimedFor (s t : State) (key : Nat) (l : Line) (c u sl : Nat) : Prop :=
  let near := l.place = .l1 c u
  (∃ l', SMap.get? t.ctx.lines key = some l' ∧
    l'.c.st = { l.c.st with state := .running, valid := true, unit := BitVec.ofNat 2 u, slot := BitVec.ofNat 3 sl, die := BitVec.ofNat 2 (c / 48),
                            cluster := BitVec.ofNat 6 (c % 48), dies := l.c.st.dies ||| (1#4 <<< (c / 48)), queued := l'.c.st.queued } ∧
    l'.c.g = l.c.g ∧ l'.c.p = l.c.p ∧ l'.c.pc = l.c.pc ∧ l'.c.waitKind = l.c.waitKind ∧ l'.c.waitObj = l.c.waitObj ∧
    (near → l'.place = l.place) ∧ (¬ near → l'.place = if l.place.cluster? = some c then .toL1 c u sl else .toSlot c u sl)) ∧
  (t.slot c u sl).coming = some key ∧ (t.slot c u sl).asking = none ∧ (near → (t.slot c u sl).swap = some s.sched.cycle) ∧
  (¬ near → (t.slot c u sl).swap = none) ∧ (∀ x ∈ t.ctx.run, ∀ e ∈ x.2, e.line ≠ key) ∧ t.fl = s.fl

/-- A slot at its issue cycle that may select: its cluster issues and it is empty and was when its turn began, with nothing on its way to it, and
it has not selected in this cycle. -/
def EmptySlot (s : State) (c u sl : Nat) : Prop :=
  u < 4 ∧ sl < 8 ∧ s.canIssue c = true ∧ s.sched.cycle % 8 = sl ∧
  (let r := s.slot c u sl
   r.line = none ∧ r.coming = none ∧ r.asking = none ∧ r.swap = none ∧ r.chosen ≠ s.sched.cycle + 1 ∧ r.freed ≠ s.sched.cycle + 1)

/-- A line at which no loss of a die and no uncorrectable data is met. -/
def Sound (s : State) (key : Nat) (l : Line) : Prop := l.lost = 0 ∧ s.poisoned (rangeFrom (128 * key) 128) = false

/-- A line of a cache that a slot of its own cluster can claim: its last turn in a slot has ended. -/
def Claimable (s : State) (key : Nat) (l : Line) (c : Nat) : Prop :=
  Sound s key l ∧ l.place ≠ .memory ∧ l.c.st.queued = false ∧ l.c.st.state = .ready ∧ l.c.st.valid = false ∧ l.c.here = c ∧ l.out ≤ s.sched.cycle

/-- The slot has selected in this cycle and asks for a line, or for none. -/
def chose (s : State) (c u sl : Nat) (asks : Option Nat) : State :=
  s.setSlot c u sl { s.slot c u sl with chosen := s.sched.cycle + 1, asking := asks }

/-- R254, R354, R355: a selection claims the first line of the run lists, the highest list first, that can be claimed; a line that a slot owns is passed
over, and so is, until its turn ends, one that gave up its slot. Where its ring is not empty, or nothing roams, the slot is idle; else it claims. -/
def slotsSelect : Prop :=
  ∀ (s : State) (c u sl : Nat), EmptySlot s c u sl →
    let entries := (s.runList c 3 ++ s.runList c 2 ++ s.runList c 1 ++ s.runList c 0).filter fun e => decide (e.from_ ≤ s.sched.cycle)
    let owned := fun (x : RunEntry) => ∃ m, SMap.get? s.ctx.lines x.line = some m ∧ Sound s x.line m ∧ m.c.st.state ≠ .ready
    let idle := exec (.slotSelect c u sl) s = .next (chose s c u sl none)
    (∀ pre e rest l, entries = pre ++ e :: rest → SMap.get? s.ctx.lines e.line = some l → Claimable s e.line l c → (∀ x ∈ pre, owned x) →
      (∀ r ∈ s.fl.reds, r.line ≠ e.line) →
      ∃ t, exec (.slotSelect c u sl) s = .next t ∧ ClaimedFor s t e.line l c u sl ∧ t.mem = s.mem ∧
        ((∀ x ∈ s.ctx.run, ∀ y ∈ x.2, y.line = e.line → y = e) → (t.slot c u sl).next = e.age + (s.sched.cycle / 8 - e.from_ / 8))) ∧
    (entries ≠ [] → (∀ x ∈ entries, owned x) → idle) ∧ (entries = [] → s.ringCount c ≠ 0 → idle) ∧
    (entries = [] → s.ringCount c = 0 → s.roamCandidate c = none → idle) ∧
    (∀ key, entries = [] → s.ringCount c = 0 → s.roamCandidate c = some key →
      exec (.slotSelect c u sl) s = .next (chose s c u sl (some key)))

/-- R255, R256, R355: a claim that a slot has sent succeeds for a READY line that no slot owns, whose last turn in a slot has ended, and that is of its
cluster, or roams with nothing unacknowledged and is of a neighbour; any other is OWNED and changes only the slot; that the owner
looks at no list again is the model's reading (log entry 77). A slot whose context runs selects nothing, and none selects but at its issue cycle,
once (R254). -/
def claimsDecided : Prop :=
  ∀ (s : State) (key c u sl : Nat) (l : Line), SMap.get? s.ctx.lines key = some l → Sound s key l →
    let asked := s.setSlot c u sl { s.slot c u sl with asking := none }
    let asks := (s.slot c u sl).asking = some key
    let roams := l.c.st.roam = true ∧ (s.lowerNeighbour c = some l.c.here ∨ s.upperNeighbour c = some l.c.here) ∧ s.unacked key = false
    let won := s.canIssue c = true ∧ l.c.st.state = .ready ∧ l.c.st.valid = false ∧ l.out ≤ s.sched.cycle ∧ (l.c.here = c ∨ roams)
    (asks → won → l.c.st.queued = false → (∀ r ∈ s.fl.reds, r.line ≠ key) →
      ∃ t, exec (.claim key c u sl) s = .next t ∧ ClaimedFor s t key l c u sl ∧ t.mem = s.mem) ∧
    (asks → ¬ won → exec (.claim key c u sl) s = .next asked) ∧ (¬ asks → NotYet (.claim key c u sl) s "CLAIM") ∧
    (∀ k m, (s.slot c u sl).line = some k → SMap.get? s.ctx.lines k = some m → m.c.st.state ≠ .waiting →
      NotYet (.slotSelect c u sl) s "SLOT_SELECT") ∧
    (s.sched.cycle % 8 ≠ sl ∨ (s.slot c u sl).chosen = s.sched.cycle + 1 → NotYet (.slotSelect c u sl) s "SLOT_SELECT")

/-- R254: the line that a slot awaits comes to its issue unit's context L1, and the slot's next selection begins the swap; one turn later the line is
loaded into the slot, the WAITING context in it having left for that L1, or the READY one, woken since, for a run list's tail; the new context
issues in the turn after that. -/
def swapsProceed : Prop :=
  ∀ (s : State) (c u sl key : Nat) (l : Line), (s.slot c u sl).coming = some key → SMap.get? s.ctx.lines key = some l →
    let fill := Instr.contextL1Fill c u sl
    let load := Instr.swapLoad c u sl
    let due := ∃ t, (s.slot c u sl).swap = some t ∧ s.sched.cycle = t + 8
    let loaded := fun (t : State) => t.mem = s.mem ∧ t.fl = s.fl ∧ SMap.get? t.ctx.lines key = some { l with place := .slot c u sl } ∧
      (t.slot c u sl).line = some key ∧ (t.slot c u sl).coming = none ∧ (t.slot c u sl).swap = none ∧ (t.slot c u sl).turn = s.sched.cycle + 1 ∧
      (t.slot c u sl).age = (s.slot c u sl).next
    (l.place = .toSlot c u sl ∨ l.place = .toL1 c u sl → Sound s key l → s.l1Count c u < 64 →
      exec fill s = .next (s.setLine key { l with place := .l1 c u })) ∧
    (l.place ≠ .toSlot c u sl → l.place ≠ .toL1 c u sl → NotYet fill s "CONTEXT_L1_FILL") ∧
    (l.place = .l1 c u → s.maySelect c u sl = true → exec (.slotSelect c u sl) s =
      .next (s.setSlot c u sl { s.slot c u sl with chosen := s.sched.cycle + 1, swap := some s.sched.cycle })) ∧
    (l.place ≠ .l1 c u → s.maySelect c u sl = true → exec (.slotSelect c u sl) s =
      .next (s.setSlot c u sl { s.slot c u sl with chosen := s.sched.cycle + 1 })) ∧
    (¬ due → NotYet load s "SWAP_LOAD") ∧
    (due → l.place = .l1 c u → l.lost = 0 → (s.slot c u sl).line = none →
      ∃ t, exec load s = .next t ∧ sameLinesBut key s t ∧ t.ctx.run = s.ctx.run ∧ loaded t) ∧
    (∀ k m, due → l.place = .l1 c u → l.lost = 0 → k ≠ key → (s.slot c u sl).line = some k → SMap.get? s.ctx.lines k = some m →
      m.place = .slot c u sl → m.waitOver = false → m.mayRetire = false → (s.fl.reds.any fun r => r.line == k) = false →
      let leaves := fun (t : State) =>
        SMap.get? t.ctx.lines k = some { m with place := .l1 c u, out := s.sched.cycle, c := { m.c with st := { m.c.st with valid := false } } }
      (m.c.st.state = .waiting → ∃ t, exec load s = .next t ∧ loaded t ∧ leaves t ∧ t.ctx.run = s.ctx.run) ∧
      (m.c.st.state = .ready → ∃ t, exec load s = .next t ∧ loaded t ∧ leaves t ∧
        t.runList c m.c.st.cls.toNat = joined (s.runList c m.c.st.cls.toNat) { line := k, age := 0, from_ := s.sched.cycle }))

/-- R7, R250, R253: issue unit by issue unit, slot n has its issue cycle in the fabric cycles that are n modulo 8, once, and a RUNNING or READY context in
it has it: the cycle does not pass before. A cycle passes when nothing that is timed exactly is due in it, and changes nothing else. -/
def slotsRotate : Prop :=
  ∀ (s : State) (c u sl : Nat),
    (s.sched.cycle % 8 ≠ sl ∨ (s.slot c u sl).turn = s.sched.cycle + 1 → act (.issue c u sl) s = .refused (.notEnabled "ISSUE")) ∧
    (∀ r key l, u < 4 → sl < 8 → SMap.get? s.ctx.slots (c * 32 + u * 8 + sl) = some r → r.line = some key → SMap.get? s.ctx.lines key = some l →
      (l.c.st.state = .running ∨ l.c.st.state = .ready) → s.canIssue c = true → r.swap = none → s.sched.cycle % 8 = sl →
      r.turn ≠ s.sched.cycle + 1 → act .idle s = .refused (.notEnabled "CYCLE")) ∧
    (s.due = [] → act .idle s = .next { s with sched := { s.sched with cycle := s.sched.cycle + 1 } }) ∧
    (s.due ≠ [] → act .idle s = .refused (.notEnabled "CYCLE"))

/-- The head of a backlog ring is one further. -/
def RingAdvanced (s t : State) (c : Nat) : Prop :=
  t.ring c = let (cap, base, head, tail) := s.ring c; (cap, base, head + 1, tail)

/-- R259, R260, R352: the fill takes the head of a backlog ring into the context L2 and onto a run list, and drops a stale entry. A line in
transit is accepted at its destination: in the arrival queue, else in the context L2, else in memory, and is READY there. -/
def ringsAndArrivals : Prop :=
  ∀ (s : State) (c key : Nat) (l : Line),
    let quiet := s.canIssue c = true ∧ s.ringCount c ≠ 0 ∧ SMap.getD s.ctx.heldAppends c [] = [] ∧ Memory.wf s.mem.bytes = true ∧
      (∀ n < 32, s.lineAt (s.clusterRecord c + n) = none)
    let joins := fun (t : State) (d : Nat) =>
      t.runList d l.c.st.cls.toNat = joined (s.runList d l.c.st.cls.toNat) { line := key, age := 0, from_ := max s.sched.cycle l.out }
    let arrives := fun (t : State) (p : Place) (d : Nat) => ∃ l', SMap.get? t.ctx.lines key = some l' ∧ l'.place = p ∧ l'.c.st.state = .ready ∧
      l'.c.here = d ∧ l'.c.g = l.c.g ∧ l'.c.pc = l.c.pc ∧ l'.c.waitKind = l.c.waitKind ∧ l'.c.waitObj = l.c.waitObj
    (quiet → s.ringLine c = none → ∃ t, exec (.backlogFill c) s = .next t ∧ RingAdvanced s t c ∧ t.ctx.lines = s.ctx.lines ∧ t.ctx.run = s.ctx.run) ∧
    (quiet → s.ringLine c = some key → SMap.get? s.ctx.lines key = some l → l.lost = 0 → l.place = .memory → l.c.st.state = .ready → l.c.here = c →
      s.mem.poison = [] → s.mem.wiped = 0 → s.l2Count c < 2048 →
      ∃ t, exec (.backlogFill c) s = .next t ∧ RingAdvanced s t c ∧ joins t c ∧
        SMap.get? t.ctx.lines key = some { l with place := .l2 c, c := { l.c with st := { l.c.st with queued := false } } }) ∧
    (s.ringCount c = 0 → NotYet (.backlogFill c) s "BACKLOG_FILL") ∧
    (∀ d, SMap.get? s.ctx.lines key = some l → l.place = .transit d → s.clusterGone d = true → NotYet (.arrivalAccept key) s "ARRIVAL_ACCEPT") ∧
    (∀ d, SMap.get? s.ctx.lines key = some l → l.place = .transit d → s.clusterGone d = false →
      let i := Instr.arrivalAccept key
      (s.arrivals d < SMap.getD s.ctx.limits d 64 → ∃ t, exec i s = .next t ∧ arrives t (.arrival d) d ∧ joins t d ∧ t.mem = s.mem) ∧
      (SMap.getD s.ctx.limits d 64 ≤ s.arrivals d → s.l2Count d < 2048 → ∃ t, exec i s = .next t ∧ arrives t (.l2 d) d ∧ joins t d ∧
        t.mem = s.mem) ∧
      (SMap.getD s.ctx.limits d 64 ≤ s.arrivals d → s.roomL2 d false = none → ∃ t, exec i s = .next t ∧ arrives t .memory d))

/-- R263, R353: an entry's age is that with which it entered its list and one more for each turn since; when 4,096 turns have raised its effective class
above its list's, it moves to the higher list's tail with that age, before the cycle passes, and not before. That the class is the line's own, as the
age rises, is the model's reading (log entry 46). -/
def entriesAge : Prop :=
  ∀ (s : State) (c cls k : Nat) (e : RunEntry) (l : Line), nth? (s.runList c cls) k = some e → SMap.get? s.ctx.lines e.line = some l →
    SMap.risingFrom 0 s.ctx.run = true → cls < 4 →
    let age := e.age + (s.sched.cycle / 8 - e.from_ / 8)
    let up := min 3 (l.c.st.cls.toNat + age / 4096)
    (up ≤ cls → NotYet (.agingStep c cls k) s "AGING_STEP") ∧
    (cls < up → act .idle s = .refused (.notEnabled "CYCLE")) ∧
    (cls < up → (∀ x ∈ s.runList c up, x.line ≠ e.line) → ∃ t, exec (.agingStep c cls k) s = .next t ∧ t.ctx.lines = s.ctx.lines ∧ t.mem = s.mem ∧
      t.runList c up = joined (s.runList c up) { line := e.line, age := age, from_ := s.sched.cycle } ∧
      t.runList c cls = (s.runList c cls).filter fun x => x.line != e.line)

/-- The cluster schedulers. -/
def Obligations.SchedulerSteps : Prop := slotsSelect ∧ claimsDecided ∧ swapsProceed ∧ slotsRotate ∧ ringsAndArrivals ∧ entriesAge

/-! ### The Churn at its banks (R216 to R221, R307, R308, R313, R316 to R330) -/

/-- The address names a group that its bank serves for the ASID (R211, R312): its die and its cluster are there, its fields are in range, the
group table reserves it to the ASID, the bank's copy of that entry is up to date, and no action of the bank goes on. -/
def Served (s : State) (seq : Nat) (a : BitVec 32) (asid : BitVec 12) (gk : Nat) : Prop :=
  let die : Nat := a.toNat / 2 ^ 30
  let c : Nat := die * 48 + a.toNat / 2 ^ 24 % 64
  (s.seenBy seq).dieGone die = false ∧ s.isReady die 3 = true ∧ a.toNat / 2 ^ 16 % 256 = 0 ∧ a.toNat / 2 ^ 24 % 64 < 48 ∧
  (s.seenBy seq).clusterGone c = false ∧ gk = c * 256 + a.toNat / 2 ^ 8 % 256 ∧ s.groupOwner gk = some asid ∧ (s.group gk).owner = some asid ∧
  SMap.risingFrom 0 (s.group gk).members = true ∧ s.chain c = []

/-- The status of R211 of an address that its bank does not serve. -/
def NotServed (s : State) (seq : Nat) (a : BitVec 32) (asid : BitVec 12) (status : Nat) : Prop :=
  let die : Nat := a.toNat / 2 ^ 30
  let c : Nat := die * 48 + a.toNat / 2 ^ 24 % 64
  let out := a.toNat / 2 ^ 16 % 256 ≠ 0 ∨ 48 ≤ a.toNat / 2 ^ 24 % 64
  let gone := (s.seenBy seq).dieGone die
  (s.dieGone die = true ∨ s.isReady die 3 = true) ∧ (out ∨ s.chain c = []) ∧ s.chain 192 = [] ∧
  (status = 4 ∧ gone = true ∨ status = 3 ∧ gone = false ∧ out ∨ status = 4 ∧ gone = false ∧ ¬ out ∧ (s.seenBy seq).clusterGone c = true ∨
    status = 3 ∧ gone = false ∧ ¬ out ∧ (s.seenBy seq).clusterGone c = false ∧ s.groupOwner (c * 256 + a.toNat / 2 ^ 8 % 256) ≠ some asid)

/-- A context's event at place k of a send buffer that its bank can take now. -/
def EventAt (s : State) (buf k : Nat) (e : SendEntry) (x : Ev) : Prop :=
  nth? (s.sendsOf buf) k = some e ∧ e.what = .event x .context ∧ e.merged = [] ∧ x.rel = false ∧ e.id < s.sched.seq ∧ s.eventMerged buf e.id = false ∧
  SMap.risingFrom 0 s.fl.sends = true ∧ NoneWaits s

/-- An event is refused: EV_REFUSED rises by its count, no group changes, and its entry is freed. -/
def EventRefused (s : State) (buf k : Nat) (e : SendEntry) (x : Ev) : Prop :=
  ∃ t, exec (.eventAccept buf k) s = .next t ∧ t.groups = s.groups ∧ Freed s t buf e ∧
    (t.asidRegs x.asid).refused = (s.asidRegs x.asid).refused + BitVec.ofNat 64 x.count

/-- An event is accepted without a fire: its group is as given, every other group is as before, and its entry is freed. -/
def EventTaken (s : State) (buf k : Nat) (e : SendEntry) (gk : Nat) (P : Group → Prop) : Prop :=
  ∃ t, exec (.eventAccept buf k) s = .next t ∧ Freed s t buf e ∧ t.asids = s.asids ∧ t.mem = s.mem ∧ t.eng = s.eng ∧
    (∀ gk', gk' ≠ gk → t.group gk' = s.group gk') ∧ P (t.group gk)

/-- Group g' is g but for member m, which is x. -/
def OnlyMember (g g' : Group) (m : Nat) (x : Member) : Prop :=
  g'.member m = x ∧ (∀ m', m' ≠ m → g'.member m' = g.member m') ∧ g'.S = g.S ∧ g'.late = g.late ∧ g'.cal = g.cal ∧ g'.cfg = g.cfg ∧
  g'.owner = g.owner ∧ g'.logn = g.logn

/-- R318: the sum that the calendar holds for a member and a step. -/
def calSum (g : Group) (m : Nat) (step : BitVec 32) : BitVec 48 :=
  (g.cal.filter fun e => e.m == m && e.step == step).foldl (fun n e => n + e.sum) 0

/-- R81: an integer clamped to 32 bits. -/
def clamp32 (x : Int) : BitVec 32 := BitVec.ofInt 32 (max (-2 ^ 31) (min (2 ^ 31 - 1) x))

/-- R320: the test of a member that holds v. -/
def tests (g : Group) (v : BitVec 32) (armed : Bool) : Bool :=
  let thresh : Int := (g.cfg.extractLsb' 0 32).toInt
  match (g.cfg.extractLsb' 36 2).toNat with
  | 0 => decide (thresh ≤ v.toInt)
  | 1 => decide (v.toInt ≤ thresh)
  | _ => v == 0 && armed

/-- R316, R318, R321: what becomes of an event at its bank: refused for want of a group, while EN is 0 or beyond the horizon; into the current
step; into the calendar; late; or integrated at once by an IMMEDIATE group. A bank that is in the middle of an action goes on with it and takes nothing
else before its end. -/
def eventsAccepted : Prop :=
  ∀ (s : State) (buf k gk : Nat) (e : SendEntry) (x : Ev), EventAt s buf k e x →
    let g : Group := s.group gk
    let m : Nat := x.addr.toNat % 256
    let y : Member := g.member m
    let S : Nat := g.S.toNat
    let d : Nat := (x.step.toNat + (2 ^ 32 - 1 - S)) % (2 ^ 32 - 1)
    let b : Nat := (S + (2 ^ 32 - 1 - x.step.toNat)) % (2 ^ 32 - 1)
    let now : Prop := x.step = 0xFFFFFFFF ∨ d = 0
    let en : Bool := g.cfg.getLsbD 63
    let immediate : Bool := g.cfg.getLsbD 35
    let summed : Member := { y with sum := y.sum + x.value, armin := y.armin || x.arm }
    let v : BitVec 32 := clamp32 (y.v.toInt + x.value.toInt)
    let armed : Bool := y.armed || x.arm
    (∀ status, NotServed s e.id x.addr x.asid status → EventRefused s buf k e x) ∧
    (Served s e.id x.addr x.asid gk → en = false → EventRefused s buf k e x) ∧
    (Served s e.id x.addr x.asid gk → en = true → immediate = false → S < 2 ^ 32 - 1 →
      (now → EventTaken s buf k e gk fun g' => OnlyMember g g' m summed) ∧
      (¬ now → d ≤ 63 → (g.cal.map fun e => (e.m, e.step)).Nodup → EventTaken s buf k e gk fun g' => g'.members = g.members ∧ g'.S = g.S ∧ g'.late = g.late ∧
        calSum g' m x.step = calSum g m x.step + x.value ∧
        ∀ m' st, ¬ (m' = m ∧ st = x.step) → calSum g' m' st = calSum g m' st) ∧
      (¬ now → 63 < d → b < 2 ^ 31 → EventTaken s buf k e gk fun g' =>
        OnlyMember { g with late := g.late + BitVec.ofNat 32 x.count } g' m summed) ∧
      (¬ now → 63 < d → 2 ^ 31 ≤ b → EventRefused s buf k e x)) ∧
    (Served s e.id x.addr x.asid gk → en = true → immediate = true → tests g v armed = false →
      EventTaken s buf k e gk fun g' => OnlyMember g g' m { y with v := v, armed := armed }) ∧
    (Served s e.id x.addr x.asid gk → en = true → immediate = true → tests g v armed = true → (g.cfg.extractLsb' 57 3).toNat = 0 →
      (m = 0 → s.launchDone gk = none) →
      EventTaken s buf k e gk fun g' => OnlyMember g g' m { y with v := g.cfg.extractLsb' 96 32, armed := false, time := 0 }) ∧
    (s.dieGone (x.addr.toNat / 2 ^ 30) = false → s.isReady (x.addr.toNat / 2 ^ 30) 3 = false → NotYet (.eventAccept buf k) s "EVENT_ACCEPT") ∧
    (s.chain (evBank x.addr) ≠ [] → NotYet (.eventAccept buf k) s "EVENT_ACCEPT" ∧
      act (.bankGoOn (evBank x.addr)) s = inWindow s (.bankGoOn (evBank x.addr))
        (.next ((s.bankDo (evBank x.addr) (s.chain (evBank x.addr))).bankOwes (evBank x.addr))))

/-- An event makes its member of an IMMEDIATE group that is no launch's own fire with value v: the member is reset, and what `P` says has happened. -/
def Fires (s : State) (buf k gk : Nat) (e : SendEntry) (x : Ev) (v : BitVec 32) (action : Nat) (P : State → Prop) : Prop :=
  let g : Group := s.group gk
  let m : Nat := x.addr.toNat % 256
  let y : Member := g.member m
  EventAt s buf k e x → Served s e.id x.addr x.asid gk → v = clamp32 (y.v.toInt + x.value.toInt) → g.cfg.getLsbD 63 = true →
    g.cfg.getLsbD 35 = true → tests g v (y.armed || x.arm) = true → s.launchOf gk = none → s.launchDone gk = none →
    (g.cfg.extractLsb' 57 3).toNat = action →
    ∃ t, exec (.eventAccept buf k) s = .next t ∧ P t ∧ (t.group gk).member m = { y with v := g.cfg.extractLsb' 96 32, armed := false, time := 0 }

/-- R326: a WAKE fire puts its message into the send buffer of the bank's cluster. -/
def wakeFires : Prop :=
  ∀ (s : State) (buf k gk : Nat) (e : SendEntry) (x : Ev) (v : BitVec 32) (w2 : Nat),
    w2 = (s.group gk).S.toNat + (if (s.group gk).cfg.getLsbD 34 then 2 ^ 32 else 0) + 2 ^ 33 →
    Fires s buf k gk e x v 2 fun t => ∃ q ∈ t.sendsOf (gk / 256),
      q.what = .msg ((s.group gk).cfg.extractLsb' 128 64) (x.addr.setWidth 64) (v.signExtend 64) (BitVec.ofNat 64 w2) (BitVec.ofNat 64 (0xF2 * 2 ^ 56)) 4
        (.wakeFire x.addr v (s.group gk).S)

/-- R308, R328: a LOG fire writes its entry of 16 bytes at its place in the ring, and counts it. -/
def logFires : Prop :=
  ∀ (s : State) (buf k gk at_ n : Nat) (e : SendEntry) (x : Ev) (v : BitVec 32) (pas : List Nat) (swc : List Bool),
    n = (s.group gk).logn.toNat →
    at_ = (((s.group gk).cfg.extractLsb' 128 64).toNat + 16 * (n % 2 ^ ((s.group gk).cfg.extractLsb' 192 16).toNat)) % 2 ^ 57 →
    s.transBytes (gk / 256) x.asid 0 .engine .write at_ 16 = .ok (pas, swc) → (∀ b ∈ swc, b = false) → s.poisoned pas = false →
    (∀ a ∈ pas, (s.seenBy e.id).homeGone a = false ∧ s.lineAt a = none) → pas.Nodup → Memory.wf s.mem.bytes = true → noPoolBytes s pas →
    s.mgmt.based = false ∨ (∀ a ∈ pas, a < s.mgmt.gtBase ∨ s.mgmt.gtBase + 8 * 256 * 192 ≤ a) →
    Fires s buf k gk e x v 4 fun t => (t.group gk).logn = (s.group gk).logn + 1 ∧
      t.readBytes pas = leBytes 8 ((s.group gk).S.toNat + x.addr.toNat % 256 * 2 ^ 32 + 2 ^ 63) ++ leBytes 8 (v.toNat + n * 2 ^ 32)

/-- The bytes that the bank of a cluster reads for an ASID at an address while it performs an event: none of them faults or is uncorrectable. -/
def BankReads (s : State) (seq c : Nat) (asid : BitVec 12) (va n : Nat) (l : List Byte) : Prop :=
  ∃ (pas : List Nat) (swc : List Bool), s.transBytes c asid 0 .engine .read (va % 2 ^ 57) n = .ok (pas, swc) ∧
    s.poisonedAt (c / 48) swc pas = false ∧ (∀ a ∈ pas, (s.seenBy seq).homeGone a = false) ∧ l = s.seenBytes (c / 48) swc pas

/-- R327, R342: a SPAWN fire asks the home of its node's instance for a context, with its arguments, its entry and its launch index; in a group
that no LAUNCH took it never makes a supervisor context. -/
def spawnFires : Prop :=
  ∀ (s : State) (buf k gk inst i : Nat) (e : SendEntry) (x : Ev) (v : BitVec 32) (n : Node) (l1 l : List Byte),
    let cfg := (s.group gk).cfg
    BankReads s e.id (gk / 256) x.asid (cfg.extractLsb' 128 64).toNat 64 l1 → n = nodeOf l1 →
    inst = (if cfg.getLsbD 56 then (if cfg.getLsbD 34 then (v.sshiftRight 16).toNat else v.toNat) else x.addr.toNat % 256) →
    i = (inst + n.bits 4 32 32) % 2 ^ 32 → s.nodeBad n = false →
    BankReads s e.id (gk / 256) x.asid (n.bits 1 0 57 + n.bits 2 0 32 * i) 32 l →
    Fires s buf k gk e x v 3 fun t => ∃ q : SpawnReq, t.fl.spawns = s.fl.spawns ++ [q] ∧ q.asid = x.asid ∧ q.entry.toNat = n.bits 0 0 57 ∧
      q.priv = 0 ∧ q.origin = .fire ∧ q.cls.toNat = n.bits 3 16 2 ∧
      (n.bits 3 20 2 = 0 → q.home = some (n.bits 3 24 8)) ∧ (n.bits 3 20 2 = 1 → q.home = some ((n.bits 3 24 8 + i % n.bits 3 32 8) % 192)) ∧
      (n.bits 3 20 2 = 2 → q.home = none) ∧ q.launch.toNat = i % 4096 * 2 ^ 20 + n.bits 3 40 8 * 2 ^ 12 + n.bits 4 0 12 ∧
      ∀ r < 4, q.regs.getD r 0 = BitVec.ofNat 64 (leNat ((l.drop (8 * r)).take 8))

/-- R307: a fan-out entry, two words of 64 bits, holds an event: its reserved bits are zero. -/
def goodFanOut (w : Nat × Nat) : Bool := decide (w.1 < 2 ^ 38) && decide (w.2 < 2 ^ 32)

/-- R307: the cluster of a fan-out entry's target. -/
def fanOutCluster (w : Nat × Nat) : Nat := w.1 % 2 ^ 32 / 2 ^ 30 * 48 + w.1 / 2 ^ 24 % 64

/-- The event of a fan-out entry of an IMMEDIATE group, as it stands in a send buffer: now, with the entry's target and weight. -/
def EmittedNow (asid : BitVec 12) (w : Nat × Nat) (q : SendWhat) : Prop :=
  ∃ z : Ev, q = .event z .device ∧ z.addr = BitVec.ofNat 32 w.1 ∧ z.value = (BitVec.ofNat 32 w.2).signExtend 48 ∧ z.step = 0xFFFFFFFF ∧
    z.asid = asid ∧ z.arm = false ∧ z.rel = false ∧ z.count = 1

/-- R307, R325: an EMIT fire reads its member's fan-out entries in increasing order. An entry with a reserved bit set is skipped, with a Churn record of
cause 7. Each other toward another bank puts its event, now, into the send buffer of the bank's cluster; each toward the bank itself is accepted
within the firing action, here by one other group, whose members take the weights into their current step, or refused and counted. -/
def emitFires : Prop :=
  ∀ (s : State) (buf k gk gk2 : Nat) (e : SendEntry) (x : Ev) (v : BitVec 32) (words : List (Nat × Nat)),
    let cfg := (s.group gk).cfg
    let c := gk / 256
    let far := words.filter fun w => fanOutCluster w ≠ c
    let near := words.filter fun w => fanOutCluster w = c
    let good := ∀ w ∈ words, goodFanOut w = true
    let left := (s.sendsOf c).filter fun q => !(buf == c && q.id == e.id)
    let g := s.group gk2
    (cfg.extractLsb' 192 16).toNat = words.length →
    (∀ j w, words[j]? = some w → ∃ l, BankReads s e.id c x.asid ((cfg.extractLsb' 128 64).toNat + 16 * words.length * (x.addr.toNat % 256) + 16 * j) 16 l ∧
      w = (leNat (l.take 8), leNat (l.drop 8))) →
    (∀ w ∈ near, goodFanOut w = true → w.1 / 2 ^ 16 % 256 = 0 ∧ w.1 / 2 ^ 24 % 64 < 48 ∧ c * 256 + w.1 / 2 ^ 8 % 256 = gk2) →
    gk2 ≠ gk → g.owner = s.groupOwner gk2 → SMap.risingFrom 0 g.members = true →
    let sends := fun (t : State) => ∃ qs : List SendEntry,
      t.sendsOf c = left ++ qs ∧ List.Forall₂ (fun w q => EmittedNow x.asid w q.what) far qs
    (∀ w, words = [w] → goodFanOut w = false → Fires s buf k gk e x v 1 fun t => t.sendsOf c = left ∧ ∃ rest, t.mgmt.errCopies =
      s.mgmt.errCopies ++ [BitVec.ofNat 64 (3 + 7 * 2 ^ 8 + x.asid.toNat * 2 ^ 16) :: rest]) ∧
    (good → near = [] → Fires s buf k gk e x v 1 sends) ∧
    (good → g.cfg.getLsbD 63 = true → g.cfg.getLsbD 35 = false → s.groupOwner gk2 = some x.asid → Fires s buf k gk e x v 1 fun t => sends t ∧
      (t.group gk2).S = g.S ∧ (t.group gk2).late = g.late ∧ (t.group gk2).cal = g.cal ∧
      ∀ m, (t.group gk2).member m = { g.member m with
        sum := ((near.filter fun w => w.1 % 256 = m).map fun w => (BitVec.ofNat 32 w.2).signExtend 48).foldl (· + ·) (g.member m).sum }) ∧
    (good → g.cfg.getLsbD 63 = false ∨ s.groupOwner gk2 ≠ some x.asid → Fires s buf k gk e x v 1 fun t => sends t ∧ t.group gk2 = g ∧
      (t.asidRegs x.asid).refused = (s.asidRegs x.asid).refused + BitVec.ofNat 64 near.length)

/-- The answer of a bank to a context: gd takes the value, the wait of kind 3 ends, the request is gone. -/
def BankAnswers (s t : State) (k : Nat) (r : BankReq) (q : Line) (v : Word) : Prop :=
  (∃ q', SMap.get? t.ctx.lines r.line = some q' ∧ Landed q q' [(r.d, v, BitVec.allOnes 64)] 0 none true) ∧
  t.fl.banks = removeAt k s.fl.banks

/-- R217, R218, R220, R221: EVRD returns the member, the step or the late count; EVWR writes a member; EVCFG configures the group, and with .clr
clears it; a failing status changes nothing. -/
def requestsAtBanks : Prop :=
  ∀ (s : State) (k gk : Nat) (r : BankReq) (q : Line), nth? s.fl.banks k = some r → SMap.get? s.ctx.lines r.line = some q → Quiet q →
    let i := Instr.groupRequestAtBank k
    let g : Group := s.group gk
    let m : Nat := r.addr.toNat % 256
    let y : Member := g.member m
    let gives := fun (v : Word) (P : Group → Prop) => ∃ t, exec i s = .next t ∧ BankAnswers s t k r q v ∧ P (t.group gk) ∧
      (∀ gk', gk' ≠ gk → t.group gk' = s.group gk') ∧ t.mem = s.mem ∧ t.asids = s.asids
    (∀ status, NotServed s r.seq r.addr r.asid status → (∀ S, r.what ≠ .step S) → gives (BitVec.ofNat 64 (status * 2 ^ 56)) (· = g)) ∧
    (Served s r.seq r.addr r.asid gk →
      (r.what = .rdMem → gives (BitVec.ofNat 64 (y.v.toNat + y.refr.toNat * 2 ^ 32 + if y.armed then 2 ^ 40 else 0)) (· = g)) ∧
      (r.what = .rdStep → gives (g.S.setWidth 64) (· = g)) ∧ (r.what = .rdLate → gives (g.late.setWidth 64) (· = g)) ∧
      (∀ w, r.what = .wr w → gives 0 fun g' =>
        OnlyMember g g' m { y with v := w.setWidth 32, refr := w.extractLsb' 32 8, armed := w.getLsbD 40 }) ∧
      (∀ rec clr, r.what = .cfg rec clr → cfgBad g rec clr = true → gives (BitVec.ofNat 64 (2 * 2 ^ 56)) (· = g)) ∧
      (∀ rec, r.what = .cfg rec false → cfgBad g rec false = false → gives 0 (· = { g with cfg := rec })) ∧
      (∀ rec, r.what = .cfg rec true → cfgBad g rec true = false → gives 0 fun g' => g'.cfg = rec ∧ g'.S = 0 ∧ g'.late = 0 ∧ g'.cal = [] ∧
        g'.owner = g.owner ∧ ∀ m < 256, (g'.member m).v = rec.extractLsb' 96 32 ∧ (g'.member m).refr = 0 ∧ (g'.member m).armed = false ∧
          (g'.member m).sum = 0))

/-- R216, R319, R320: EVSTEP closes the step that it names, member by member in a group that does nothing on a fire, and the calendar's sums for the
next step become its sums; it answers a status otherwise, and waits for the earlier events of its context. -/
def stepsClose : Prop :=
  ∀ (s : State) (k gk : Nat) (r : BankReq) (S : BitVec 32) (q : Line), nth? s.fl.banks k = some r → r.what = .step S →
    SMap.get? s.ctx.lines r.line = some q → Quiet q →
    let i := Instr.stepClose k
    let g : Group := s.group gk
    let earlier : Prop := ∃ b ∈ s.fl.sends, ∃ e ∈ b.2, e.line = some r.line ∧ e.id < r.seq ∧ e.what.isEvent = true
    let en : Bool := g.cfg.getLsbD 63
    let leak : Nat := (g.cfg.extractLsb' 38 2).toNat
    let lambda : Int := (g.cfg.extractLsb' 64 32).toNat
    let shift : Nat := (g.cfg.extractLsb' 40 8).toNat
    let leaked : Int → Int := fun v => if leak = 1 then (if 0 < v then max (v - lambda) 0 else if v < 0 then min (v + lambda) 0 else 0)
      else if leak = 2 then v - v / 2 ^ shift else v
    let answers := fun (v : Word) => ∃ t, exec i s = .next t ∧ BankAnswers s t k r q v ∧ t.groups = s.groups ∧ t.mem = s.mem
    (earlier → NotYet i s "STEP_CLOSE") ∧
    (∀ status, ¬ earlier → NotServed s r.seq r.addr r.asid status → answers (BitVec.ofNat 64 (status * 2 ^ 56))) ∧
    (¬ earlier → Served s r.seq r.addr r.asid gk →
      (en = false ∨ g.cfg.getLsbD 35 = true → answers (BitVec.ofNat 64 (2 * 2 ^ 56))) ∧
      (en = true → g.cfg.getLsbD 35 = false → g.S ≠ S → answers (BitVec.ofNat 64 (2 ^ 56 + g.S.toNat))) ∧
      (en = true → g.cfg.getLsbD 35 = false → g.S = S → (g.cfg.extractLsb' 57 3).toNat = 0 → s.launchDone gk = none →
        let S' : BitVec 32 := if S = 0xFFFFFFFE then 0 else S + 1
        ∃ t, exec i s = .next t ∧ BankAnswers s t k r q (S'.setWidth 64) ∧ t.mem = s.mem ∧ (∀ gk', gk' ≠ gk → t.group gk' = s.group gk') ∧
          let g' : Group := t.group gk
          g'.S = S' ∧ g'.cfg = g.cfg ∧ g'.late = g.late ∧ g'.cal = (g.cal.filter fun e => e.step != S') ∧
          ∀ m < 256,
            let y : Member := g.member m
            let y' : Member := g'.member m
            let v : BitVec 32 := clamp32 (leaked y.v.toInt + y.sum.toInt)
            let armed : Bool := y.armed || y.armin
            y'.sum = calSum g m S' ∧ (y'.armin = true ↔ ∃ e ∈ g.cal, e.m = m ∧ e.step = S' ∧ e.arm = true) ∧
            (y.refr ≠ 0 → y'.v = y.v ∧ y'.refr = y.refr - 1 ∧ y'.armed = y.armed) ∧
            (y.refr = 0 → tests g v armed = false → y'.v = v ∧ y'.refr = 0 ∧ y'.armed = armed) ∧
            (y.refr = 0 → tests g v armed = true →
              y'.v = g.cfg.extractLsb' 96 32 ∧ y'.refr = g.cfg.extractLsb' 48 8 ∧ y'.armed = false)))

/-- R313, R319, R330: a bank whose table entry has changed clears the group whole, and not in the middle of an action of the bank; two plain events to one member for one step become one that carries
their sum and their count. -/
def clearsAndMerges : Prop :=
  ∀ (s : State) (gk : Nat),
    (s.groupOwner gk ≠ (s.group gk).owner → s.chain (gk / 256) = [] → ∃ t, exec (.groupClear gk) s = .next t ∧ (∀ gk', gk' ≠ gk → t.group gk' = s.group gk') ∧
      t.mem = s.mem ∧ t.fl = s.fl ∧ t.ctx = s.ctx ∧ (t.group gk).owner = s.groupOwner gk ∧ (t.group gk).cfg = 0 ∧ (t.group gk).S = 0 ∧
      (t.group gk).late = 0 ∧ (t.group gk).logn = 0 ∧ (t.group gk).cal = [] ∧ ∀ m, (t.group gk).member m = Member.reset) ∧
    (s.groupOwner gk = (s.group gk).owner ∨ s.chain (gk / 256) ≠ [] → NotYet (.groupClear gk) s "GROUP_CLEAR") ∧
    (∀ (buf k1 k2 : Nat) (e f : SendEntry) (x y : Ev), nth? (s.sendsOf buf) k1 = some e → nth? (s.sendsOf buf) k2 = some f → e.id ≠ f.id →
      e.what = .event x .context → f.what = .event y .context → e.merged = [] → f.merged = [] → s.eventMerged buf e.id = false →
      s.eventMerged buf f.id = false → s.eventTaken buf e.id = false → s.eventTaken buf f.id = false →
      (x.addr = y.addr → x.asid = y.asid → x.step = y.step → x.step ≠ 0xFFFFFFFF → x.arm = false → y.arm = false → x.rel = false → y.rel = false →
        ∃ t, exec (.eventMerge buf k1 buf k2) s = .next t ∧ t.ctx = s.ctx ∧ t.mem = s.mem ∧ t.groups = s.groups ∧
          t.sendsOf buf = (s.sendsOf buf).map fun q => if q.id = e.id then
              { q with what := .event { x with value := x.value + y.value, count := x.count + y.count } .context, merged := [(buf, f.id)] }
            else if q.id = f.id then { q with merged := [] } else q) ∧
      (x.addr ≠ y.addr ∨ x.asid ≠ y.asid ∨ x.step ≠ y.step ∨ x.step = 0xFFFFFFFF ∨ x.arm = true ∨ y.arm = true ∨ x.rel = true ∨ y.rel = true →
        NotYet (.eventMerge buf k1 buf k2) s "EVENT_MERGE"))

/-- What the banks of the Churn do. -/
def Obligations.EventsAtBanks : Prop := eventsAccepted ∧ wakeFires ∧ logFires ∧ spawnFires ∧ emitFires

/-- What the requests of contexts and the group table do at the banks of the Churn. -/
def Obligations.GroupsAtBanks : Prop := requestsAtBanks ∧ stepsClose ∧ clearsAndMerges

/-! ### Engine queues, handle tables and gangs (R179 to R193, R271, R272, R277 to R282, R373) -/

/-- A command carries no release, or what its poster did before it is performed. -/
def ReleasesDone (s : State) (e : SendEntry) : Prop := ∀ t ∈ e.tags, t.scope = .ctx ∨ s.tagOpen t = false

/-- R179, R180, R182, R189: a posted command enters its home queue when there is room for it and takes the queue's acceptance number; gd of a POST
takes the acceptance word. A full queue answers with a NACK; an earlier command of the same context to the same queue that is not accepted goes first,
and so does, with REL, what its poster wrote before. One that a CANCEL found on its way enters as cancelled (R234). That running commands count toward the 32 of a queue, and that a POST with REL waits for its
poster's earlier accesses, is the model's choice (log entry 53). -/
def commandsAccepted : Prop :=
  ∀ (s : State) (buf k d home q : Nat) (e : SendEntry) (w : BitVec 256) (wait : Bool) (key : Nat) (l : Line),
    nth? (s.sendsOf buf) k = some e → e.what = .post w d wait → e.hold = none → SMap.risingFrom 0 s.fl.sends = true →
    (s.seenBy e.id).homeOf w = .ok (home, q) → e.line = some key → SMap.get? s.ctx.lines key = some l → Quiet l → NoneWaits s →
    let i := Instr.commandAccept buf k
    let first := ReleasesDone s e ∧
      ∀ j < k, ∀ x, nth? (s.sendsOf buf) j = some x → x.line = e.line → ∀ v d' w', x.what = .post v d' w' → s.homeOf v ≠ .ok (home, q)
    let full := ¬ (s.queue home q).length + (s.runs home q).length < 32
    let n : BitVec 32 := SMap.getD s.eng.accepted (home * 3 + q) 0
    (¬ ReleasesDone s e → NotYet i s "COMMAND_ACCEPT") ∧
    (∀ j < k, ∀ x v d' w', nth? (s.sendsOf buf) j = some x → x.line = e.line → x.what = .post v d' w' → s.homeOf v = .ok (home, q) →
      s.homeOf w = .ok (home, q) → NotYet i s "COMMAND_ACCEPT") ∧
    (first → full → ∃ t, exec i s = .next t ∧ Kept s t buf e fun x => { x with hold := some (s.sched.cycle + 64) }) ∧
    (first → ¬ full → ∃ (t : State) (x : QEntry) (l' : Line), exec i s = .next t ∧ Freed s t buf e ∧
      t.queue home q = s.queue home q ++ [x] ∧ x.cmd = w ∧ x.asid = e.asid ∧ x.seq = n ∧ x.poster = (if wait then some (key, d) else none) ∧
      x.slot = l.c.launch.setWidth 12 ∧ (x.cancelled = true ↔ e.void = true) ∧ SMap.getD t.eng.accepted (home * 3 + q) 0 = n + 1 ∧ t.mem = s.mem ∧
      SMap.get? t.ctx.lines key = some l' ∧ (wait = true → l' = l) ∧
      (wait = false → Landed l l' [(d, BitVec.ofNat 64 (q * 2 ^ 40 + home * 2 ^ 32 + n.toNat), BitVec.allOnes 64)]
        (regMask (regOf d)) none false))

/-- No context line lies where error records are written (R392). -/
def ErrorsClear (s : State) : Prop := s.mgmt.based = false ∨ ∀ n < 64 + 64 * 4096, s.lineAt (s.mgmt.errBase + n) = none

/-- R80: the word is no command: its COP is unassigned, CKIND is 3, CSC is above 4, or bit 240 is set. -/
def NoCommand (w : BitVec 256) : Prop :=
  let cop : Nat := (w.extractLsb' 248 8).toNat
  (cop = 0 ∨ 0x0A < cop ∧ cop < 0x20 ∨ 0x21 < cop ∧ cop < 0x40 ∨ 0x49 < cop) ∨ w.extractLsb' 244 2 = 3 ∨ 4 < (w.extractLsb' 241 3).toNat ∨
    w.getLsbD 240 = true

/-- R28, R181: why no queue takes a command: it is none; its home is on a die, or in a cluster, that is gone; or its home handle, or the owner that OPS
names for POOL and ROWADD, names no cluster. That a die that is gone comes first is the model's reading (R3, R28; log entry 75). -/
def TurnedAway (seen : State) (w : BitVec 256) (status : Nat) : Prop :=
  let cop : Nat := (w.extractLsb' 248 8).toNat
  let h : Nat := (if cop = 0x02 ∨ cop = 0x0A then w.extractLsb' 144 32 else w.extractLsb' 80 32).toNat
  let owner : Nat := (w.extractLsb' 72 8).toNat
  (NoCommand w ∧ status = 1) ∨
  (¬ NoCommand w ∧ (cop = 0x08 ∨ cop = 0x09) ∧ (192 ≤ owner ∧ status = 3 ∨ owner < 192 ∧ seen.clusterGone owner = true ∧ status = 9)) ∨
  (¬ NoCommand w ∧ cop ≠ 0x08 ∧ cop ≠ 0x09 ∧ (seen.dieGone (h / 2 ^ 30) = true ∧ status = 9 ∨
    seen.dieGone (h / 2 ^ 30) = false ∧ 48 ≤ h / 2 ^ 24 % 64 ∧ status = 3 ∨
    seen.dieGone (h / 2 ^ 30) = false ∧ h / 2 ^ 24 % 64 < 48 ∧ seen.clusterGone (h / 2 ^ 30 * 48 + h / 2 ^ 24 % 64) = true ∧ status = 9))

/-- R28, R80, R181, R183: a command that no queue takes completes at the posting cluster with its status: gd of a POST says so, and gd of a POSTW takes
the completion's word. One that is no command has status 1; a command whose home is on a die that is gone 9, whatever the rest of its handle says, as
one whose home's cluster is gone; any other whose home handle has a local cluster field of 48 to 63, and a POOL or ROWADD whose owner field is 192 or
more, 3. That a die that is gone comes first is the model's reading (R3, R28; log entry 75). -/
def commandsTurnedAway : Prop :=
  ∀ (s : State) (buf k d status : Nat) (e : SendEntry) (w : BitVec 256) (wait : Bool) (key : Nat) (l : Line),
    nth? (s.sendsOf buf) k = some e → e.what = .post w d wait → e.hold = none → SMap.risingFrom 0 s.fl.sends = true → ReleasesDone s e →
    TurnedAway (s.seenBy e.id) w status → k = 0 → e.line = some key → SMap.get? s.ctx.lines key = some l → Quiet l → NoneWaits s →
    l.c.st.state = .waiting ∨ l.c.st.state = .running → e.id < s.sched.seq → ErrorsClear s →
    ∃ (t : State) (l' : Line) (home : BitVec 32), exec (.commandAccept buf k) s = .next t ∧ SMap.get? t.ctx.lines key = some l' ∧
      (∀ x ∈ t.sendsOf buf, x.id ≠ e.id) ∧
      (wait = false → Landed l l' [(d, BitVec.ofNat 64 (2 ^ 48 + 0xFFFF * 2 ^ 32), BitVec.allOnes 64)] (regMask (regOf d)) none false) ∧
      (wait = true → Landed l l' [(d, BitVec.ofNat 64 ((w.extractLsb' 248 8).toNat * 2 ^ 56 + status * 2 ^ 48 + home.toNat),
        BitVec.allOnes 64)] 0 none true)

/-- R184, R187 to R189: a command ends, with its writes made: its completion is delivered as CKIND selects, a POSTW's to its context alone. The event of a
completion carries its release flag to a bank that CSC reaches; to another it is a plain event, since a release orders nothing outside its scope: that
is the model's reading of R286, R295 and R297 beside R184 (log entry 30). While an earlier command of the queue has not ended, it waits. -/
def commandsEnd : Prop :=
  ∀ (s : State) (c q : Nat) (r : Run), r.ended = false → r.waiting = 0 → r.gang = none → r.bag = none → r.effects = [] →
    copOf r.e.cmd ≠ 0x0A → r.e.poster = none → SMap.risingFrom 0 s.eng.running = true →
    let words := completionWords r.info
    (r.info.status = 0 → s.runs c q = [r] → ∃ t, exec (.engineCommandEnd c q 0) s = .next t ∧ t.runs c q = [] ∧ t.eng.queues = s.eng.queues ∧
      t.ctx = s.ctx ∧ t.mem = s.mem ∧
      (r.info.ckind = 0 → t.fl = s.fl) ∧
      (r.info.ckind = 1 → ∃ x, t.sendsOf c = s.sendsOf c ++ [x] ∧ x.asid = r.e.asid ∧
        x.what = .msg r.info.ctgt (words.getD 0 0) (words.getD 1 0) (words.getD 2 0) (words.getD 3 0) 4 (.completion r.info)) ∧
      (r.info.ckind = 2 → ∃ (x : SendEntry) (v : Ev), t.sendsOf c = s.sendsOf c ++ [x] ∧ x.what = .event v (.completion r.info) ∧
        v.addr = r.info.ctgt.extractLsb' 32 32 ∧ v.value = (r.info.ctgt.setWidth 32).signExtend 48 ∧ v.step = 0xFFFFFFFF ∧
        v.arm = false ∧ v.asid = r.e.asid ∧ v.count = 1 ∧
        (let far : Nat := v.addr.toNat / 2 ^ 30 * 48 + v.addr.toNat / 2 ^ 24 % 64
         v.rel = true ↔ (match (cmdArgsOf r.e.cmd).scope with
          | .ctx => False
          | .cl => c = far ∧ c < 192
          | .die => c / 48 = far / 48 ∧ c < 192 ∧ far < 192
          | .pkg => c < 192 ∧ far < 192
          | .sys => True)))) ∧
    (∀ (r0 : Run), r0.ended = false → r0.e.id ≠ r.e.id → s.runs c q = [r0, r] → ∃ t, exec (.engineCommandEnd c q 1) s = .next t ∧
      t.runs c q = [r0, { r with ended := true }] ∧ t.fl = s.fl ∧ t.ctx = s.ctx ∧ t.mem = s.mem) ∧
    (∀ rest, s.runs c q = { r with waiting := 1 } :: rest → NotYet (.engineCommandEnd c q 0) s "ENGINE_COMMAND_END")

/-- R183: the end of a command that a POSTW posted gives its context the completion's word. -/
def postwEnds : Prop :=
  ∀ (s : State) (c q key d : Nat) (r : Run) (l : Line), r.ended = false → r.waiting = 0 → r.gang = none → r.bag = none → r.effects = [] →
    copOf r.e.cmd ≠ 0x0A → r.e.poster = some (key, d) → SMap.risingFrom 0 s.eng.running = true → s.runs c q = [r] →
    SMap.get? s.ctx.lines key = some l → Quiet l →
    ∃ (t : State) (l' : Line), exec (.engineCommandEnd c q 0) s = .next t ∧ t.runs c q = [] ∧ t.fl = s.fl ∧ t.mem = s.mem ∧
      SMap.get? t.ctx.lines key = some l' ∧ Landed l l' [(d, (completionWords r.info).getD 1 0, BitVec.allOnes 64)] 0 none true

/-- R187, R282: what a command writes stands in its tiles and in memory at its end: the last of the values given for an element; a destination whose
cluster has gone ends it with status 9. -/
def writesAtEnd : Prop :=
  ∀ (s : State) (c q : Nat) (r : Run), r.ended = false → r.waiting = 0 → r.gang = none → r.bag = none → copOf r.e.cmd ≠ 0x0A →
    r.e.poster = none → r.info.ckind = 0 → r.info.status = 0 → s.runs c q = [r] →
    let i := Instr.engineCommandEnd c q 0
    (∀ (ref : TileRef) (w : List (Nat × Nat)) (a : Nat × Nat), r.effects = [.elems ref (w ++ [a])] →
      let x := s.entry ref.1
      x.live = true → x.gen = ref.2 → (s.seenBy r.start).clusterGone (ref.1 / 4096) = false → SMap.risingFrom 0 x.data = true → (∀ y ∈ w, y.1 ≠ a.1) →
      ∃ t, exec i s = .next t ∧ SMap.getD (t.entry ref.1).data a.1 0 = a.2 ∧ (t.entry ref.1).rows = x.rows ∧ (t.entry ref.1).gen = x.gen ∧
        (∀ n, n ≠ a.1 → (∀ y ∈ w, y.1 ≠ n) → SMap.getD (t.entry ref.1).data n 0 = SMap.getD x.data n 0) ∧
        (∀ key, key ≠ ref.1 → t.entry key = s.entry key) ∧ t.mem = s.mem) ∧
    (∀ (pas : List Nat) (swc : List Bool) (bytes : List Byte), r.effects = [.mem swc pas bytes] → (∀ b ∈ swc, b = false) →
      pas.length = bytes.length → pas.Nodup → Memory.wf s.mem.bytes = true →
      (∀ a ∈ pas, s.lineAt a = none ∧ (s.seenBy r.start).homeGone a = false) → noPoolBytes s pas → s.chains = [] →
      ∃ t, exec i s = .next t ∧ t.readBytes pas = bytes ∧ (∀ a, a ∉ pas → t.readByte a = s.readByte a) ∧ t.eng.tiles = s.eng.tiles) ∧
    (∀ (ref : TileRef) (w : List (Nat × Nat)), r.effects = [.elems ref w] → (s.seenBy r.start).clusterGone (ref.1 / 4096) = true →
      ∃ t, exec i s = .next t ∧ t.eng.tiles = s.eng.tiles ∧
        t.mgmt.errCopies.length = s.mgmt.errCopies.length + 1 ∧ ((t.mgmt.errCopies.getLastD []).getD 0 0).toNat / 2 ^ 8 % 2 ^ 8 = 9)

/-- The answer of a handle table. -/
def TableAnswers (s : State) (k pick : Nat) (r : HandleReq) (q : Line) (v : Word) (P : State → Prop) : Prop :=
  ∃ (t : State) (q' : Line), exec (.handleTableRequest k pick) s = .next t ∧ SMap.get? t.ctx.lines r.line = some q' ∧
    Landed q q' [(r.d, v, BitVec.allOnes 64)] 0 none true ∧ t.fl = { s.fl with handles := removeAt k s.fl.handles } ∧ t.mem = s.mem ∧ P t

/-- R28, R191 to R193, R267, R271, R272: TALLOC makes a tile of zeros of a FREE entry, one generation on, in granules that no tile has, or says why it does
not; TFREE frees the entry at once, and a running command keeps the tile; TINFO gives the shape. A handle on a die that is gone gives 4. The order of a
full table and a full Vat, and that an entry whose next handle would name a tile that a command still holds is not taken, is the model's choice (log
entry 50). -/
def tablesAnswer : Prop :=
  ∀ (s : State) (k pick : Nat) (r : HandleReq) (q : Line), nth? s.fl.handles k = some r → SMap.get? s.ctx.lines r.line = some q → Quiet q →
    let up := fun (c : Nat) => s.clusterGone c = false ∧ s.isReady (c / 48) 4 = true
    let fails := fun (n : Nat) => TableAnswers s k pick r q (BitVec.ofNat 64 (0xFFFFFFFF * 2 ^ 32 + n)) fun t => t.eng = s.eng
    let used := fun (c : Nat) => (s.granulesIn c fun _ => true).length
    let mine := fun (c : Nat) => (s.granulesIn c fun x => x.asid == r.asid).length
    let quota := (s.asidRegs r.asid).quota.toNat
    (∀ shape c, r.what = .alloc shape c → c < 192 → (s.seenBy r.seq).clusterGone c = true → s.clusterGone c = true → fails 4) ∧
    (∀ shape c, r.what = .alloc shape c → up c → tileOfShape shape = none → fails 3) ∧
    (∀ shape c x, r.what = .alloc shape c → up c → tileOfShape shape = some x → s.freeEntries c = [] → fails 1) ∧
    (∀ shape c x, r.what = .alloc shape c → up c → tileOfShape shape = some x → s.freeEntries c ≠ [] →
      1024 < used c + x.size ∨ quota ≠ 0 ∧ quota < mine c + x.size → fails 2) ∧
    (∀ shape c x i, r.what = .alloc shape c → up c → tileOfShape shape = some x → used c + x.size ≤ 1024 →
      (quota = 0 ∨ mine c + x.size ≤ quota) → nth? (s.freeEntries c) pick = some i →
      let g := (s.entry (c * 4096 + i)).gen
      let gen : BitVec 12 := if g = 4095 then 1 else g + 1
      (∀ h ∈ s.eng.held, h.ref ≠ (c * 4096 + i, gen)) →
      TableAnswers s k pick r q (BitVec.ofNat 64 (c / 48 * 2 ^ 30 + c % 48 * 2 ^ 24 + i * 2 ^ 12 + gen.toNat)) fun t =>
        (∃ gs : List Nat, t.entry (c * 4096 + i) = { x with gen := gen, asid := r.asid, granules := gs } ∧ gs.length = x.size ∧ gs.Nodup ∧
          ∀ n ∈ gs, n < 1024 ∧ n ∉ s.granulesIn c fun _ => true) ∧ x.data = [] ∧ x.scales = [] ∧ x.live = true ∧
        ∀ key, key ≠ c * 4096 + i → t.entry key = s.entry key) ∧
    (∀ h x, r.what = .release h → up (tileCluster h) → tileNoName h = false → s.liveTile r.asid h = .ok x → SMap.risingFrom 0 s.eng.tiles = true →
      TableAnswers s k pick r q 0 fun t => (t.entry (tileKey h)).live = false ∧ (t.entry (tileKey h)).gen = x.gen ∧
        (s.tileInUse (tileRef h) = true → t.eng.held = s.eng.held ++ [{ ref := tileRef h, tile := x }]) ∧
        (s.tileInUse (tileRef h) = false → t.eng.held = s.eng.held) ∧ ∀ key, key ≠ tileKey h → t.entry key = s.entry key) ∧
    (∀ h n, r.what = .release h → up (tileCluster h) → tileNoName h = false → s.liveTile r.asid h = .error n → fails 1) ∧
    (∀ h x, r.what = .info h → up (tileCluster h) → tileNoName h = false → s.liveTile r.asid h = .ok x →
      TableAnswers s k pick r q (BitVec.ofNat 64 (x.fmt * 2 ^ 60 + x.block * 2 ^ 57 + x.pitch * 2 ^ 32 + x.cols * 2 ^ 16 + x.rows))
        fun t => t.eng = s.eng) ∧
    (∀ h n, r.what = .info h → up (tileCluster h) → tileNoName h = false → s.liveTile r.asid h = .error n → fails 1) ∧
    (∀ h, (r.what = .release h ∨ r.what = .info h) →
      ((s.seenBy r.seq).dieGone (tileDie h) = true → s.dieGone (tileDie h) = true → fails 4) ∧
      (s.dieGone (tileDie h) = false → s.isReady (tileDie h) 4 = true → tileNoName h = true → fails 1))

/-- R203, R277 to R280: the gang sequencer of a die grants its first request the next ticket, in a cycle after that of the request, once every member's lane
has an entry to give, and reserves those entries; each slice then arrives at its own. A slice that has arrived starts at the head of its lane, unless
a command that came before it is at work on its tiles, reads what lies at its cluster for the broadcast, and ends: it has then computed its block of C
from its row's A tile and its column's B tile, each element as MMA computes it (R49 to R51, R203), and written no other element. Which commands hold
a slice back is as log entry 34 says. -/
def gangsProceed : Prop :=
  ∀ (s : State) (die c k home id : Nat) (g : Gang), s.gangOf home id = some g →
    (∀ at_ rest, die < 4 → (s.sequencer die).requests = (at_, home, id) :: rest → at_ < s.sched.cycle → (∀ x ∈ g.slices, (s.lane x.cluster).length < 8) →
      (g.slices.map (·.cluster)).Nodup → SMap.risingFrom 0 s.eng.running = true →
      ∃ t, exec (.gangTicketGrant die 0) s = .next t ∧ (t.sequencer die).next = (s.sequencer die).next + 1 ∧ (t.sequencer die).requests = rest ∧
        (t.gangOf home id).map (·.ticket) = some (some (s.sequencer die).next) ∧ t.mem = s.mem ∧ t.ctx = s.ctx ∧
        (∀ n x, nth? g.slices n = some x → t.lane x.cluster = s.lane x.cluster ++
          [{ ticket := (s.sequencer die).next, home := home, cmd := id, index := n, arrival := none }]) ∧
        (∀ c', (∀ x ∈ g.slices, x.cluster ≠ c') → t.lane c' = s.lane c')) ∧
    (∀ at_ rest x, (s.sequencer die).requests = (at_, home, id) :: rest → x ∈ g.slices → 8 ≤ (s.lane x.cluster).length ∨ s.sched.cycle ≤ at_ →
      NotYet (.gangTicketGrant die 0) s "GANG_TICKET_GRANT") ∧
    (∀ e : LaneEntry, nth? (s.lane c) k = some e →
      (e.arrival = none → ∃ t, sliceArrives c k s = .next t ∧ t.lane c = modifyAt (fun x => { x with arrival := some s.sched.seq }) k (s.lane c) ∧
        t.mem = s.mem ∧ t.ctx = s.ctx ∧ t.fl = s.fl ∧ t.eng.running = s.eng.running) ∧
      (e.arrival ≠ none → sliceArrives c k s = .refused (.notEnabled "SLICE"))) ∧
    (∀ (e : LaneEntry) (x : Slice), nth? (s.lane c) k = some e → e.home = home → e.cmd = id → nth? g.slices e.index = some x →
      SMap.risingFrom 0 s.eng.lanes = true →
      (k = 0 → x.phase = .waits → e.arrival ≠ none → s.memberBusy c e x = false →
        ∃ (t : State) (g' : Gang), exec (.gangSliceStart c k) s = .next t ∧ t.gangOf home id = some g' ∧ t.mem = s.mem ∧ t.eng.tiles = s.eng.tiles ∧
          nth? g'.slices e.index = some { x with phase := .started, flags := if s.mgmt.alarm then 1 else 0 } ∧
          (∀ n, n ≠ e.index → nth? g'.slices n = nth? g.slices n) ∧
          (x.a.1 / 4096 = c → SMap.get? g'.aCast (e.index / g.cols) = some (s.heldTile x.a)) ∧
          (x.b.1 / 4096 = c → SMap.get? g'.bCast (e.index % g.cols) = some (s.heldTile x.b))) ∧
      (k ≠ 0 ∨ e.arrival = none ∨ s.memberBusy c e x = true → NotYet (.gangSliceStart c k) s "GANG_SLICE_START") ∧
      (∀ a b, x.phase = .started → SMap.get? g.aCast (e.index / g.cols) = some a → SMap.get? g.bCast (e.index % g.cols) = some b →
        ∃ (t : State) (g' : Gang) (y : Slice), exec (.gangSliceEnd c k) s = .next t ∧ t.gangOf home id = some g' ∧
          t.lane c = removeAt k (s.lane c) ∧ nth? g'.slices e.index = some y ∧ y.phase = .ended ∧ y.cluster = x.cluster ∧
          (∀ n, n ≠ e.index → nth? g'.slices n = nth? g.slices n) ∧
          (y.status ≠ 0 → x.status = 0 → y.status = 8 ∧ t.eng.tiles = s.eng.tiles) ∧ (∀ key, key ≠ x.c.1 → t.entry key = s.entry key)) ∧
      (∀ a b, x.phase = .started → SMap.get? g.aCast (e.index / g.cols) = some a → SMap.get? g.bCast (e.index % g.cols) = some b →
        let d := s.heldTile x.c
        let prods := fun (i j n : Nat) => (List.range 32).map fun t => (a.value i (32 * n + t)).mul (b.value (32 * n + t) j)
        let small := fun (y : Tile) => (y.fmt = 1 ∨ y.fmt = 11) ∧ y.block = 0
        a.bad = [] → b.bad = [] → d.bad = [] → SMap.risingFrom 0 d.data = true → g.n ≤ 256 →
        ((s.entry x.c.1).live = true ∧ (s.entry x.c.1).gen = x.c.2 ∨ ∃ h ∈ s.eng.held, h.ref = x.c) →
        ∃ (t : State) (g' : Gang) (y : Slice), exec (.gangSliceEnd c k) s = .next t ∧ t.gangOf home id = some g' ∧ nth? g'.slices e.index = some y ∧
          y.status = x.status ∧ y.w0 = x.w0 ∧
          let after := fun (n : Nat) => SMap.getD (t.heldTile x.c).data n 0
          (∀ i < g.m, ∀ j < g.n,
            (d.fmt ≠ 3 → after (i * 256 + j) = mmaAcc (prods i j) (g.k / 32) (if g.zero then 0 else d.elem i j)) ∧
            (d.fmt = 3 → small a → small b → ∀ z : Nat → Int, z 0 = (if g.zero then 0 else bitsInt 32 (d.elem i j)) →
              (∀ n, z (n + 1) = max (-(2 ^ 31)) (min (2 ^ 31 - 1) (z n + ((List.range 32).map fun t =>
                smallInt a.fmt (a.elem i (32 * n + t)) * smallInt b.fmt (b.elem (32 * n + t) j)).sum))) →
              after (i * 256 + j) = intBits 32 (z (g.k / 32)))) ∧
          ∀ n, g.m ≤ n / 256 ∨ g.n ≤ n % 256 → after n = SMap.getD d.data n 0) ∧
      (x.phase = .waits → NotYet (.gangSliceEnd c k) s "GANG_SLICE_END"))

/-- R280: a gang's command ends when every slice has ended, with the status and the word of the first slice that failed. -/
def gangsEnd : Prop :=
  ∀ (s : State) (c : Nat) (r : Run) (g : Gang), r.ended = false → r.waiting = 0 → r.gang = some g → r.bag = none → r.e.poster = none →
    r.info.ckind = 1 → s.runs c 0 = [r] → SMap.risingFrom 0 s.eng.running = true →
    let i := Instr.engineCommandEnd c 0 0
    ((∃ x ∈ g.slices, x.phase ≠ .ended) → NotYet i s "ENGINE_COMMAND_END") ∧
    (∀ pre x post, (∀ y ∈ g.slices, y.phase = .ended) → g.slices = pre ++ x :: post → (∀ y ∈ pre, y.status = 0) → (x.status ≠ 0 ∨ post = []) →
      ∃ (t : State) (z : SendEntry) (w2 : Word) (info : CmdInfo), exec i s = .next t ∧ t.runs c 0 = [] ∧ t.sendsOf c = s.sendsOf c ++ [z] ∧
        z.what = .msg r.info.ctgt info.w0 ((completionWords info).getD 1 0) w2 (BitVec.ofNat 64 (0xF3 * 2 ^ 56)) 4 (.completion info) ∧
        info.status = x.status ∧ (x.status ≠ 0 → info.w0 = x.w0) ∧ info.cop = r.info.cop ∧ info.home = r.info.home)

/-- R373: after each 65,536th hit every counter of a die's row cache is halved. -/
def rowCachesHalve : Prop :=
  ∀ (s : State) (d : Nat), d < 4 →
    ((s.rowCache d).due = true → ∃ t, exec (.rowCacheHalving d) s = .next t ∧ (t.rowCache d).due = false ∧ (t.rowCache d).hits = (s.rowCache d).hits ∧
      (t.rowCache d).rows = (s.rowCache d).rows.map (fun x => { x with counter := x.counter / 2 }) ∧ t.mem = s.mem ∧ t.ctx = s.ctx) ∧
    ((s.rowCache d).due = false → NotYet (.rowCacheHalving d) s "ROW_CACHE_HALVING")

/-- Commands between their POST and their completion. -/
def Obligations.CommandsInQueues : Prop := commandsAccepted ∧ commandsTurnedAway ∧ commandsEnd ∧ postwEnds ∧ writesAtEnd

/-- Handle tables, gangs and the row cache. -/
def Obligations.TablesAndGangs : Prop := tablesAnswer ∧ gangsProceed ∧ gangsEnd ∧ rowCachesHalve

/-! ### Spawn requests, submissions, the end of an instance (R175, R327, R341 to R343, R347, R348, R350) -/

/-- R243, R244, R342, R350: the context that a spawn request makes of a line: READY at its home, with its entry and arguments, one generation on,
nothing full or pending and an empty inbox. -/
def MadeFor (r : SpawnReq) (c : Nat) (old : Ctx) (l : Line) : Prop :=
  l.c.st.state = .ready ∧ l.c.here = c ∧ l.c.pc = r.entry ∧ (∀ k : Fin 8, l.c.reg k = r.regs.getD k.val 0) ∧ l.c.st.cls = r.cls ∧
  l.c.st.priv = r.priv ∧ l.c.st.roam = r.roam ∧ l.c.asid = r.asid ∧ l.c.launch = r.launch ∧ l.c.floor = r.floor ∧
  l.c.gen = (if old.gen = 16383 then 1 else old.gen + 1) ∧ l.c.st.full = 0 ∧ l.c.st.pend = 0 ∧ l.c.st.larem = 0 ∧ l.c.inboxCount = 0 ∧
  l.c.inboxBase = old.inboxBase ∧ l.c.st.dies = (if r.origin = .fire then r.dies ||| (1#4 <<< (c / 48)) else r.dies)

/-- A request is served at cluster c, in state u once it has left its list: it takes the line on top of the pool, or waits in the spawn backlog, or
is dropped when that is full, which UNDELIV_COUNT and a record say. -/
def ServesAt (i : Instr) (s u : State) (r : SpawnReq) (c : Nat) : Prop :=
  let others := if r.origin = .launch then 0 else u.reserved c
  (∀ lnum key, u.poolPeek c r.asid = some (lnum, key) → SMap.get? u.ctx.resid key = none →
    ∃ (t : State) (l : Line), exec i s = .next t ∧ SMap.get? t.ctx.lines key = some l ∧ MadeFor r c ((u.poolPop c r.asid).memLine key) l ∧
      l.lnum = BitVec.ofNat 50 lnum ∧ l.place = .memory ∧ t.fl = u.fl ∧ t.launch = u.launch) ∧
  (∀ lnum key n, u.poolPeek c r.asid = some (lnum, key) → SMap.get? u.ctx.resid key = some (.l2 c, n) →
    ∃ (t : State) (l : Line), exec i s = .next t ∧ SMap.get? t.ctx.lines key = some l ∧ MadeFor r c ((u.poolPop c r.asid).memLine key) l ∧
      l.place = .l2 c ∧ t.runList c r.cls.toNat = joined (u.runList c r.cls.toNat) { line := key, age := 0, from_ := s.sched.cycle } ∧ t.fl = u.fl) ∧
  (u.poolPeek c r.asid = none → (u.backlog c).length + others < 65536 →
    ∃ t, exec i s = .next t ∧ t.backlog c = u.backlog c ++ [r] ∧ t.ctx = u.ctx ∧ t.mem = u.mem ∧ t.fl = u.fl ∧ t.asids = u.asids) ∧
  (u.poolPeek c r.asid = none → 65536 ≤ (u.backlog c).length + others → r.acct = none →
    ∃ t, exec i s = .next t ∧ t.launch = u.launch ∧ t.fl = u.fl ∧ (t.asidRegs r.asid).undeliv = (u.asidRegs r.asid).undeliv + 1 ∧
      t.mgmt.errCopies.length = u.mgmt.errCopies.length + 1)

/-- R342: a spawn request is served at its home; one toward a home that has gone is dropped with a record of cause 4; one of a cancelled launch is
discarded. A LAUNCH with a job queues its requests after its job's event is acknowledged (`launchesGoOn`). -/
def spawnsServed : Prop :=
  ∀ (s : State) (k c : Nat) (r : SpawnReq), nth? s.fl.spawns k = some r →
    let i := Instr.spawnRequest k
    let u := { s with fl := { s.fl with spawns := removeAt k s.fl.spawns } }
    (s.spawnCancelled r = true → exec i s = .next u) ∧
    (s.spawnCancelled r = false → r.home = some c → s.clusterGone c = false → ServesAt i s u r c) ∧
    (s.spawnCancelled r = false → r.home = some c → s.clusterGone c = true → r.origin ≠ .host → r.acct = none →
      ∃ t, exec i s = .next t ∧ t.fl = u.fl ∧ t.launch = s.launch ∧ t.mgmt.errCopies = s.mgmt.errCopies ++
        [[BitVec.ofNat 64 (3 + 4 * 2 ^ 8 + r.asid.toNat * 2 ^ 16), BitVec.ofNat 64 (r.addr.toNat + r.step.toNat * 2 ^ 32), 0, r.v.signExtend 64,
          s.timeAt (r.issuer / 48), 0, 0, 0]])

/-- Word k of a submission. -/
def wordOf (data : BitVec 512) (k : Nat) : Word := data.extractLsb' (64 * k) 64

/-- The words of a HOST record (R393). -/
def hostRecord (s : State) (cause : Nat) (asid : BitVec 12) (h w : Word) (d : Nat) : List Word :=
  [BitVec.ofNat 64 (6 + cause * 2 ^ 8 + asid.toNat * 2 ^ 16), h, w, 0, 0, 0, s.timeAt d, 0]

/-- R347, R348: a host write to a submission window leaves as a message of four words from the port's own send buffer, or, with a zero handle, makes a
context at the cluster that it names; a malformed one is discarded with a HOST record. That a full send buffer of the port makes the write wait, and
which messages are malformed, is the model's choice (log entry 26). -/
def submissionsTaken : Prop :=
  ∀ (s : State) (port : Nat) (asid : BitVec 12) (data : BitVec 512),
    let h := wordOf data 0
    let sub := Instr.submissionWrite port asid data
    let start := Instr.startRequest port asid data
    let up := port < 2 ∧ s.mgmt.ready.getLsbD (32 + port) = true
    let tail := data.extractLsb' 320 192
    let pc := (wordOf data 1).toNat
    let home := (wordOf data 2).toNat
    let c := home % 256
    let good := tail = 0 ∧ pc % 8 = 0 ∧ pc < 2 ^ 57 ∧ home < 2 ^ 12 ∧ s.clusterGone c = false
    (¬ up → NotYet sub s "SUBMISSION_WRITE" ∧ NotYet start s "START_REQUEST") ∧
    (up → h ≠ 0 → tail ≠ 0 → ∃ t, exec sub s = .next t ∧ t.fl = s.fl ∧
      t.mgmt.errCopies = s.mgmt.errCopies ++ [hostRecord s 1 asid h (wordOf data 1) (2 * port)]) ∧
    (up → h ≠ 0 → tail = 0 → (s.sendsOf (192 + port)).length < 64 → ∃ t x, exec sub s = .next t ∧ t.ctx = s.ctx ∧ t.mem = s.mem ∧
      t.sendsOf (192 + port) = s.sendsOf (192 + port) ++ [x] ∧ x.asid = asid ∧ x.line = none ∧
      x.what = .msg h (wordOf data 1) (wordOf data 2) (wordOf data 3) (wordOf data 4) 4 .submission ∧
      x.tags = [{ time := s.timeAt (2 * port), scope := .sys, cluster := 192 + port, auto := true, who := none, seq := 0 }]) ∧
    (up → h ≠ 0 → tail = 0 → 64 ≤ (s.sendsOf (192 + port)).length → NotYet sub s "SUBMISSION_WRITE") ∧
    (up → h = 0 → good → ∃ r : SpawnReq, ServesAt start s s r c ∧ r.asid = asid ∧ r.entry.toNat = pc ∧ r.regs = [wordOf data 3, wordOf data 4] ∧
      r.cls.toNat = home / 2 ^ 8 % 4 ∧ r.priv = (if home / 2 ^ 10 % 2 = 1 then 1 else 0) ∧ (r.roam = true ↔ home / 2 ^ 11 % 2 = 1) ∧
      r.launch = 0xFFF ∧ r.floor = s.timeAt (c / 48) ∧ r.dies = 0 ∧ r.origin = .host ∧ r.acct = none) ∧
    (up → h = 0 → ¬ good → ∃ t, exec start s = .next t ∧ t.fl = s.fl ∧ t.launch = s.launch ∧
      (t.asidRegs asid).undeliv = (s.asidRegs asid).undeliv + 1 ∧
      t.mgmt.errCopies = s.mgmt.errCopies ++ [hostRecord s 3 asid 0 (wordOf data 1) (2 * port)])

/-- R175, R343: QUIT.done of a context of a live launch sends −1, now and as a release, to member 0 of the launch's own group; without a live launch it
posts nothing. -/
def instancesEnd : Prop :=
  ∀ (g : Guard) (s : State) (key : Nat) (l : Line),
    let i := Instr.quitDone g
    let slot := l.c.launch.toNat % 2 ^ 12
    Issues (headWait i g 0 0) s key l → l.c.st.pend = 0 → s.unacked key = false →
      (∀ x, SMap.get? s.launch.table slot = some x → x.asid = l.c.asid → ∃ t, exec i s = .next t ∧ ∃ q ∈ t.sendsOf l.c.here, ∃ z : Ev,
        q.what = .event z .device ∧ z.addr = groupAddr x.group ∧ z.value = -1 ∧ z.step = 0xFFFFFFFF ∧ z.rel = true ∧ z.asid = l.c.asid ∧ z.count = 1) ∧
      (SMap.get? s.launch.table slot = none → s.fl.cancels = [] → SMap.risingFrom 0 s.ctx.lines = true → (s.readWord (s.poolEntry l.c.here l.c.asid)).getLsbD 63 = false →
        (∀ n < 8, (s.poolEntry l.c.here l.c.asid + n) / 128 ≠ key) →
        ∃ t, exec i s = .next t ∧ SMap.get? t.ctx.lines key = none ∧ sameLinesBut key s t ∧ t.fl.sends = (s.fl.orphan key).sends)

/-- What makes contexts, and what the end of one posts. -/
def Obligations.SpawnsAndSubmissions : Prop := spawnsServed ∧ submissionsTaken ∧ instancesEnd

/-! ### The fabric, and the loss of a die (R377 to R388, R393, R394, R397, R405) -/

/-- A step of the switches or lanes: state t is s but for one of the two tables of the fabric. -/
def OnlySwitches (s t : State) : Prop := t = { s with fab := { s.fab with switches := t.fab.switches } }
/-- The same for the lanes. -/
def OnlyLanes (s t : State) : Prop := t = { s with fab := { s.fab with lanes := t.fab.lanes } }

/-- R384: what the three steps of a power state make of it after `idle` idle cycles: it powers down with its idle count; a wake restarts the count of one
that is up, and wins over a decision to power down of the same cycle, or brings it up 24 cycles later. -/
def PowerSteps (p : PowerState) (idle now : Nat) (down wake up : Option PowerState) : Prop :=
  let counted := fun (n : Nat) => (now < n + idle → down = none) ∧ (n + idle ≤ now → down = some (.down (n + idle)))
  let woken := fun (decided : Nat) => wake = some (if now ≤ decided then .up now (now + 1) else .waking (now + 24))
  (∀ n f, p = .up n f → up = none ∧ counted n ∧ woken (n + idle)) ∧
  (∀ n, p = .down n → down = none ∧ up = none ∧ woken n) ∧
  (∀ n, p = .waking n → (now < n → up = none ∧ wake = some (.waking n)) ∧ (n ≤ now → up = some (.up n (n + 1)) ∧ woken (n + idle)) ∧ counted n)

/-- R384: a switch of a live die powers down after 512 idle fabric cycles; a wake restarts its idle count, or brings it up 24 cycles later. From when
idleness counts at reset and after a wake is the model's choice (log entry 27). -/
def switchesSleep : Prop :=
  ∀ (s : State) (sw : Nat),
    let here := sw / 384 < 4 ∧ s.live (sw / 384) = true
    let Goes := fun (i : Instr) (name : String) (p : Option PowerState) => match p with
      | some q => ∃ t, exec i s = .next t ∧ OnlySwitches s t ∧ t.switch sw = q ∧ ∀ k, k ≠ sw → t.switch k = s.switch k
      | none => NotYet i s name
    ∃ down wake up, PowerSteps (s.switch sw) 512 s.sched.cycle down wake up ∧
      (here → Goes (.switchPowerDown sw) "SWITCH_POWER_DOWN" down ∧ Goes (.switchWake sw) "SWITCH_WAKE" wake ∧
        Goes (.switchPowerUp sw) "SWITCH_POWER_UP" up) ∧
      (¬ here → NotYet (.switchPowerDown sw) s "SWITCH_POWER_DOWN" ∧ NotYet (.switchWake sw) s "SWITCH_WAKE" ∧
        NotYet (.switchPowerUp sw) s "SWITCH_POWER_UP")

/-- R384: lanes of a bulk plane do the same after 4,096 idle cycles, counted from the last flit of their plane; the narrow plane never powers down.
Lane numbers count 65,536 for each plane, boundary × 2 + plane (log entry 29). -/
def lanesSleep : Prop :=
  ∀ (s : State) (ln : Nat),
    let here := s.laneUp ln = true ∧ ln / 65536 % 2 = 1
    let flit : Nat := SMap.getD s.fab.carried (ln / 65536 / 2) 0
    let p : PowerState := match (s.fabLane ln).power with
      | .up t f => .up (max t flit) f
      | .waking t => if t < flit then .up flit (t + 1) else .waking t
      | .down t => .down t
    let Goes := fun (i : Instr) (name : String) (p : Option PowerState) => match p with
      | some q => ∃ t, exec i s = .next t ∧ OnlyLanes s t ∧ t.fabLane ln = { s.fabLane ln with power := q } ∧ ∀ k, k ≠ ln → t.fabLane k = s.fabLane k
      | none => NotYet i s name
    ∃ down wake up, PowerSteps p 4096 s.sched.cycle down wake up ∧
      (here → Goes (.bulkLanePowerDown ln) "BULK_LANE_POWER_DOWN" down ∧ Goes (.bulkLaneWake ln) "BULK_LANE_WAKE" wake ∧
        Goes (.bulkLanePowerUp ln) "BULK_LANE_POWER_UP" up) ∧
      (¬ here → NotYet (.bulkLanePowerDown ln) s "BULK_LANE_POWER_DOWN" ∧ NotYet (.bulkLaneWake ln) s "BULK_LANE_WAKE" ∧
        NotYet (.bulkLanePowerUp ln) s "BULK_LANE_POWER_UP")

/-- The words of a LINK record (R393). -/
def linkRecord (s : State) (cause bits lanes d : Nat) : List Word :=
  [BitVec.ofNat 64 (4 + cause * 2 ^ 8 + bits), BitVec.ofNat 64 lanes, 0, 0, 0, 0, s.timeAt d, 0]

/-- READY_MAP of t is that of s but for the bits that a predicate names, which are as given. -/
def ReadyBits (s t : State) (which : Nat → Prop) (v : Bool) : Prop :=
  ∀ k < 64, (which k → t.mgmt.ready.getLsbD k = v) ∧ (¬ which k → t.mgmt.ready.getLsbD k = s.mgmt.ready.getLsbD k)

/-- Another plane toward a die than a given one is up (R385). -/
def OtherPlane (s : State) (p d : Nat) : Prop := ∃ q, q ≠ p ∧ (q / 2 = d ∨ q / 2 = (d + 3) % 4) ∧ s.planeUp q = true

/-- R379, R393, R394, R397, R405: a CRC error is counted; a lane with repeated errors is retired (two or more: log entry 28); a plane that reports
link-down, and is not the last toward a die, clears LINKS of its two dies; a Duset port that loses its link clears DUSET. Each of the last three writes
a LINK record. -/
def linksFail : Prop :=
  ∀ (s : State) (ln b pl die port : Nat),
    let x := s.fabLane ln
    let p := ln / 65536
    let e := (b + 1) % 4
    let dies := fun (b : Nat) => b * 2 ^ 16 + (b + 1) % 4 * 2 ^ 18
    (s.laneUp ln = true → ∃ t, exec (.linkCrcError ln) s = .next t ∧ OnlyLanes s t ∧ t.fabLane ln = { x with errors := x.errors + 1 } ∧
      ∀ k, k ≠ ln → t.fabLane k = s.fabLane k) ∧
    (s.laneUp ln = false → NotYet (.linkCrcError ln) s "LINK_CRC_ERROR") ∧
    (s.laneUp ln = true → 2 ≤ x.errors → ∃ (t : State) (left : Nat), exec (.laneRetire ln) s = .next t ∧ t.fabLane ln = { x with retired := true } ∧
      (∀ k, k ≠ ln → t.fabLane k = s.fabLane k) ∧ t.laneUp ln = false ∧ ReadyBits s t (· = 63) true ∧
      t.mgmt.errCopies = s.mgmt.errCopies ++ [linkRecord s 1 (dies (p / 2) + p % 2 * 2 ^ 20) left (p / 2)]) ∧
    (s.laneUp ln = false ∨ x.errors < 2 → NotYet (.laneRetire ln) s "LANE_RETIRE") ∧
    (pl < 2 → s.planeUp (2 * b + pl) = true → OtherPlane s (2 * b + pl) b → OtherPlane s (2 * b + pl) e →
      ∃ (t : State) (left : Nat), exec (.linkPlaneDown b pl) s = .next t ∧
      t.planeUp (2 * b + pl) = false ∧ (∀ q, q ≠ 2 * b + pl → t.planeUp q = s.planeUp q) ∧
      ReadyBits s t (fun k => k = 8 * b + 6 ∨ k = 8 * e + 6) false ∧
      t.mgmt.errCopies = s.mgmt.errCopies ++ [linkRecord s 2 (dies b + pl * 2 ^ 20) left b]) ∧
    (2 ≤ pl ∨ s.planeUp (2 * b + pl) = false → NotYet (.linkPlaneDown b pl) s "LINK_PLANE_DOWN") ∧
    (die < 4 → port < 4 → s.live die = true → ∃ t, exec (.dusetLinkLoss die port) s = .next t ∧ ReadyBits s t (· = 34) false ∧
      t.mgmt.errCopies = s.mgmt.errCopies ++ [linkRecord s 2 (die * 2 ^ 16 + 2 ^ 21 + port * 2 ^ 22) 0 die] ∧ t.fab = s.fab ∧ t.fl = s.fl) ∧
    (4 ≤ port ∨ s.live die = false → NotYet (.dusetLinkLoss die port) s "DUSET_LINK_LOSS")

/-- R386, R387, R393: state t is s after the loss of a die, which a DIE record of the given event reports. Its tiles, commands, groups and context
lines are lost, nothing on its way toward it or from it remains, its memory reads as poisoned, and no copy of a line homed there is kept. -/
structure LosesDie (s t : State) (die event : Nat) : Prop where
  lost : (t.die die).lost = true ∧ (t.die die).drain = none
  others : ∀ d, d ≠ die → t.die d = s.die d
  ready : (∀ k < 8, t.mgmt.ready.getLsbD (8 * die + k) = false) ∧ (die = 0 → t.mgmt.ready.getLsbD 32 = false) ∧
    (die = 2 → t.mgmt.ready.getLsbD 33 = false)
  record : ∃ (pre post : List (List Word)) (ended lines : Nat) (time : Word), t.mgmt.errCopies = s.mgmt.errCopies ++ pre ++
    [[BitVec.ofNat 64 (5 + event * 2 ^ 8 + die * 2 ^ 16), BitVec.ofNat 64 ended, BitVec.ofNat 64 lines, 0, 0, 0, time, 0]] ++ post
  tiles : ∀ key, key / 4096 / 48 = die → (t.entry key).live = false ∧ (t.entry key).gen = (s.entry key).gen
  commands : ∀ c q, c / 48 = die → q < 3 → t.queue c q = [] ∧ t.runs c q = []
  groups : ∀ gk, gk / 256 / 48 = die → t.group gk = Group.reset
  accesses : (∀ x ∈ t.mem.stores, s.storeOn die x = false) ∧ ∀ p ∈ t.fl.pend, s.pendOn die p = false
  memory : t.mem.wiped.getLsbD die = true ∧ ∀ pa, s.homeDie pa = some die → t.homeGone pa = true
  copies : ∀ k, k / 2 ^ 45 = die ∨ s.homeDie (128 * (k % 2 ^ 45)) = some die → SMap.get? t.mem.copies k = none
  owned : ∀ key l, SMap.get? t.ctx.lines key = some l → l.place.ownerDie ≠ some die

/-- R387: what the fence does to a line that survives it, where no CANCEL is retiring contexts and nothing is on its way through the die. In a slot or a
cache a context that has touched the die is TRAPPED with code DIE_LOST (0x20); anywhere else, an arrival queue included, it is marked for the first
action applied to it; a context that has not touched the die is not trapped. A line that is not live is ordinary memory (R246). -/
def FencesLines (s t : State) (die : Nat) : Prop :=
  (∀ k m, SMap.get? s.ctx.lines k = some m → m.cancelled = false) → s.fab.sent = [] → ∀ key l, SMap.get? s.ctx.lines key = some l → Quiet l → l.live = true →
    (∀ c, ((∃ u sl, l.place = .slot c u sl) ∨ (∃ u, l.place = .l1 c u) ∨ l.place = .l2 c) → c / 48 ≠ die → l.c.st.dies.getLsbD die = true →
      ∃ l', SMap.get? t.ctx.lines key = some l' ∧ l'.c.st.trapcode = 0x20 ∧ l'.c.writable = true) ∧
    ((l.place.ownerDie = none ∧ s.homeDie (128 * key) ≠ some die ∨ ∃ c, (l.place = .arrival c ∨ ∃ u sl, l.place = .toL1 c u sl) ∧ c / 48 ≠ die) →
      l.c.st.dies.getLsbD die = true →
      (∀ p ∈ s.fl.pend, p.line ≠ key) →
      ∃ l', SMap.get? t.ctx.lines key = some l' ∧ l'.lost.getLsbD die = true ∧ (l'.c.st.state = .trapped → l.c.writable = true)) ∧
    (s.lostWith die key l = false → l.c.st.dies.getLsbD die = false → (∀ p ∈ s.fl.pend, p.line = key → s.pendOn die p = false) →
      ∃ l', SMap.get? t.ctx.lines key = some l' ∧ (l'.c.st.state = .trapped → l.c.writable = true))

/-- R385: a plane is one toward a die. -/
def Toward (q d : Nat) : Prop := q / 2 = d ∨ q / 2 = (d + 3) % 4

/-- R385: a live die toward which some planes of these lead, and every plane has reported link-down once these have. -/
def CutOff (s : State) (down : Nat → Prop) (d : Nat) : Prop :=
  d < 4 ∧ s.live d = true ∧ (∃ q < 8, down q ∧ Toward q d) ∧ ∀ q, Toward q d → s.planeUp q = true → down q

/-- R385: a die that is lost when these planes report link-down. Where that is every live die, the model leaves the one of the lowest number, other than
the die named, to report the failure (log entry 66). -/
def LostBy (s : State) (down : Nat → Prop) (named : Option Nat) (d : Nat) : Prop :=
  CutOff s down d ∧
    ¬ ((∀ e < 4, s.live e = true → CutOff s down e) ∧ named ≠ some d ∧ ∀ e, CutOff s down e → named ≠ some e → d ≤ e)

/-- R385 to R388: every die is lost toward which every plane has reported link-down when one plane does, or all toward a die do, another die being live
(log entry 66 says which one stays where none would); what was on its way through it ends; a drain ends with nothing outstanding before its deadline,
or at the deadline, which no cycle passes, and the fence follows. -/
def diesLost : Prop :=
  ∀ (s : State) (die : Nat), die < 4 → SMap.risingFrom 0 s.ctx.lines = true →
    let Loses := fun (i : Instr) (event : Nat) => ∃ t, exec i s = .next t ∧ LosesDie s t die event ∧ FencesLines s t die
    (∀ (i : Instr) (down : Nat → Prop) (named : Option Nat),
      (∃ d, i = .allLinksDown d ∧ s.live d = true ∧ (∃ e, e ≠ d ∧ s.live e = true) ∧ (∀ q, down q ↔ Toward q d) ∧ named = some d ∧ d < 4) ∨
      (∃ b pl, i = .linkPlaneDown b pl ∧ pl < 2 ∧ s.planeUp (2 * b + pl) = true ∧ (∀ q, down q ↔ q = 2 * b + pl) ∧ named = none) →
      (∃ t, exec i s = .next t ∧ ∀ d < 4, (LostBy s down named d → t.live d = false ∧ (t.die d).linkLost = true) ∧
        (¬ LostBy s down named d → t.die d = s.die d)) ∧
      (LostBy s down named die → (∀ d, d ≠ die → ¬ LostBy s down named d) → Loses i 5 ∧
        ∀ t, exec i s = .next t → ∀ r ∈ s.through die,
          (∀ x ∈ t.mem.stores, 3 * x.seq ≠ r.id) ∧ ∀ p ∈ t.fl.pend, p.access?.isSome = true → 3 * p.seq ≠ r.id)) ∧
    (s.live die = false ∨ (∀ e, e ≠ die → s.live e = false) → NotYet (.allLinksDown die) s "ALL_LINKS_DOWN") ∧
    (∀ at_ q, (s.die die).drain = some (at_, q) → s.live die = true → (s.timeAt die).toNat < at_ → s.drained die = true →
      Loses (.dieDrainEnd die) 2) ∧
    (s.drained die = false → NotYet (.dieDrainEnd die) s "DIE_DRAIN_END") ∧
    (∀ at_ q, (s.die die).drain = some (at_, q) → s.live die = true → at_ ≤ (s.timeAt die).toNat →
      Loses (.dieDrainDeadline die) 3 ∧ NotYet (.dieDrainEnd die) s "DIE_DRAIN_END" ∧ act .idle s = .refused (.notEnabled "CYCLE")) ∧
    (∀ at_ q, (s.die die).drain = some (at_, q) → (s.timeAt die).toNat < at_ → NotYet (.dieDrainDeadline die) s "DIE_DRAIN_DEADLINE") ∧
    ((s.die die).drain = none → NotYet (.dieDrainDeadline die) s "DIE_DRAIN_DEADLINE")

/-- R387: a load that the fence ends leaves the replay address in its lowest destination, clears its pending bits, and its context, trapped with the
next instruction to issue in its PC word, holds a replay marker. Stated of one line and one load in flight, where neither ring is there to write and no
other die is lost with the one. -/
def loadsReplay : Prop :=
  ∀ (s : State) (die e key : Nat) (l : Line) (p : Pending) (a : Access), die < 4 → s.live die = true → e ≠ die → s.live e = true →
    (∀ d, d ≠ die → ¬ LostBy s (Toward · die) (some die) d) →
    s.ctx.lines = [(key, l)] → s.fl.pend = [p] → p.line = key → p.access? = some a → s.pendOn die p = true →
    ((∃ w, a.kind = .ld w) ∨ a.kind = .ldv ∨ ∃ fmt pos, a.kind = .ldt fmt pos) → Quiet l → l.place.ownerDie = some e → l.c.st.dies.getLsbD die = true →
    s.fl.orders = [] → s.fl.ranges = [] → s.fl.reds = [] → s.fab.sent = [] → s.mgmt.based = false → (s.asidRegs l.c.asid).ringSize = 0 →
    ∃ (t : State) (l' : Line), exec (.allLinksDown die) s = .next t ∧ SMap.get? t.ctx.lines key = some l' ∧
      l'.c.reg (regOf (lowestReg p.clear)) = replayAddr a ∧ l'.c.st.pend = l.c.st.pend &&& ~~~p.clear ∧ l'.c.pc = l.c.pc ∧
      l'.c.st.state = .trapped ∧ l'.c.st.trapcode = 0x20 ∧ l'.c.waitKind = 15 ∧ l'.c.waitObj = a.pc.setWidth 60 ||| 1

/-- R377: the planes of each kind of request and of its answer: reads and writes of memory, lines that move, engine data and the fills of caches cross on
the bulk plane; messages, deposits, events, commands, claims, slices of gangs and requests that are answered cross on the narrow one. The answer to a
read of a line is data, on the bulk plane; every other answer is on the narrow one. -/
def planesOfKinds : Prop :=
  ∀ (s : State),
    (∀ x, (s.storeRequest x).plane = 1 ∧ (s.storeRequest x).answer = 0) ∧ (∀ p r, s.pendRequest p = some r → r.plane = 1 ∧ r.answer = 1) ∧
    (∀ key l r, s.moveRequest key l = some r → r.plane = 1 ∧ r.answer = 0) ∧
    (∀ buf k e r, s.sendRequest buf k e = some r → r.plane = 0 ∧ r.answer = 0) ∧ (∀ x r, s.ownerRequest x = some r → r.plane = 0 ∧ r.answer = 0) ∧
    (∀ x, (s.bankRequest x).plane = 0 ∧ (s.bankRequest x).answer = 0) ∧ (∀ x, (s.handleRequest x).plane = 0 ∧ (s.handleRequest x).answer = 0) ∧
    (∀ x, (spawnRequest x).plane = 0 ∧ (spawnRequest x).answer = 0) ∧
    (∀ slot x r, s.claimRequest slot x = some r → r.plane = 0 ∧ r.answer = 0) ∧
    (∀ c k y, y ∈ s.crossings (.sliceArrive c k) → y.plane = 0 ∧ y.answer = 0) ∧
    (∀ x y, (∀ c k, x ≠ .sliceArrive c k) → y ∈ s.crossings x → y.plane = 1) ∧ (∀ t x y, y ∈ s.carried t x → y.plane = 1)

/-- R378, R380: a flit between opposite dies crosses the source's northern neighbour when that is live and not being quiesced (R388), and otherwise its
eastern one; between neighbours it crosses their boundary. In a die it takes one switch at each of six stages, and leaves stage k by the output that
bit 5 − k of its destination selects. The wires between the stages are the model's choice (log entry 66). The ports of a die have the agents that R380
names. -/
def pathsTaken : Prop :=
  (∀ (s : State) (a b : Nat), a < 4 → b < 4 →
    (a = b → s.way a b = [a]) ∧ ((a + 1) % 4 = b ∨ (b + 1) % 4 = a → s.way a b = [a, b]) ∧
    ((a + 2) % 4 = b → ∃ via, s.way a b = [a, via, b] ∧
      (s.live ((a + 1) % 4) = true ∧ (s.die ((a + 1) % 4)).drain = none → via = (a + 1) % 4) ∧
      (¬ (s.live ((a + 1) % 4) = true ∧ (s.die ((a + 1) % 4)).drain = none) → via = (a + 3) % 4))) ∧
  (∀ i < 64, ∀ j < 64, (omegaPath i j).length = 6 ∧ (∀ k y, nth? (omegaPath i j) k = some y → y.1 = k ∧ y.2.1 < 32 ∧ y.2.2 < 2) ∧
    ((omegaPath i j).getLast?.map fun y => y.2.1) = some (j / 2)) ∧
  (∀ die < 4, (∀ p < 48, portAgent die p = .cluster (48 * die + p)) ∧ portAgent die 48 = .northEdge 0 ∧ portAgent die 49 = .northEdge 1 ∧
    portAgent die 50 = .eastEdge 0 ∧ portAgent die 51 = .eastEdge 1 ∧ portAgent 0 52 = .cxl 0 ∧ portAgent 2 52 = .cxl 1 ∧ portAgent 1 52 = .none ∧
    portAgent 3 52 = .none ∧ (∀ p < 4, portAgent die (53 + p) = .duset p) ∧ portAgent die 57 = .neriup ∧ portAgent die 58 = .sequencer ∧
    (∀ p, 58 < p → p < 64 → portAgent die p = .none) ∧ ∀ plane < 2, edgePort die ((die + 1) % 4) plane = 48 + plane ∧
      edgePort die ((die + 3) % 4) plane = 50 + plane)

/-- R396, R397: of some lines none is in host memory, or a CXL port is up. -/
def HostThere (s : State) (lines : List Nat) : Prop :=
  (∀ x ∈ lines, isHostPa (128 * x) = false) ∨ s.mgmt.ready.getLsbD 32 = true ∨ s.mgmt.ready.getLsbD 33 = true

/-- R272, R357, R377, R379 to R381, R396: a request that waits at its port is injected for one token of its ASID, when what its context must have done
first is done, its planes, or its CXL port, are up and it passes no earlier request of its ASID that has been passed 16 times, names a line of its own,
or carries a release of its context; those it passes count one more. It comes to its destination's port after those that left before it on its path,
while no switch or plane there is down, and is performed after those of its source die to a line of its own that left before, a release after the
earlier requests of its context that cross a boundary with it, and a request to a handle table after those that came there before. That an acquire that
waits for another context holds back no request to its line is the model's choice (log entry 66). -/
def requestsCross : Prop :=
  ∀ (s : State) (r : Request), s.requests.find? (fun q => q.id == r.id) = some r →
    let tokens := fun (t : State) => SMap.getD (t.port r.src).buckets r.asid.toNat 0
    let waits := fun (q : Request) => SMap.get? s.fab.sent q.id = none
    let earlier := fun (q : Request) => q ∈ s.requests ∧ q.src = r.src ∧ q.asid = r.asid ∧ q.order < r.order ∧ waits q
    let passed := fun (t : State) (q : Request) => SMap.getD t.fab.passes q.id 0
    let linked := s.portGone r.src r.dst = true ∨
      s.wayUp r.plane (s.way (r.src / 64) (r.dst / 64)) = true ∧ s.wayUp r.answer (s.way (r.dst / 64) (r.src / 64)) = true
    let free := waits r ∧ r.ready = true ∧ linked ∧ HostThere s r.lines ∧
      ∀ q, earlier q → passed s q < 16 ∧ (∀ a ∈ q.lines, a ∉ r.lines) ∧ ¬ (q.rel = true ∧ q.who = r.who ∧ q.who ≠ none)
    let same := fun (t : State) => t.ctx = s.ctx ∧ t.mem = s.mem ∧ t.eng = s.eng ∧ t.groups = s.groups ∧ t.asids = s.asids
    (free → tokens s ≠ 0 → ∃ t, act (.inject r.id) s = .next t ∧ tokens t = tokens s - 1 ∧ same t ∧ (∀ p, p ≠ r.src → t.port p = s.port p) ∧
      SMap.get? t.fab.sent r.id = some { left := s.fab.left, way := s.way (r.src / 64) (r.dst / 64), arrived := false } ∧
      t.fab.left = s.fab.left + 1 ∧ (∀ q, earlier q → q.id ≠ r.id → passed t q = passed s q + 1)) ∧
    (¬ free ∨ tokens s = 0 → act (.inject r.id) s = .refused (.notEnabled "INJECT")) ∧
    (∀ f, SMap.get? s.fab.sent r.id = some f →
      let ahead := ∃ q ∈ s.requests, ∃ g, q.id ≠ r.id ∧ q.src = r.src ∧ q.dst = r.dst ∧ q.plane = r.plane ∧ SMap.get? s.fab.sent q.id = some g ∧
        g.arrived = false ∧ g.left < f.left ∧ g.way = f.way
      let up := s.pathUp 0 r.plane r.src r.dst f.way = true
      (f.arrived = false → ¬ ahead → up → ∃ t, act (.arrive r.id) s = .next t ∧ same t ∧ t.fl = s.fl ∧
        SMap.get? t.fab.sent r.id = some { f with arrived := true, came := s.fab.left } ∧ t.fab.left = s.fab.left + 1) ∧
      (f.arrived = true ∨ ahead ∨ ¬ up → act (.arrive r.id) s = .refused (.notEnabled "ARRIVE")) ∧
      (∀ (x : Choice) (t : State), s.requestOf x = some r → s.mergePair x = none → s.portGone r.src r.dst = false →
        let before := ∃ q ∈ s.requests, ∃ g, q.id ≠ r.id ∧ q.src / 64 = r.src / 64 ∧ (∃ a ∈ q.lines, a ∈ r.lines) ∧ q.waits = false ∧
          SMap.get? s.fab.sent q.id = some g ∧ g.left < f.left
        let late := r.rel = true ∧ r.who ≠ none ∧ ∃ q ∈ s.requests, q.id ≠ r.id ∧ q.who = r.who ∧ q.order < r.order ∧
          ∃ b ∈ wayBoundaries (s.way (q.src / 64) (q.dst / 64)), b ∈ wayBoundaries (s.way (r.src / 64) (r.dst / 64))
        let behind := r.table ≠ none ∧ ∃ q ∈ s.requests, ∃ g, q.id ≠ r.id ∧ q.table = r.table ∧ SMap.get? s.fab.sent q.id = some g ∧
          g.arrived = true ∧ g.came < f.came
        let back := s.pathUp 1 r.answer r.dst r.src (s.way (r.dst / 64) (r.src / 64)) = true
        (f.arrived = true → ¬ before → ¬ late → ¬ behind → HostThere s r.lines → back → s.carried t x = [] →
          ∃ u, overFabric s x (.next t) = .next u ∧ u.ctx = t.ctx ∧ u.mem = t.mem ∧ u.fl = t.fl ∧ u.eng = t.eng) ∧
        (f.arrived = false ∨ before ∨ late ∨ behind ∨ ¬ HostThere s r.lines ∨ ¬ back →
          overFabric s x (.next t) = .refused (.notEnabled "FABRIC"))))

/-- R357, R377 to R381, R384, R396: other traffic of the Armature, of engines, gangs, caches and slices, passes in the step that it serves: its ASID
has a token at its port, the requests of its ASID that wait there it may pass, none is ahead of it on its path or to its line, and its planes, switches
and lanes, and those of its answer, are up. What passes within one port, or to a die that is gone, waits for nothing. That a step takes one token for
each of its lines, of those that there are, and that slices and write-backs take none, is the model's choice (log entry 44). -/
def trafficCrosses : Prop :=
  ∀ (s t : State) (x : Choice), s.requestOf x = none → s.mergePair x = none →
    let passes := fun (y : Crossing) => y.src = y.dst ∨ s.portGone y.src y.dst = true ∨
      (∀ a, y.asid = some a → SMap.getD (s.port y.src).buckets a.toNat 0 ≠ 0) ∧
      (∀ q ∈ s.requests, q.src = y.src → SMap.get? s.fab.sent q.id = none → y.asid = some q.asid →
        SMap.getD s.fab.passes q.id 0 < 16 ∧ ∀ a ∈ q.lines, a ∉ y.lines) ∧
      (∀ q ∈ s.requests, ∀ g, SMap.get? s.fab.sent q.id = some g →
        ¬ (q.src = y.src ∧ q.dst = y.dst ∧ q.plane = y.plane ∧ g.arrived = false ∧ g.way = s.way (y.src / 64) (y.dst / 64)) ∧
        ¬ (q.src / 64 = y.src / 64 ∧ q.waits = false ∧ ∃ a ∈ q.lines, a ∈ y.lines)) ∧
      HostThere s y.lines ∧ s.pathUp 0 y.plane y.src y.dst (s.way (y.src / 64) (y.dst / 64)) = true ∧
      s.pathUp 1 y.answer y.dst y.src (s.way (y.dst / 64) (y.src / 64)) = true
    ((∀ y ∈ s.crossings x ++ s.carried t x, passes y) → ∃ u, overFabric s x (.next t) = .next u ∧ u.ctx = t.ctx ∧ u.mem = t.mem ∧ u.fl = t.fl ∧
      u.eng = t.eng ∧ u.groups = t.groups) ∧
    ((∃ y ∈ s.crossings x ++ s.carried t x, ¬ passes y) → overFabric s x (.next t) = .refused (.notEnabled "FABRIC"))

/-- Switches, lanes, links, ways of requests. -/
def Obligations.SwitchesLanesAndLinks : Prop := switchesSleep ∧ lanesSleep ∧ linksFail ∧ planesOfKinds ∧ pathsTaken ∧ requestsCross ∧ trafficCrosses

/-- The loss of a die. -/
def Obligations.DieLoss : Prop := diesLost ∧ loadsReplay

/-! ### Neriup's commands, errors, the host, power, time and boot (R14, R374, R388, R390 to R404) -/

/-- R397, R402: a command of Neriup is not taken before MGMT is set; one that is not acceptable is refused with an error code, of which the
spec gives no value (log entry 71), and has no effect; another has its effect and is answered. -/
def ByNeriup (i : Instr) (s : State) (name : String) (ok : Prop) (r : Reply) (P : State → Prop) : Prop :=
  (s.mgmt.ready.getLsbD 35 = false → NotYet i s name) ∧
  (s.mgmt.ready.getLsbD 35 = true → ¬ ok → ∃ code, exec i s = .next { s with mgmt := { s.mgmt with replies := s.mgmt.replies ++ [.refused code] } }) ∧
  (s.mgmt.ready.getLsbD 35 = true → ok → ∃ t, exec i s = .next t ∧ t.mgmt.replies = s.mgmt.replies ++ [r] ∧ P t)

/-- R377, R378, R397: the planes from a die to the home of a byte are up, and back; for a byte of the host's own memory a CXL port is, in state t. -/
def HomeReached (s t : State) (die pa : Nat) : Prop :=
  (∀ h, s.homeDie pa = some h → s.wayUp 1 (s.way die h) = true ∧ s.wayUp 0 (s.way h die) = true) ∧
    (s.homeDie pa = none → t.mgmt.ready.getLsbD 32 = true ∨ t.mgmt.ready.getLsbD 33 = true)

/-- R388: what a die reset does before the drain: the die is quiesced, which a DIE record of event 1 says, and what it holds of other dies' memory
goes back there, as far as the planes reach: the lines of contexts, keeping their state, and the copies. The deadline is 100 µs where the command gives
none. A reset of a die that drains already sets a new deadline, and keeps the commands of its first one (log entry 68, and for how a command says that
it gives no deadline). -/
structure Quiesces (s t : State) (die deadline : Nat) : Prop where
  ready : ReadyBits s t (fun k => 8 * die ≤ k ∧ k < 8 * die + 8 ∨ k = 32 ∧ die = 0 ∨ k = 33 ∧ die = 2) false
  drain : (t.die die).drain = some ((s.timeAt die).toNat + (if deadline = 0 then 100000 else deadline), ((s.die die).drain.map (·.2)).getD s.sched.seq) ∧ (t.die die).lost = (s.die die).lost
  others : ∀ d, d ≠ die → t.die d = s.die d
  record : ∃ post, t.mgmt.errCopies = s.mgmt.errCopies ++
    [[BitVec.ofNat 64 (5 + 1 * 2 ^ 8 + die * 2 ^ 16), 0, 0, 0, 0, 0, s.timeAt die, 0]] ++ post
  copies : SMap.risingFrom 0 s.mem.copies = true → ∀ k, k / 2 ^ 45 = die → HomeReached s t die (128 * (k % 2 ^ 45)) → SMap.get? t.mem.copies k = none
  lines : SMap.risingFrom 0 s.ctx.lines = true → s.fl.reds = [] → (∀ key l, SMap.get? s.ctx.lines key = some l → l.cancelled = false) → ∀ key l, SMap.get? s.ctx.lines key = some l → l.live = true → l.place.ownerDie = some die →
    s.homeDie (128 * key) ≠ some die → HomeReached s t die (128 * key) → s.unacked key = false →
    ∃ l', SMap.get? t.ctx.lines key = some l' ∧ l'.place = .memory ∧
      (l.c.st.state = .running ∨ l.c.st.state = .ready → l'.c.st.state = .ready ∧ l'.c.g = l.c.g ∧ l'.c.p = l.c.p ∧ l'.c.pc = l.c.pc)

/-- R388, R402: a die reset names a present die and a deadline from 1 µs to 10 ms, or none, and quiesces a live one. Of a die that is lost already the spec says
nothing: it stays as it is, and DIE records of event 1 and 2 say that it is quiesced and fenced (the model's choice, log entry 68). -/
def dieResets : Prop :=
  ∀ (s : State) (die deadline : Nat),
    ByNeriup (.dieReset die deadline) s "DIE_RESET"
      (die < 4 ∧ (s.die die).present = true ∧ (deadline = 0 ∨ 1000 ≤ deadline ∧ deadline ≤ 10000000)) .ok fun t =>
        ((s.die die).lost = false → Quiesces s t die deadline) ∧
        ((s.die die).lost = true → (∀ d, t.die d = s.die d) ∧
          ReadyBits s t (fun k => 8 * die ≤ k ∧ k < 8 * die + 8 ∨ k = 32 ∧ die = 0 ∨ k = 33 ∧ die = 2) false ∧
          t.mgmt.errCopies = s.mgmt.errCopies ++ [1, 2].map fun ev =>
            [BitVec.ofNat 64 (5 + ev * 2 ^ 8 + die * 2 ^ 16), 0, 0, 0, 0, 0, s.timeAt die, 0])

/-- R14, R388, R394, R398, R399: a reset die rejoins when READY bits of it are set again, which its firmware does once the package has booted, ISSUE
once the bring-up parameters are set, which are fixed from then on: its counter has loaded the latest time of the four dies, its planes are
no longer closed, LINKS of the other dies says so, its error counters are 0, a DIE record of event 4 is written, and after a loss by link-down the
replace-requested bit is set. That the error counters start at 0 and when LINKS is set again is the model's choice (log entry 57). -/
def diesRejoin : Prop :=
  ∀ (s : State) (die : Nat) (ready : BitVec 7), die < 4 →
    let i := Instr.dieRejoin die ready
    let booted := s.mgmt.bootStage = 2 ∧ (ready.getLsbD 2 = true → s.mgmt.based = true)
    ((s.die die).present = true → (s.die die).lost = true → ready ≠ 0 → booted → ∃ t, exec i s = .next t ∧ t.live die = true ∧
      (t.die die).drain = none ∧ (t.mgmt.fixed = true ↔ s.mgmt.fixed = true ∨ ready.getLsbD 2 = true) ∧
      (∀ d, d ≠ die → t.die d = s.die d ∧ t.timeAt d = s.timeAt d) ∧
      (∀ d < 4, (s.timeAt d).toNat ≤ (t.timeAt die).toNat) ∧ (∃ d < 4, t.timeAt die = s.timeAt d) ∧
      ReadyBits s t (fun k => (∃ n < 7, k = 8 * die + n ∧ ready.getLsbD n = true) ∨ k = 63 ∧ (s.die die).linkLost = true ∨
        ∃ e < 4, e ≠ die ∧ k = 8 * e + 6 ∧ s.live e = true ∧ s.isReady e 0 = true ∧ t.linksUp e = true) true ∧
      (∀ st < 8, SMap.getD t.mgmt.ecc (8 * die + st) 0 = 0) ∧
      (∀ p, p / 2 = die ∨ p / 2 = (die + 3) % 4 → p ∉ t.fab.planesDown) ∧
      t.mgmt.errCopies = s.mgmt.errCopies ++ [[BitVec.ofNat 64 (5 + 4 * 2 ^ 8 + die * 2 ^ 16), 0, 0, 0, 0, 0, t.timeAt die, 0]]) ∧
    ((s.die die).present = false ∨ (s.die die).lost = false ∨ ready = 0 ∨ ¬ booted → NotYet i s "DIE_REJOIN")

/-- R386, R387, R394, R402: a cluster that is mapped out is from then on as one of a lost die; an HBM channel is retired. Each sets the
replace-requested bit. That a die has 64 channels is the model's choice (log entry 70). What a cluster that is mapped out loses is the model's choice
(log entry 49), as is that nothing in memory is lost with a channel (log entry 57). -/
def degrades : Prop :=
  ∀ (s : State) (c die ch : Nat),
    ByNeriup (.mapOutCluster c) s "MAP_OUT_CLUSTER" (c < 192 ∧ (s.die (c / 48)).present = true) .ok (fun t =>
      c ∈ t.mgmt.mapped ∧ t.clusterGone c = true ∧ (c ∉ s.mgmt.mapped → SMap.risingFrom 0 s.ctx.lines = true →
        ReadyBits s t (· = 63) true ∧ t.mgmt.mapped = s.mgmt.mapped ++ [c] ∧ t.fab = s.fab ∧
        (∀ key l, SMap.get? t.ctx.lines key = some l → l.place.cluster? ≠ some c) ∧
        (∀ key l, SMap.get? s.ctx.lines key = some l → l.place.cluster? ≠ some c → (SMap.get? t.ctx.lines key).isSome = true) ∧
        (∀ key, key / 4096 = c → (t.entry key).live = false ∧ (t.entry key).gen = (s.entry key).gen) ∧
        (∀ q < 3, t.queue c q = [] ∧ t.runs c q = []) ∧ ∀ gk, gk / 256 = c → t.group gk = Group.reset)) ∧
    ByNeriup (.retireHbmChannel die ch) s "RETIRE_HBM_CHANNEL" (die < 4 ∧ (s.die die).present = true ∧ ch < 64) .ok (fun t =>
      die * 2 ^ 16 + ch ∈ t.mgmt.retired ∧ (∀ x ∈ s.mgmt.retired, x ∈ t.mgmt.retired) ∧ ReadyBits s t (· = 63) true ∧ t.mem = s.mem ∧ t.ctx = s.ctx)

/-- A step that changes the management plane alone. -/
def OnlyMgmt (s t : State) (m : Mgmt) : Prop := t = { s with mgmt := m }

/-- R374, R390, R392, R398, R400, R402 to R404: what Neriup answers to the commands that read, and the effect of those that set the power limit,
enrol or withdraw a key pair: an object signed under the root keys with both schemes is taken, and at most 8 pairs are enrolled. A report is signed under the
device identity. What enrolling a ninth pair or withdrawing an unknown one does is the model's choice (log entries 58, 71), and so is that a new LIMIT restarts the 1 ms of a
quiet POWER only where it ends the quiet (log entry 72). -/
def commandsAnswer : Prop :=
  ∀ (s : State) (asid : BitVec 12) (w : BitVec 12) (pair : KeyPair) (signed : Signed) (nonce : BitVec 256),
    let m := s.mgmt
    let x := s.asidRegs asid
    let good := signed.pair = m.rootKeys ∧ signed.rsaOk = true ∧ signed.slhOk = true
    let reads := fun (i : Instr) (name : String) (r : Reply) =>
      ByNeriup i s name True r fun t => OnlyMgmt s t { m with replies := m.replies ++ [r] }
    let sets := fun (i : Instr) (name : String) (ok : Prop) (m' : Mgmt) =>
      ByNeriup i s name ok .ok fun t => OnlyMgmt s t { m' with replies := m.replies ++ [.ok] }
    reads (.readCounters asid) "READ_COUNTERS" (.counters m.ecc ((List.range 4).map fun d =>
        ((s.rowCache d).hits, (s.rowCache d).refs, (s.rowCache d).rows.map fun r => (r.pa, r.counter))) x.undeliv x.refused) ∧
    reads .readErrorRecords "READ_ERROR_RECORDS" (.records m.errCopies) ∧
    reads .readBringupParameters "READ_BRINGUP_PARAMETERS" (.parameters m.gtBase m.ptBase m.errBase m.subBase m.areas) ∧
    reads (.attest nonce) "ATTEST" (.report nonce m.images m.keys m.secver m.ready (m.signReport nonce)) ∧ (m.signReport nonce).pair = m.device ∧
    sets (.setPowerLimit w) "SET_POWER_LIMIT" (1200 ≤ w.toNat ∧ w.toNat ≤ 2400) { m with
      limit := w
      calm := if 100 * m.power.toNat < 95 * w.toNat then some (m.calm.getD s.sched.cycle) else none } ∧
    (pair ∉ m.keys → sets (.enrolKeyPair pair signed) "ENROL_KEY_PAIR" (good ∧ m.keys.length < 8) { m with keys := m.keys ++ [pair] }) ∧
    (pair ∈ m.keys → sets (.enrolKeyPair pair signed) "ENROL_KEY_PAIR" good m) ∧
    sets (.withdrawKeyPair pair signed) "WITHDRAW_KEY_PAIR" (good ∧ pair ∈ m.keys) { m with keys := m.keys.filter (· ≠ pair) }

/-- R390, R391, R393: a corrected error counts for its structure, saturating, and writes no record; a location corrected eight times is reported once by
a MEMORY record of cause 5; scrubbing that finds uncorrectable data poisons its unit and writes one of cause 2. The
locations of HBM and of the slices are addresses; the spec gives no code for the structure of a queue (log entry 67). -/
def errorsCount : Prop :=
  ∀ (s : State) (die st loc pa d : Nat),
    let count := fun (t : State) => SMap.getD t.mgmt.ecc (die * 8 + st) 0
    let here := fun (t : State) => SMap.getD t.mgmt.corrected ((die * 8 + st) * 2 ^ 64 + loc) 0
    let ok := die < 4 ∧ s.live die = true ∧ st < 7 ∧ loc < 2 ^ 64
    let record := fun (cause home a str w : Nat) => [BitVec.ofNat 64 (1 + cause * 2 ^ 8 + home * 2 ^ 28), 0, 0, 0,
      BitVec.ofNat 64 (a / 64 * 64), BitVec.ofNat 64 str, s.timeAt w, 0]
    (ok → ∃ t, exec (.correctedError die st loc) s = .next t ∧ OnlyMgmt s t { s.mgmt with ecc := t.mgmt.ecc, corrected := t.mgmt.corrected } ∧
      count t = min (2 ^ 32 - 1) (count s + 1) ∧ here t = (if here s < 8 then here s + 1 else here s)) ∧
    (¬ ok → NotYet (.correctedError die st loc) s "CORRECTED_ERROR") ∧
    (here s = 8 → ∃ t, exec (.recurringCorrectedError die st loc) s = .next t ∧ here t = 9 ∧ count t = count s ∧
      ∃ code < 16, (st < 6 → code = st) ∧
        t.mgmt.errCopies = s.mgmt.errCopies ++ [if st < 2 then record 5 ((s.homeDie loc).getD 0) loc code die else record 5 0 0 code die]) ∧
    (here s ≠ 8 → NotYet (.recurringCorrectedError die st loc) s "RECURRING_CORRECTED_ERROR") ∧
    (s.homeDie pa = some d → s.live d = true → ∃ t, exec (.scrubUncorrectable pa) s = .next t ∧
      t.mgmt.errCopies = s.mgmt.errCopies ++ [record 2 d pa 0 d] ∧
      (s.mgmt.based = false → t.poisoned [pa] = true ∧ (∀ u, u ≠ pa / 64 → t.unitBad u = s.unitBad u) ∧ t.ctx = s.ctx)) ∧
    (s.homeDie pa = none → NotYet (.scrubUncorrectable pa) s "SCRUB_UNCORRECTABLE")

/-- R391, R396: a host read of device memory returns the byte that the package sees, with the poison indication where the data is bad; a host write of
bytes of one 64-byte unit is performed at the home slice, and one of the whole unit makes it good. There is no access to the host's own memory, nor
while no CXL port is up; a write in a submission window is a submission and none of these. A host agent writes its own memory itself. That an access
names bytes of one unit is the model's choice (log entry 62). A write to the group table waits while a bank that it reaches is in the middle of an
action (R313, R319). -/
def hostReaches : Prop :=
  ∀ (s : State) (pa : Nat) (l : List Byte),
    let up := pa < 2 ^ 51 ∧ (s.mgmt.ready.getLsbD 32 = true ∨ s.mgmt.ready.getLsbD 33 = true)
    let window := s.mgmt.based = true ∧ s.mgmt.subBase ≤ pa ∧ pa < s.mgmt.subBase + 4096 * 4096
    let open_ := s.tableHeld (rangeFrom pa l.length) = true
    let one := pa % 64 + l.length ≤ 64 ∧ ¬ window ∧ ¬ open_
    let own := 2 ^ 51 ≤ pa ∧ pa < 2 ^ 52 ∧ pa % 128 + l.length ≤ 128 ∧ ¬ open_
    let write := Instr.hostHdmAccess pa (some l)
    let written := fun (t : State) => (∀ k < l.length, s.lineAt (pa + k) = none) → Memory.wf s.mem.bytes = true → noPoolBytes s (rangeFrom pa l.length) →
      (∀ k < l.length, l[k]? = some (t.readByte (pa + k))) ∧ (∀ a, a < pa ∨ pa + l.length ≤ a → t.readByte a = s.readByte a) ∧
      t.ctx = s.ctx ∧ t.mgmt = s.mgmt ∧ (l.length = 64 → pa % 64 = 0 → t.poisoned [pa] = false)
    (up → ∃ t, exec (.hostHdmAccess pa none) s = .next t ∧
      OnlyMgmt s t { s.mgmt with replies := s.mgmt.replies ++ [.hostByte (s.readByte pa) (s.homeGone pa || s.poisoned [pa])] }) ∧
    (up → one → s.homeGone pa = false → ∃ t, exec write s = .next t ∧ written t) ∧
    (own → ∃ t, act (.hostWrite pa l) s = .next t ∧ written t) ∧
    (¬ own → act (.hostWrite pa l) s = .refused (.notEnabled "HOST_WRITE")) ∧
    (up → one → s.homeGone pa = true → exec write s = .next s) ∧
    (up → ¬ one → NotYet write s "HOST_HDM_ACCESS") ∧
    (¬ up → NotYet (.hostHdmAccess pa none) s "HOST_HDM_ACCESS" ∧ NotYet write s "HOST_HDM_ACCESS")

/-- R404: the alarm rises, and is counted, when the power exceeds LIMIT, and clears once POWER has been below 95% of it for 1 ms (2,000,000 fabric cycles):
it does not clear before, and no cycle passes while it may. POWER is a reading; from when the 1 ms counts where the alarm rises meanwhile is the model's
choice (log entry 72). -/
def alarmMoves : Prop :=
  ∀ (s : State) (power : BitVec 16),
    let m := s.mgmt
    let above := m.alarm = false ∧ m.limit.toNat < power.toNat
    let calm := m.alarm = true ∧ ∃ t, m.calm = some t ∧ t + 2000000 ≤ s.sched.cycle
    let clears := calm ∧ power = m.power
    (above → exec (.powerAlarmRise power) s = .next { s with mgmt := { m with alarm := true, rises := m.rises + 1 } }) ∧
    (¬ above → NotYet (.powerAlarmRise power) s "POWER_ALARM_RISE") ∧
    (clears → exec (.powerAlarmClear power) s = .next { s with mgmt := { m with alarm := false } }) ∧
    (¬ clears → NotYet (.powerAlarmClear power) s "POWER_ALARM_CLEAR") ∧
    act (.powerReading power) s = .next { s with mgmt := { m with
      power := power
      calm := if 100 * power.toNat < 95 * m.limit.toNat then some (m.calm.getD s.sched.cycle) else none } } ∧
    (calm → act .idle s = .refused (.notEnabled "CYCLE"))

/-- R9, R14: a tick increases the counter of every live die by exactly one, and nothing else; it comes every second fabric cycle, and none passes while it is
due. -/
def timeTicks : Prop :=
  ∀ s : State,
    let due := s.sched.tickAt ≤ s.sched.cycle
    (due → ∃ t, exec .timeBaseTick s = .next t ∧ t = { s with time := t.time, sched := { s.sched with tickAt := s.sched.cycle + 2 } } ∧
      (∀ d, s.live d = true → t.timeAt d = s.timeAt d + 1) ∧ ∀ d, s.live d = false → t.timeAt d = s.timeAt d) ∧
    (¬ due → NotYet .timeBaseTick s "TIME_BASE_TICK") ∧ (due → act .idle s = .refused (.notEnabled "CYCLE"))

/-- R83 to R96: an object passes the first check of loading: the magic and the version are as the spec gives them, every reserved byte is zero, each table
lies inside the object, and so do those of the sections of tiles and of groups, whose entries are legal. -/
def ObjectSound (i : Image) : Prop :=
  let tables := [i.profiles, i.sections, i.symbols, i.relocations]
  0x80 ≤ i.size ∧ i.field 0 4 = 0x004F4650 ∧ i.field 4 2 = 1 ∧ (∀ x ∈ tables, x.off + x.count * x.entry ≤ i.size) ∧
  (∀ a, 6 ≤ a ∧ a < 8 ∨ 0x3C ≤ a ∧ a < 0x40 ∨ 0x48 ≤ a ∧ a < 0x80 → i.byteAt a = 0) ∧
  (∀ k < i.profiles.count, ∀ b < 4, i.byteAt (i.profiles.off + k * 8 + 4 + b) = 0) ∧
  (∀ k < i.sections.count, let a := i.sections.off + k * 32
    (∀ b < 4, i.byteAt (a + 4 + b) = 0) ∧ (∀ b < 8, i.byteAt (a + 24 + b) = 0) ∧ i.sectionOk a = true) ∧
  ∀ k < i.symbols.count, ∀ b < 8, i.byteAt (i.symbols.off + k * 32 + 24 + b) = 0

/-- R95, R96: an object passes when it is sound, its signature block names a pair that is trusted, both its signatures verify and its SECVER is at
least SECVER_FUSE; otherwise its status is that of the first check that fails. Whether a signature verifies is an input (log entry 69). -/
def StatusUnder (trusted : KeyPair → Prop) (s : State) (i : Image) (n : Nat) : Prop :=
  let good := trusted i.signed.pair ∧ i.signed.rsaOk = true ∧ i.signed.slhOk = true
  (¬ ObjectSound i → n = 1) ∧ (ObjectSound i → ¬ good → n = 2) ∧
  (ObjectSound i → good → n = if i.field 8 4 < s.mgmt.secver.toNat then 3 else 0)

/-- R399: a firmware image is signed under the root keys. -/
def ImageStatus (s : State) (i : Image) (n : Nat) : Prop := StatusUnder (· = s.mgmt.rootKeys) s i n

/-- R96, R400: an object that is loaded later may be signed under the root keys or under any pair that is enrolled then. -/
def objectsCheck : Prop :=
  ∀ (s : State) (i : Image), StatusUnder (fun p => p = s.mgmt.rootKeys ∨ p ∈ s.mgmt.keys) s i (loadStatus s.mgmt i)

/-- R397 to R399: each boot stage verifies the next, in order, and brings up its functions; one whose check fails brings up nothing, and Neriup
reports the stage and the status. The second sets the bring-up parameters, which are fixed once an ISSUE bit has been set, and maps out the clusters
and retires the channels that its die cannot use; the CXL ports come up with the first or after it. That a stage that fails ends the boot is the
model's choice (log entry 58). -/
def boots : Prop :=
  ∀ (s : State) (img : Image) (imgs : List Image) (cxl : BitVec 2) (die : Nat) (ready : BitVec 7) (params : BringUp) (out : MapOut) (duset : Bool)
    (n : Nat),
    let m := s.mgmt
    let stage0 := Instr.bootStage0 img
    let stage1 := Instr.bootStage1 imgs cxl
    let stage2 := Instr.bootStage2 die ready ⟨params, out⟩ duset
    let fails := fun (k : Nat) => { s with mgmt := { m with bootStage := 3, replies := m.replies ++ [.bootFailed k n] } }
    let live := ((List.range 4).filter s.live).length
    let usable := s.live die = true ∧ (s.die die).drain = none ∧ (∀ c ∈ out.clusters, c < 192 ∧ c / 48 = die) ∧ ∀ ch ∈ out.channels, ch < 64
    let ports := fun (t : State) =>
      ReadyBits s t (fun k => k = 32 ∧ cxl.getLsbD 0 = true ∧ s.live 0 = true ∨ k = 33 ∧ cxl.getLsbD 1 = true ∧ s.live 2 = true) true
    let sets := fun (k : Nat) => ready.getLsbD k = true ∧ (k ≠ 6 ∨ s.linksUp die = true)
    (m.bootStage = 0 → ImageStatus s img n → n = 0 → ∃ t, exec stage0 s = .next t ∧ t.mgmt.bootStage = 1 ∧ t.mgmt.images = m.images ++ [img.digest] ∧
      ReadyBits s t (· = 35) true) ∧
    (m.bootStage = 0 → ImageStatus s img n → n ≠ 0 → exec stage0 s = .next (fails 0)) ∧
    (m.bootStage ≠ 0 → NotYet stage0 s "BOOT_STAGE_0") ∧
    (m.bootStage = 1 → imgs.length = live → (∀ i ∈ imgs, ImageStatus s i 0) → ∃ t, exec stage1 s = .next t ∧ t.mgmt.bootStage = 2 ∧
      t.mgmt.images = m.images ++ imgs.map (·.digest) ∧ ports t) ∧
    (m.bootStage = 2 → imgs = [] → ∃ t, exec stage1 s = .next t ∧ t.mgmt.bootStage = 2 ∧ t.mgmt.images = m.images ∧ ports t) ∧
    (∀ pre i post, m.bootStage = 1 → imgs.length = live → imgs = pre ++ i :: post → (∀ j ∈ pre, ImageStatus s j 0) → ImageStatus s i n → n ≠ 0 →
      exec stage1 s = .next (fails 1)) ∧
    (¬ (m.bootStage = 1 ∧ imgs.length = live) → ¬ (m.bootStage = 2 ∧ imgs = []) → NotYet stage1 s "BOOT_STAGE_1") ∧
    (m.bootStage = 2 → die < 4 → usable → ∃ t, exec stage2 s = .next t ∧
      (∀ k < 7, t.mgmt.ready.getLsbD (8 * die + k) = true ↔ sets k ∨ m.ready.getLsbD (8 * die + k) = true) ∧
      (∀ d < 4, d ≠ die → ∀ k < 8, t.mgmt.ready.getLsbD (8 * d + k) = m.ready.getLsbD (8 * d + k)) ∧
      (t.mgmt.ready.getLsbD 34 = true ↔ m.ready.getLsbD 34 = true ∨ duset = true ∧ ∀ d < 4, s.live d = true → ∀ k < 7, t.mgmt.ready.getLsbD (8 * d + k) = true) ∧
      (∀ c ∈ out.clusters, c ∈ t.mgmt.mapped) ∧ (∀ ch ∈ out.channels, die * 2 ^ 16 + ch ∈ t.mgmt.retired) ∧
      (∀ c, c ∈ t.mgmt.mapped ↔ c ∈ m.mapped ∨ c ∈ out.clusters) ∧
      (m.fixed = true → t.mgmt.based = m.based ∧ t.mgmt.fixed = true ∧ t.mgmt.gtBase = m.gtBase ∧ t.mgmt.ptBase = m.ptBase ∧
        t.mgmt.errBase = m.errBase ∧ t.mgmt.subBase = m.subBase ∧ t.mgmt.areas = m.areas) ∧
      (m.fixed = false → t.mgmt.based = true ∧ t.mgmt.fixed = ready.getLsbD 2 ∧ t.mgmt.gtBase = params.gtBase ∧ t.mgmt.ptBase = params.ptBase ∧
        t.mgmt.errBase = params.errBase ∧ t.mgmt.subBase = params.subBase ∧ t.mgmt.areas = params.areas)) ∧
    (¬ (m.bootStage = 2 ∧ die < 4 ∧ usable) → NotYet stage2 s "BOOT_STAGE_2")

/-- R14, R228, R256, R394, R397, R400, R401, R404: a cold reset leaves what is fused, enrolled, mapped out or retired, and the host's own memory;
everything else is as after reset. The replace-requested bit is then set where one of its conditions holds. What it keeps beside what the rules name
is the model's choice (log entry 56). -/
def coldResets : Prop :=
  ∀ s : State, ∃ t, exec .coldReset s = .next t ∧
    let bad := s.mgmt.mapped ≠ [] ∨ s.mgmt.retired ≠ [] ∨ ∃ x ∈ s.fab.lanes, x.2.retired = true
    (∀ d, t.timeAt d = 0) ∧ t.ctx = State.reset.ctx ∧ t.fl = State.reset.fl ∧ t.eng = State.reset.eng ∧ t.groups = [] ∧ t.launch = State.reset.launch ∧
    t.asids = State.reset.asids ∧ t.mem.copies = [] ∧ t.mem.poison = [] ∧
    t.mgmt = { State.reset.mgmt with
      secver := s.mgmt.secver, keys := s.mgmt.keys, rootKeys := s.mgmt.rootKeys, device := s.mgmt.device, mapped := s.mgmt.mapped, retired := s.mgmt.retired, ready := t.mgmt.ready } ∧
    (t.mgmt.ready.getLsbD 63 = true ↔ bad) ∧ (∀ k < 63, t.mgmt.ready.getLsbD k = false) ∧
    (∀ d < 4, (t.die d).present = (s.die d).present ∧ (t.die d).lost = !(s.die d).present) ∧
    (∀ ln, SMap.risingFrom 0 s.fab.lanes = true → (t.fabLane ln).retired = (s.fabLane ln).retired) ∧
    (Memory.wf s.mem.bytes = true → ∀ a, t.readByte a = if 2 ^ 51 ≤ a then memByte s.mem.bytes a else 0)

/-- A commanded reset, a rejoin, and what degrades. -/
def Obligations.ResetsAndDegradation : Prop := dieResets ∧ diesRejoin ∧ degrades

/-- Neriup's other commands. -/
def Obligations.NeriupAnswers : Prop := commandsAnswer

/-- Errors, the host's accesses, the alarm and time. -/
def Obligations.ErrorsHostPowerAndTime : Prop := errorsCount ∧ hostReaches ∧ alarmMoves ∧ timeTicks

/-- Boot and cold reset. -/
def Obligations.BootAndColdReset : Prop := boots ∧ objectsCheck ∧ coldResets

/-! ### What every step keeps, and what reset leaves -/

/-- A table of the state has its keys strictly rising, so that no key is listed twice. -/
def Rising {α : Type} (m : SMap α) : Prop := SMap.risingFrom 0 m = true

/-- The tables of a state by which other statements look things up have their keys rising: context lines, lists, limits, send buffers, queues,
commands, tiles with their elements, lanes, copies, launches and members. -/
structure Ordered (s : State) : Prop where
  lines : Rising s.ctx.lines
  lists : Rising s.ctx.run
  limits : Rising s.ctx.limits
  buffers : Rising s.fl.sends
  queues : Rising s.eng.queues
  commands : Rising s.eng.running
  tiles : Rising s.eng.tiles
  elements : (∀ x ∈ s.eng.tiles, Rising x.2.data) ∧ ∀ x ∈ s.eng.held, Rising x.tile.data
  gangs : Rising s.eng.lanes
  copies : Rising s.mem.copies
  launches : Rising s.launch.table
  groups : Rising s.groups
  members : ∀ x ∈ s.groups, Rising x.2.members
  links : Rising s.fab.lanes

/-- Every step keeps the state sound: memory stays in its one canonical form, addresses strictly rising and no entry equal to what an unlisted
address reads as, and an absent die stays lost (R3, R246, R385). -/
def Obligations.StepKeepsSound : Prop := ∀ s t : State, step s = .next t → s.sound → t.sound

/-- Every step keeps the tables of the state ordered; statements that need a key to be listed once assume it. -/
def Obligations.StepKeepsOrdered : Prop := ∀ s t : State, step s = .next t → Ordered s → Ordered t

/-- R1, R14, R226 to R228, R268, R313, R349, R356, R397, R401, R404: what reset leaves: a sound and ordered state of four live dies whose counters are 0; no context, message,
request, tile, group, command or launch; nothing ready; LIMIT at 2,400 W, and no alarm; and every ASID with BASE alone, no handler, no trap ring, no quota and a
weight of 1. That SECVER_FUSE is 0 is the model's choice (log entry 8), and that memory reads 0 is another (log entry 2); so is the full package, of four live
dies (log entry 4). -/
def Obligations.ResetState : Prop :=
  State.reset.sound ∧ Ordered State.reset ∧ (∀ d < 4, State.reset.live d = true ∧ State.reset.timeAt d = 0) ∧
  State.reset.ctx.lines = [] ∧ State.reset.fl.sends = [] ∧ State.reset.eng.tiles = [] ∧ State.reset.eng.queues = [] ∧ State.reset.launch.table = [] ∧
  State.reset.mgmt.ready = 0 ∧ State.reset.mgmt.limit = 2400 ∧ State.reset.mgmt.power = 0 ∧ State.reset.mgmt.alarm = false ∧
  State.reset.mgmt.rises = 0 ∧ State.reset.mgmt.secver = 0 ∧ (∀ gk, State.reset.group gk = Group.reset) ∧
  (∀ asid, let r := State.reset.asidRegs asid
    r.profile = 1 ∧ r.handler = 0 ∧ r.undeliv = 0 ∧ r.refused = 0 ∧ r.ringBase = 0 ∧ r.ringSize = 0 ∧ r.ringHead = 0 ∧ r.ringTail = 0 ∧
      r.ringOver = 0 ∧ r.quota = 0 ∧ r.weight = 1) ∧
  ∀ a, State.reset.readByte a = 0
end

