-- ==== Sys2Proof/Laws/State.lean ====
section
/-! SUPPORT. What each update of one field of State leaves in every field: one lemma per field per update, each by rfl. -/

set_option Elab.async false

namespace Sys2Proof.Machine

/-! ### State.setAsid -/

@[simp] theorem State.setAsid_sched (s : State) (a : BitVec 12) (r : AsidRegs) : (s.setAsid a r).sched = s.sched := rfl
@[simp] theorem State.setAsid_ctx (s : State) (a : BitVec 12) (r : AsidRegs) : (s.setAsid a r).ctx = s.ctx := rfl
@[simp] theorem State.setAsid_mem (s : State) (a : BitVec 12) (r : AsidRegs) : (s.setAsid a r).mem = s.mem := rfl
@[simp] theorem State.setAsid_fl (s : State) (a : BitVec 12) (r : AsidRegs) : (s.setAsid a r).fl = s.fl := rfl
@[simp] theorem State.setAsid_eng (s : State) (a : BitVec 12) (r : AsidRegs) : (s.setAsid a r).eng = s.eng := rfl
@[simp] theorem State.setAsid_groups (s : State) (a : BitVec 12) (r : AsidRegs) : (s.setAsid a r).groups = s.groups := rfl
@[simp] theorem State.setAsid_launch (s : State) (a : BitVec 12) (r : AsidRegs) : (s.setAsid a r).launch = s.launch := rfl
@[simp] theorem State.setAsid_fab (s : State) (a : BitVec 12) (r : AsidRegs) : (s.setAsid a r).fab = s.fab := rfl
@[simp] theorem State.setAsid_mgmt (s : State) (a : BitVec 12) (r : AsidRegs) : (s.setAsid a r).mgmt = s.mgmt := rfl
@[simp] theorem State.setAsid_time (s : State) (a : BitVec 12) (r : AsidRegs) : (s.setAsid a r).time = s.time := rfl
@[simp] theorem State.setAsid_asids (s : State) (a : BitVec 12) (r : AsidRegs) : (s.setAsid a r).asids = SMap.set s.asids a.toNat r := rfl
@[simp] theorem State.setAsid_chains (s : State) (a : BitVec 12) (r : AsidRegs) : (s.setAsid a r).chains = s.chains := rfl

/-! ### State.setLine -/

@[simp] theorem State.setLine_sched (s : State) (key : Nat) (l : Line) : (s.setLine key l).sched = s.sched := rfl
@[simp] theorem State.setLine_mem (s : State) (key : Nat) (l : Line) : (s.setLine key l).mem = s.mem := rfl
@[simp] theorem State.setLine_fl (s : State) (key : Nat) (l : Line) : (s.setLine key l).fl = s.fl := rfl
@[simp] theorem State.setLine_eng (s : State) (key : Nat) (l : Line) : (s.setLine key l).eng = s.eng := rfl
@[simp] theorem State.setLine_groups (s : State) (key : Nat) (l : Line) : (s.setLine key l).groups = s.groups := rfl
@[simp] theorem State.setLine_launch (s : State) (key : Nat) (l : Line) : (s.setLine key l).launch = s.launch := rfl
@[simp] theorem State.setLine_asids (s : State) (key : Nat) (l : Line) : (s.setLine key l).asids = s.asids := rfl
@[simp] theorem State.setLine_fab (s : State) (key : Nat) (l : Line) : (s.setLine key l).fab = s.fab := rfl
@[simp] theorem State.setLine_mgmt (s : State) (key : Nat) (l : Line) : (s.setLine key l).mgmt = s.mgmt := rfl
@[simp] theorem State.setLine_time (s : State) (key : Nat) (l : Line) : (s.setLine key l).time = s.time := rfl
@[simp] theorem State.setLine_lines (s : State) (key : Nat) (l : Line) : (s.setLine key l).ctx.lines = SMap.set s.ctx.lines key l := rfl
@[simp] theorem State.setLine_resid (s : State) (key : Nat) (l : Line) : (s.setLine key l).ctx.resid = s.ctx.resid := rfl
@[simp] theorem State.setLine_slots (s : State) (key : Nat) (l : Line) : (s.setLine key l).ctx.slots = s.ctx.slots := rfl
@[simp] theorem State.setLine_run (s : State) (key : Nat) (l : Line) : (s.setLine key l).ctx.run = s.ctx.run := rfl
@[simp] theorem State.setLine_limits (s : State) (key : Nat) (l : Line) : (s.setLine key l).ctx.limits = s.ctx.limits := rfl
@[simp] theorem State.setLine_spawnWait (s : State) (key : Nat) (l : Line) : (s.setLine key l).ctx.spawnWait = s.ctx.spawnWait := rfl
@[simp] theorem State.setLine_heldAppends (s : State) (key : Nat) (l : Line) : (s.setLine key l).ctx.heldAppends = s.ctx.heldAppends := rfl
@[simp] theorem State.setLine_chains (s : State) (key : Nat) (l : Line) : (s.setLine key l).chains = s.chains := rfl
@[simp] theorem State.setLine_rings (s : State) (key : Nat) (l : Line) : (s.setLine key l).ctx.rings = s.ctx.rings := rfl

/-! ### State.setSlot -/

@[simp] theorem State.setSlot_sched (s : State) (c u sl : Nat) (r : SlotRec) : (s.setSlot c u sl r).sched = s.sched := rfl
@[simp] theorem State.setSlot_mem (s : State) (c u sl : Nat) (r : SlotRec) : (s.setSlot c u sl r).mem = s.mem := rfl
@[simp] theorem State.setSlot_fl (s : State) (c u sl : Nat) (r : SlotRec) : (s.setSlot c u sl r).fl = s.fl := rfl
@[simp] theorem State.setSlot_eng (s : State) (c u sl : Nat) (r : SlotRec) : (s.setSlot c u sl r).eng = s.eng := rfl
@[simp] theorem State.setSlot_groups (s : State) (c u sl : Nat) (r : SlotRec) : (s.setSlot c u sl r).groups = s.groups := rfl
@[simp] theorem State.setSlot_launch (s : State) (c u sl : Nat) (r : SlotRec) : (s.setSlot c u sl r).launch = s.launch := rfl
@[simp] theorem State.setSlot_asids (s : State) (c u sl : Nat) (r : SlotRec) : (s.setSlot c u sl r).asids = s.asids := rfl
@[simp] theorem State.setSlot_fab (s : State) (c u sl : Nat) (r : SlotRec) : (s.setSlot c u sl r).fab = s.fab := rfl
@[simp] theorem State.setSlot_mgmt (s : State) (c u sl : Nat) (r : SlotRec) : (s.setSlot c u sl r).mgmt = s.mgmt := rfl
@[simp] theorem State.setSlot_time (s : State) (c u sl : Nat) (r : SlotRec) : (s.setSlot c u sl r).time = s.time := rfl
@[simp] theorem State.setSlot_lines (s : State) (c u sl : Nat) (r : SlotRec) : (s.setSlot c u sl r).ctx.lines = s.ctx.lines := rfl
@[simp] theorem State.setSlot_resid (s : State) (c u sl : Nat) (r : SlotRec) : (s.setSlot c u sl r).ctx.resid = s.ctx.resid := rfl
@[simp] theorem State.setSlot_slots (s : State) (c u sl : Nat) (r : SlotRec) : (s.setSlot c u sl r).ctx.slots = SMap.set s.ctx.slots (slotKey c u sl) r := rfl
@[simp] theorem State.setSlot_run (s : State) (c u sl : Nat) (r : SlotRec) : (s.setSlot c u sl r).ctx.run = s.ctx.run := rfl
@[simp] theorem State.setSlot_limits (s : State) (c u sl : Nat) (r : SlotRec) : (s.setSlot c u sl r).ctx.limits = s.ctx.limits := rfl
@[simp] theorem State.setSlot_spawnWait (s : State) (c u sl : Nat) (r : SlotRec) : (s.setSlot c u sl r).ctx.spawnWait = s.ctx.spawnWait := rfl
@[simp] theorem State.setSlot_heldAppends (s : State) (c u sl : Nat) (r : SlotRec) : (s.setSlot c u sl r).ctx.heldAppends = s.ctx.heldAppends := rfl
@[simp] theorem State.setSlot_chains (s : State) (c u sl : Nat) (r : SlotRec) : (s.setSlot c u sl r).chains = s.chains := rfl
@[simp] theorem State.setSlot_rings (s : State) (c u sl : Nat) (r : SlotRec) : (s.setSlot c u sl r).ctx.rings = s.ctx.rings := rfl

/-! ### State.nextSeq -/

@[simp] theorem State.nextSeq_ctx (s : State) : (s.nextSeq).ctx = s.ctx := rfl
@[simp] theorem State.nextSeq_mem (s : State) : (s.nextSeq).mem = s.mem := rfl
@[simp] theorem State.nextSeq_fl (s : State) : (s.nextSeq).fl = s.fl := rfl
@[simp] theorem State.nextSeq_eng (s : State) : (s.nextSeq).eng = s.eng := rfl
@[simp] theorem State.nextSeq_groups (s : State) : (s.nextSeq).groups = s.groups := rfl
@[simp] theorem State.nextSeq_launch (s : State) : (s.nextSeq).launch = s.launch := rfl
@[simp] theorem State.nextSeq_asids (s : State) : (s.nextSeq).asids = s.asids := rfl
@[simp] theorem State.nextSeq_fab (s : State) : (s.nextSeq).fab = s.fab := rfl
@[simp] theorem State.nextSeq_mgmt (s : State) : (s.nextSeq).mgmt = s.mgmt := rfl
@[simp] theorem State.nextSeq_time (s : State) : (s.nextSeq).time = s.time := rfl
@[simp] theorem State.nextSeq_agenda (s : State) : (s.nextSeq).sched.agenda = s.sched.agenda := rfl
@[simp] theorem State.nextSeq_cur (s : State) : (s.nextSeq).sched.cur = s.sched.cur := rfl
@[simp] theorem State.nextSeq_cmd (s : State) : (s.nextSeq).sched.cmd = s.sched.cmd := rfl
@[simp] theorem State.nextSeq_last (s : State) : (s.nextSeq).sched.last = s.sched.last := rfl
@[simp] theorem State.nextSeq_cycle (s : State) : (s.nextSeq).sched.cycle = s.sched.cycle := rfl
@[simp] theorem State.nextSeq_seq (s : State) : (s.nextSeq).sched.seq = s.sched.seq + 1 := rfl
@[simp] theorem State.nextSeq_chains (s : State) : (s.nextSeq).chains = s.chains := rfl
@[simp] theorem State.nextSeq_tickAt (s : State) : (s.nextSeq).sched.tickAt = s.sched.tickAt := rfl

/-! ### State.setSends -/

@[simp] theorem State.setSends_sched (s : State) (buf : Nat) (l : List SendEntry) : (s.setSends buf l).sched = s.sched := rfl
@[simp] theorem State.setSends_ctx (s : State) (buf : Nat) (l : List SendEntry) : (s.setSends buf l).ctx = s.ctx := rfl
@[simp] theorem State.setSends_mem (s : State) (buf : Nat) (l : List SendEntry) : (s.setSends buf l).mem = s.mem := rfl
@[simp] theorem State.setSends_eng (s : State) (buf : Nat) (l : List SendEntry) : (s.setSends buf l).eng = s.eng := rfl
@[simp] theorem State.setSends_groups (s : State) (buf : Nat) (l : List SendEntry) : (s.setSends buf l).groups = s.groups := rfl
@[simp] theorem State.setSends_launch (s : State) (buf : Nat) (l : List SendEntry) : (s.setSends buf l).launch = s.launch := rfl
@[simp] theorem State.setSends_asids (s : State) (buf : Nat) (l : List SendEntry) : (s.setSends buf l).asids = s.asids := rfl
@[simp] theorem State.setSends_fab (s : State) (buf : Nat) (l : List SendEntry) : (s.setSends buf l).fab = s.fab := rfl
@[simp] theorem State.setSends_mgmt (s : State) (buf : Nat) (l : List SendEntry) : (s.setSends buf l).mgmt = s.mgmt := rfl
@[simp] theorem State.setSends_time (s : State) (buf : Nat) (l : List SendEntry) : (s.setSends buf l).time = s.time := rfl
@[simp] theorem State.setSends_pend (s : State) (buf : Nat) (l : List SendEntry) : (s.setSends buf l).fl.pend = s.fl.pend := rfl
@[simp] theorem State.setSends_sfu (s : State) (buf : Nat) (l : List SendEntry) : (s.setSends buf l).fl.sfu = s.fl.sfu := rfl
@[simp] theorem State.setSends_divs (s : State) (buf : Nat) (l : List SendEntry) : (s.setSends buf l).fl.divs = s.fl.divs := rfl
@[simp] theorem State.setSends_reds (s : State) (buf : Nat) (l : List SendEntry) : (s.setSends buf l).fl.reds = s.fl.reds := rfl
@[simp] theorem State.setSends_orders (s : State) (buf : Nat) (l : List SendEntry) : (s.setSends buf l).fl.orders = s.fl.orders := rfl
@[simp] theorem State.setSends_ranges (s : State) (buf : Nat) (l : List SendEntry) : (s.setSends buf l).fl.ranges = s.fl.ranges := rfl
@[simp] theorem State.setSends_owners (s : State) (buf : Nat) (l : List SendEntry) : (s.setSends buf l).fl.owners = s.fl.owners := rfl
@[simp] theorem State.setSends_banks (s : State) (buf : Nat) (l : List SendEntry) : (s.setSends buf l).fl.banks = s.fl.banks := rfl
@[simp] theorem State.setSends_handles (s : State) (buf : Nat) (l : List SendEntry) : (s.setSends buf l).fl.handles = s.fl.handles := rfl
@[simp] theorem State.setSends_cancels (s : State) (buf : Nat) (l : List SendEntry) : (s.setSends buf l).fl.cancels = s.fl.cancels := rfl
@[simp] theorem State.setSends_spawns (s : State) (buf : Nat) (l : List SendEntry) : (s.setSends buf l).fl.spawns = s.fl.spawns := rfl
@[simp] theorem State.setSends_sends (s : State) (buf : Nat) (l : List SendEntry) : (s.setSends buf l).fl.sends = SMap.put s.fl.sends buf l [] := rfl
@[simp] theorem State.setSends_chains (s : State) (buf : Nat) (l : List SendEntry) : (s.setSends buf l).chains = s.chains := rfl
@[simp] theorem State.setSends_launches (s : State) (buf : Nat) (l : List SendEntry) : (s.setSends buf l).fl.launches = s.fl.launches := rfl

/-! ### State.setRun -/

@[simp] theorem State.setRun_sched (s : State) (c cls : Nat) (l : List RunEntry) : (s.setRun c cls l).sched = s.sched := rfl
@[simp] theorem State.setRun_mem (s : State) (c cls : Nat) (l : List RunEntry) : (s.setRun c cls l).mem = s.mem := rfl
@[simp] theorem State.setRun_fl (s : State) (c cls : Nat) (l : List RunEntry) : (s.setRun c cls l).fl = s.fl := rfl
@[simp] theorem State.setRun_eng (s : State) (c cls : Nat) (l : List RunEntry) : (s.setRun c cls l).eng = s.eng := rfl
@[simp] theorem State.setRun_groups (s : State) (c cls : Nat) (l : List RunEntry) : (s.setRun c cls l).groups = s.groups := rfl
@[simp] theorem State.setRun_launch (s : State) (c cls : Nat) (l : List RunEntry) : (s.setRun c cls l).launch = s.launch := rfl
@[simp] theorem State.setRun_asids (s : State) (c cls : Nat) (l : List RunEntry) : (s.setRun c cls l).asids = s.asids := rfl
@[simp] theorem State.setRun_fab (s : State) (c cls : Nat) (l : List RunEntry) : (s.setRun c cls l).fab = s.fab := rfl
@[simp] theorem State.setRun_mgmt (s : State) (c cls : Nat) (l : List RunEntry) : (s.setRun c cls l).mgmt = s.mgmt := rfl
@[simp] theorem State.setRun_time (s : State) (c cls : Nat) (l : List RunEntry) : (s.setRun c cls l).time = s.time := rfl
@[simp] theorem State.setRun_lines (s : State) (c cls : Nat) (l : List RunEntry) : (s.setRun c cls l).ctx.lines = s.ctx.lines := rfl
@[simp] theorem State.setRun_resid (s : State) (c cls : Nat) (l : List RunEntry) : (s.setRun c cls l).ctx.resid = s.ctx.resid := rfl
@[simp] theorem State.setRun_slots (s : State) (c cls : Nat) (l : List RunEntry) : (s.setRun c cls l).ctx.slots = s.ctx.slots := rfl
@[simp] theorem State.setRun_run (s : State) (c cls : Nat) (l : List RunEntry) : (s.setRun c cls l).ctx.run = SMap.put s.ctx.run (c * 4 + cls) l [] := rfl
@[simp] theorem State.setRun_limits (s : State) (c cls : Nat) (l : List RunEntry) : (s.setRun c cls l).ctx.limits = s.ctx.limits := rfl
@[simp] theorem State.setRun_spawnWait (s : State) (c cls : Nat) (l : List RunEntry) : (s.setRun c cls l).ctx.spawnWait = s.ctx.spawnWait := rfl
@[simp] theorem State.setRun_heldAppends (s : State) (c cls : Nat) (l : List RunEntry) : (s.setRun c cls l).ctx.heldAppends = s.ctx.heldAppends := rfl
@[simp] theorem State.setRun_chains (s : State) (c cls : Nat) (l : List RunEntry) : (s.setRun c cls l).chains = s.chains := rfl
@[simp] theorem State.setRun_rings (s : State) (c cls : Nat) (l : List RunEntry) : (s.setRun c cls l).ctx.rings = s.ctx.rings := rfl

/-! ### State.setBacklog -/

@[simp] theorem State.setBacklog_sched (s : State) (c : Nat) (l : List SpawnReq) : (s.setBacklog c l).sched = s.sched := rfl
@[simp] theorem State.setBacklog_ctx (s : State) (c : Nat) (l : List SpawnReq) : (s.setBacklog c l).ctx = s.ctx := rfl
@[simp] theorem State.setBacklog_mem (s : State) (c : Nat) (l : List SpawnReq) : (s.setBacklog c l).mem = s.mem := rfl
@[simp] theorem State.setBacklog_fl (s : State) (c : Nat) (l : List SpawnReq) : (s.setBacklog c l).fl = s.fl := rfl
@[simp] theorem State.setBacklog_eng (s : State) (c : Nat) (l : List SpawnReq) : (s.setBacklog c l).eng = s.eng := rfl
@[simp] theorem State.setBacklog_groups (s : State) (c : Nat) (l : List SpawnReq) : (s.setBacklog c l).groups = s.groups := rfl
@[simp] theorem State.setBacklog_asids (s : State) (c : Nat) (l : List SpawnReq) : (s.setBacklog c l).asids = s.asids := rfl
@[simp] theorem State.setBacklog_fab (s : State) (c : Nat) (l : List SpawnReq) : (s.setBacklog c l).fab = s.fab := rfl
@[simp] theorem State.setBacklog_mgmt (s : State) (c : Nat) (l : List SpawnReq) : (s.setBacklog c l).mgmt = s.mgmt := rfl
@[simp] theorem State.setBacklog_time (s : State) (c : Nat) (l : List SpawnReq) : (s.setBacklog c l).time = s.time := rfl
@[simp] theorem State.setBacklog_table (s : State) (c : Nat) (l : List SpawnReq) : (s.setBacklog c l).launch.table = s.launch.table := rfl
@[simp] theorem State.setBacklog_backlogs (s : State) (c : Nat) (l : List SpawnReq) : (s.setBacklog c l).launch.backlogs = SMap.put s.launch.backlogs c l [] := rfl
@[simp] theorem State.setBacklog_chains (s : State) (c : Nat) (l : List SpawnReq) : (s.setBacklog c l).chains = s.chains := rfl

/-! ### State.setGroup -/

@[simp] theorem State.setGroup_sched (s : State) (gk : Nat) (g : Group) : (s.setGroup gk g).sched = s.sched := rfl
@[simp] theorem State.setGroup_ctx (s : State) (gk : Nat) (g : Group) : (s.setGroup gk g).ctx = s.ctx := rfl
@[simp] theorem State.setGroup_mem (s : State) (gk : Nat) (g : Group) : (s.setGroup gk g).mem = s.mem := rfl
@[simp] theorem State.setGroup_fl (s : State) (gk : Nat) (g : Group) : (s.setGroup gk g).fl = s.fl := rfl
@[simp] theorem State.setGroup_eng (s : State) (gk : Nat) (g : Group) : (s.setGroup gk g).eng = s.eng := rfl
@[simp] theorem State.setGroup_launch (s : State) (gk : Nat) (g : Group) : (s.setGroup gk g).launch = s.launch := rfl
@[simp] theorem State.setGroup_asids (s : State) (gk : Nat) (g : Group) : (s.setGroup gk g).asids = s.asids := rfl
@[simp] theorem State.setGroup_fab (s : State) (gk : Nat) (g : Group) : (s.setGroup gk g).fab = s.fab := rfl
@[simp] theorem State.setGroup_mgmt (s : State) (gk : Nat) (g : Group) : (s.setGroup gk g).mgmt = s.mgmt := rfl
@[simp] theorem State.setGroup_time (s : State) (gk : Nat) (g : Group) : (s.setGroup gk g).time = s.time := rfl
@[simp] theorem State.setGroup_groups (s : State) (gk : Nat) (g : Group) : (s.setGroup gk g).groups = SMap.set s.groups gk g := rfl
@[simp] theorem State.setGroup_chains (s : State) (gk : Nat) (g : Group) : (s.setGroup gk g).chains = s.chains := rfl

/-! ### State.setQueue -/

@[simp] theorem State.setQueue_sched (s : State) (c q : Nat) (l : List QEntry) : (s.setQueue c q l).sched = s.sched := rfl
@[simp] theorem State.setQueue_ctx (s : State) (c q : Nat) (l : List QEntry) : (s.setQueue c q l).ctx = s.ctx := rfl
@[simp] theorem State.setQueue_mem (s : State) (c q : Nat) (l : List QEntry) : (s.setQueue c q l).mem = s.mem := rfl
@[simp] theorem State.setQueue_fl (s : State) (c q : Nat) (l : List QEntry) : (s.setQueue c q l).fl = s.fl := rfl
@[simp] theorem State.setQueue_groups (s : State) (c q : Nat) (l : List QEntry) : (s.setQueue c q l).groups = s.groups := rfl
@[simp] theorem State.setQueue_launch (s : State) (c q : Nat) (l : List QEntry) : (s.setQueue c q l).launch = s.launch := rfl
@[simp] theorem State.setQueue_asids (s : State) (c q : Nat) (l : List QEntry) : (s.setQueue c q l).asids = s.asids := rfl
@[simp] theorem State.setQueue_fab (s : State) (c q : Nat) (l : List QEntry) : (s.setQueue c q l).fab = s.fab := rfl
@[simp] theorem State.setQueue_mgmt (s : State) (c q : Nat) (l : List QEntry) : (s.setQueue c q l).mgmt = s.mgmt := rfl
@[simp] theorem State.setQueue_time (s : State) (c q : Nat) (l : List QEntry) : (s.setQueue c q l).time = s.time := rfl
@[simp] theorem State.setQueue_tiles (s : State) (c q : Nat) (l : List QEntry) : (s.setQueue c q l).eng.tiles = s.eng.tiles := rfl
@[simp] theorem State.setQueue_held (s : State) (c q : Nat) (l : List QEntry) : (s.setQueue c q l).eng.held = s.eng.held := rfl
@[simp] theorem State.setQueue_queues (s : State) (c q : Nat) (l : List QEntry) : (s.setQueue c q l).eng.queues = SMap.put s.eng.queues (c * 3 + q) l [] := rfl
@[simp] theorem State.setQueue_accepted (s : State) (c q : Nat) (l : List QEntry) : (s.setQueue c q l).eng.accepted = s.eng.accepted := rfl
@[simp] theorem State.setQueue_running (s : State) (c q : Nat) (l : List QEntry) : (s.setQueue c q l).eng.running = s.eng.running := rfl
@[simp] theorem State.setQueue_seqs (s : State) (c q : Nat) (l : List QEntry) : (s.setQueue c q l).eng.seqs = s.eng.seqs := rfl
@[simp] theorem State.setQueue_lanes (s : State) (c q : Nat) (l : List QEntry) : (s.setQueue c q l).eng.lanes = s.eng.lanes := rfl
@[simp] theorem State.setQueue_rowCaches (s : State) (c q : Nat) (l : List QEntry) : (s.setQueue c q l).eng.rowCaches = s.eng.rowCaches := rfl
@[simp] theorem State.setQueue_chains (s : State) (c q : Nat) (l : List QEntry) : (s.setQueue c q l).chains = s.chains := rfl

/-! ### State.setRuns -/

@[simp] theorem State.setRuns_sched (s : State) (c q : Nat) (l : List Run) : (s.setRuns c q l).sched = s.sched := rfl
@[simp] theorem State.setRuns_ctx (s : State) (c q : Nat) (l : List Run) : (s.setRuns c q l).ctx = s.ctx := rfl
@[simp] theorem State.setRuns_mem (s : State) (c q : Nat) (l : List Run) : (s.setRuns c q l).mem = s.mem := rfl
@[simp] theorem State.setRuns_fl (s : State) (c q : Nat) (l : List Run) : (s.setRuns c q l).fl = s.fl := rfl
@[simp] theorem State.setRuns_groups (s : State) (c q : Nat) (l : List Run) : (s.setRuns c q l).groups = s.groups := rfl
@[simp] theorem State.setRuns_launch (s : State) (c q : Nat) (l : List Run) : (s.setRuns c q l).launch = s.launch := rfl
@[simp] theorem State.setRuns_asids (s : State) (c q : Nat) (l : List Run) : (s.setRuns c q l).asids = s.asids := rfl
@[simp] theorem State.setRuns_fab (s : State) (c q : Nat) (l : List Run) : (s.setRuns c q l).fab = s.fab := rfl
@[simp] theorem State.setRuns_mgmt (s : State) (c q : Nat) (l : List Run) : (s.setRuns c q l).mgmt = s.mgmt := rfl
@[simp] theorem State.setRuns_time (s : State) (c q : Nat) (l : List Run) : (s.setRuns c q l).time = s.time := rfl
@[simp] theorem State.setRuns_tiles (s : State) (c q : Nat) (l : List Run) : (s.setRuns c q l).eng.tiles = s.eng.tiles := rfl
@[simp] theorem State.setRuns_held (s : State) (c q : Nat) (l : List Run) : (s.setRuns c q l).eng.held = s.eng.held := rfl
@[simp] theorem State.setRuns_queues (s : State) (c q : Nat) (l : List Run) : (s.setRuns c q l).eng.queues = s.eng.queues := rfl
@[simp] theorem State.setRuns_accepted (s : State) (c q : Nat) (l : List Run) : (s.setRuns c q l).eng.accepted = s.eng.accepted := rfl
@[simp] theorem State.setRuns_running (s : State) (c q : Nat) (l : List Run) : (s.setRuns c q l).eng.running = SMap.put s.eng.running (c * 3 + q) l [] := rfl
@[simp] theorem State.setRuns_seqs (s : State) (c q : Nat) (l : List Run) : (s.setRuns c q l).eng.seqs = s.eng.seqs := rfl
@[simp] theorem State.setRuns_lanes (s : State) (c q : Nat) (l : List Run) : (s.setRuns c q l).eng.lanes = s.eng.lanes := rfl
@[simp] theorem State.setRuns_rowCaches (s : State) (c q : Nat) (l : List Run) : (s.setRuns c q l).eng.rowCaches = s.eng.rowCaches := rfl
@[simp] theorem State.setRuns_chains (s : State) (c q : Nat) (l : List Run) : (s.setRuns c q l).chains = s.chains := rfl

/-! ### State.setLane -/

@[simp] theorem State.setLane_sched (s : State) (c : Nat) (l : List LaneEntry) : (s.setLane c l).sched = s.sched := rfl
@[simp] theorem State.setLane_ctx (s : State) (c : Nat) (l : List LaneEntry) : (s.setLane c l).ctx = s.ctx := rfl
@[simp] theorem State.setLane_mem (s : State) (c : Nat) (l : List LaneEntry) : (s.setLane c l).mem = s.mem := rfl
@[simp] theorem State.setLane_fl (s : State) (c : Nat) (l : List LaneEntry) : (s.setLane c l).fl = s.fl := rfl
@[simp] theorem State.setLane_groups (s : State) (c : Nat) (l : List LaneEntry) : (s.setLane c l).groups = s.groups := rfl
@[simp] theorem State.setLane_launch (s : State) (c : Nat) (l : List LaneEntry) : (s.setLane c l).launch = s.launch := rfl
@[simp] theorem State.setLane_asids (s : State) (c : Nat) (l : List LaneEntry) : (s.setLane c l).asids = s.asids := rfl
@[simp] theorem State.setLane_fab (s : State) (c : Nat) (l : List LaneEntry) : (s.setLane c l).fab = s.fab := rfl
@[simp] theorem State.setLane_mgmt (s : State) (c : Nat) (l : List LaneEntry) : (s.setLane c l).mgmt = s.mgmt := rfl
@[simp] theorem State.setLane_time (s : State) (c : Nat) (l : List LaneEntry) : (s.setLane c l).time = s.time := rfl
@[simp] theorem State.setLane_tiles (s : State) (c : Nat) (l : List LaneEntry) : (s.setLane c l).eng.tiles = s.eng.tiles := rfl
@[simp] theorem State.setLane_held (s : State) (c : Nat) (l : List LaneEntry) : (s.setLane c l).eng.held = s.eng.held := rfl
@[simp] theorem State.setLane_queues (s : State) (c : Nat) (l : List LaneEntry) : (s.setLane c l).eng.queues = s.eng.queues := rfl
@[simp] theorem State.setLane_accepted (s : State) (c : Nat) (l : List LaneEntry) : (s.setLane c l).eng.accepted = s.eng.accepted := rfl
@[simp] theorem State.setLane_running (s : State) (c : Nat) (l : List LaneEntry) : (s.setLane c l).eng.running = s.eng.running := rfl
@[simp] theorem State.setLane_seqs (s : State) (c : Nat) (l : List LaneEntry) : (s.setLane c l).eng.seqs = s.eng.seqs := rfl
@[simp] theorem State.setLane_lanes (s : State) (c : Nat) (l : List LaneEntry) : (s.setLane c l).eng.lanes = SMap.put s.eng.lanes c l [] := rfl
@[simp] theorem State.setLane_rowCaches (s : State) (c : Nat) (l : List LaneEntry) : (s.setLane c l).eng.rowCaches = s.eng.rowCaches := rfl
@[simp] theorem State.setLane_chains (s : State) (c : Nat) (l : List LaneEntry) : (s.setLane c l).chains = s.chains := rfl

/-! ### State.setSfu -/

@[simp] theorem State.setSfu_sched (s : State) (c : Nat) (q : Sfu) : (s.setSfu c q).sched = s.sched := rfl
@[simp] theorem State.setSfu_ctx (s : State) (c : Nat) (q : Sfu) : (s.setSfu c q).ctx = s.ctx := rfl
@[simp] theorem State.setSfu_mem (s : State) (c : Nat) (q : Sfu) : (s.setSfu c q).mem = s.mem := rfl
@[simp] theorem State.setSfu_eng (s : State) (c : Nat) (q : Sfu) : (s.setSfu c q).eng = s.eng := rfl
@[simp] theorem State.setSfu_groups (s : State) (c : Nat) (q : Sfu) : (s.setSfu c q).groups = s.groups := rfl
@[simp] theorem State.setSfu_launch (s : State) (c : Nat) (q : Sfu) : (s.setSfu c q).launch = s.launch := rfl
@[simp] theorem State.setSfu_asids (s : State) (c : Nat) (q : Sfu) : (s.setSfu c q).asids = s.asids := rfl
@[simp] theorem State.setSfu_fab (s : State) (c : Nat) (q : Sfu) : (s.setSfu c q).fab = s.fab := rfl
@[simp] theorem State.setSfu_mgmt (s : State) (c : Nat) (q : Sfu) : (s.setSfu c q).mgmt = s.mgmt := rfl
@[simp] theorem State.setSfu_time (s : State) (c : Nat) (q : Sfu) : (s.setSfu c q).time = s.time := rfl
@[simp] theorem State.setSfu_pend (s : State) (c : Nat) (q : Sfu) : (s.setSfu c q).fl.pend = s.fl.pend := rfl
@[simp] theorem State.setSfu_sfu (s : State) (c : Nat) (q : Sfu) : (s.setSfu c q).fl.sfu = SMap.set s.fl.sfu c q := rfl
@[simp] theorem State.setSfu_divs (s : State) (c : Nat) (q : Sfu) : (s.setSfu c q).fl.divs = s.fl.divs := rfl
@[simp] theorem State.setSfu_reds (s : State) (c : Nat) (q : Sfu) : (s.setSfu c q).fl.reds = s.fl.reds := rfl
@[simp] theorem State.setSfu_orders (s : State) (c : Nat) (q : Sfu) : (s.setSfu c q).fl.orders = s.fl.orders := rfl
@[simp] theorem State.setSfu_ranges (s : State) (c : Nat) (q : Sfu) : (s.setSfu c q).fl.ranges = s.fl.ranges := rfl
@[simp] theorem State.setSfu_owners (s : State) (c : Nat) (q : Sfu) : (s.setSfu c q).fl.owners = s.fl.owners := rfl
@[simp] theorem State.setSfu_banks (s : State) (c : Nat) (q : Sfu) : (s.setSfu c q).fl.banks = s.fl.banks := rfl
@[simp] theorem State.setSfu_handles (s : State) (c : Nat) (q : Sfu) : (s.setSfu c q).fl.handles = s.fl.handles := rfl
@[simp] theorem State.setSfu_cancels (s : State) (c : Nat) (q : Sfu) : (s.setSfu c q).fl.cancels = s.fl.cancels := rfl
@[simp] theorem State.setSfu_spawns (s : State) (c : Nat) (q : Sfu) : (s.setSfu c q).fl.spawns = s.fl.spawns := rfl
@[simp] theorem State.setSfu_sends (s : State) (c : Nat) (q : Sfu) : (s.setSfu c q).fl.sends = s.fl.sends := rfl
@[simp] theorem State.setSfu_chains (s : State) (c : Nat) (q : Sfu) : (s.setSfu c q).chains = s.chains := rfl
@[simp] theorem State.setSfu_launches (s : State) (c : Nat) (q : Sfu) : (s.setSfu c q).fl.launches = s.fl.launches := rfl

/-! ### State.setEntryAt -/

@[simp] theorem State.setEntryAt_sched (s : State) (key : Nat) (t : Tile) : (s.setEntryAt key t).sched = s.sched := rfl
@[simp] theorem State.setEntryAt_ctx (s : State) (key : Nat) (t : Tile) : (s.setEntryAt key t).ctx = s.ctx := rfl
@[simp] theorem State.setEntryAt_mem (s : State) (key : Nat) (t : Tile) : (s.setEntryAt key t).mem = s.mem := rfl
@[simp] theorem State.setEntryAt_fl (s : State) (key : Nat) (t : Tile) : (s.setEntryAt key t).fl = s.fl := rfl
@[simp] theorem State.setEntryAt_groups (s : State) (key : Nat) (t : Tile) : (s.setEntryAt key t).groups = s.groups := rfl
@[simp] theorem State.setEntryAt_launch (s : State) (key : Nat) (t : Tile) : (s.setEntryAt key t).launch = s.launch := rfl
@[simp] theorem State.setEntryAt_asids (s : State) (key : Nat) (t : Tile) : (s.setEntryAt key t).asids = s.asids := rfl
@[simp] theorem State.setEntryAt_fab (s : State) (key : Nat) (t : Tile) : (s.setEntryAt key t).fab = s.fab := rfl
@[simp] theorem State.setEntryAt_mgmt (s : State) (key : Nat) (t : Tile) : (s.setEntryAt key t).mgmt = s.mgmt := rfl
@[simp] theorem State.setEntryAt_time (s : State) (key : Nat) (t : Tile) : (s.setEntryAt key t).time = s.time := rfl
@[simp] theorem State.setEntryAt_tiles (s : State) (key : Nat) (t : Tile) : (s.setEntryAt key t).eng.tiles = SMap.put s.eng.tiles key t Tile.reset := rfl
@[simp] theorem State.setEntryAt_held (s : State) (key : Nat) (t : Tile) : (s.setEntryAt key t).eng.held = s.eng.held := rfl
@[simp] theorem State.setEntryAt_queues (s : State) (key : Nat) (t : Tile) : (s.setEntryAt key t).eng.queues = s.eng.queues := rfl
@[simp] theorem State.setEntryAt_accepted (s : State) (key : Nat) (t : Tile) : (s.setEntryAt key t).eng.accepted = s.eng.accepted := rfl
@[simp] theorem State.setEntryAt_running (s : State) (key : Nat) (t : Tile) : (s.setEntryAt key t).eng.running = s.eng.running := rfl
@[simp] theorem State.setEntryAt_seqs (s : State) (key : Nat) (t : Tile) : (s.setEntryAt key t).eng.seqs = s.eng.seqs := rfl
@[simp] theorem State.setEntryAt_lanes (s : State) (key : Nat) (t : Tile) : (s.setEntryAt key t).eng.lanes = s.eng.lanes := rfl
@[simp] theorem State.setEntryAt_rowCaches (s : State) (key : Nat) (t : Tile) : (s.setEntryAt key t).eng.rowCaches = s.eng.rowCaches := rfl
@[simp] theorem State.setEntryAt_chains (s : State) (key : Nat) (t : Tile) : (s.setEntryAt key t).chains = s.chains := rfl

/-! ### State.setRowCache -/

@[simp] theorem State.setRowCache_sched (s : State) (d : Nat) (x : RowCache) : (s.setRowCache d x).sched = s.sched := rfl
@[simp] theorem State.setRowCache_ctx (s : State) (d : Nat) (x : RowCache) : (s.setRowCache d x).ctx = s.ctx := rfl
@[simp] theorem State.setRowCache_mem (s : State) (d : Nat) (x : RowCache) : (s.setRowCache d x).mem = s.mem := rfl
@[simp] theorem State.setRowCache_fl (s : State) (d : Nat) (x : RowCache) : (s.setRowCache d x).fl = s.fl := rfl
@[simp] theorem State.setRowCache_groups (s : State) (d : Nat) (x : RowCache) : (s.setRowCache d x).groups = s.groups := rfl
@[simp] theorem State.setRowCache_launch (s : State) (d : Nat) (x : RowCache) : (s.setRowCache d x).launch = s.launch := rfl
@[simp] theorem State.setRowCache_asids (s : State) (d : Nat) (x : RowCache) : (s.setRowCache d x).asids = s.asids := rfl
@[simp] theorem State.setRowCache_fab (s : State) (d : Nat) (x : RowCache) : (s.setRowCache d x).fab = s.fab := rfl
@[simp] theorem State.setRowCache_mgmt (s : State) (d : Nat) (x : RowCache) : (s.setRowCache d x).mgmt = s.mgmt := rfl
@[simp] theorem State.setRowCache_time (s : State) (d : Nat) (x : RowCache) : (s.setRowCache d x).time = s.time := rfl
@[simp] theorem State.setRowCache_tiles (s : State) (d : Nat) (x : RowCache) : (s.setRowCache d x).eng.tiles = s.eng.tiles := rfl
@[simp] theorem State.setRowCache_held (s : State) (d : Nat) (x : RowCache) : (s.setRowCache d x).eng.held = s.eng.held := rfl
@[simp] theorem State.setRowCache_queues (s : State) (d : Nat) (x : RowCache) : (s.setRowCache d x).eng.queues = s.eng.queues := rfl
@[simp] theorem State.setRowCache_accepted (s : State) (d : Nat) (x : RowCache) : (s.setRowCache d x).eng.accepted = s.eng.accepted := rfl
@[simp] theorem State.setRowCache_running (s : State) (d : Nat) (x : RowCache) : (s.setRowCache d x).eng.running = s.eng.running := rfl
@[simp] theorem State.setRowCache_seqs (s : State) (d : Nat) (x : RowCache) : (s.setRowCache d x).eng.seqs = s.eng.seqs := rfl
@[simp] theorem State.setRowCache_lanes (s : State) (d : Nat) (x : RowCache) : (s.setRowCache d x).eng.lanes = s.eng.lanes := rfl
@[simp] theorem State.setRowCache_rowCaches (s : State) (d : Nat) (x : RowCache) : (s.setRowCache d x).eng.rowCaches = if h : d < 4 then s.eng.rowCaches.set d x h else s.eng.rowCaches := rfl
@[simp] theorem State.setRowCache_chains (s : State) (d : Nat) (x : RowCache) : (s.setRowCache d x).chains = s.chains := rfl

/-! ### State.setSequencer -/

@[simp] theorem State.setSequencer_sched (s : State) (d : Nat) (q : Sequencer) : (s.setSequencer d q).sched = s.sched := rfl
@[simp] theorem State.setSequencer_ctx (s : State) (d : Nat) (q : Sequencer) : (s.setSequencer d q).ctx = s.ctx := rfl
@[simp] theorem State.setSequencer_mem (s : State) (d : Nat) (q : Sequencer) : (s.setSequencer d q).mem = s.mem := rfl
@[simp] theorem State.setSequencer_fl (s : State) (d : Nat) (q : Sequencer) : (s.setSequencer d q).fl = s.fl := rfl
@[simp] theorem State.setSequencer_groups (s : State) (d : Nat) (q : Sequencer) : (s.setSequencer d q).groups = s.groups := rfl
@[simp] theorem State.setSequencer_launch (s : State) (d : Nat) (q : Sequencer) : (s.setSequencer d q).launch = s.launch := rfl
@[simp] theorem State.setSequencer_asids (s : State) (d : Nat) (q : Sequencer) : (s.setSequencer d q).asids = s.asids := rfl
@[simp] theorem State.setSequencer_fab (s : State) (d : Nat) (q : Sequencer) : (s.setSequencer d q).fab = s.fab := rfl
@[simp] theorem State.setSequencer_mgmt (s : State) (d : Nat) (q : Sequencer) : (s.setSequencer d q).mgmt = s.mgmt := rfl
@[simp] theorem State.setSequencer_time (s : State) (d : Nat) (q : Sequencer) : (s.setSequencer d q).time = s.time := rfl
@[simp] theorem State.setSequencer_tiles (s : State) (d : Nat) (q : Sequencer) : (s.setSequencer d q).eng.tiles = s.eng.tiles := rfl
@[simp] theorem State.setSequencer_held (s : State) (d : Nat) (q : Sequencer) : (s.setSequencer d q).eng.held = s.eng.held := rfl
@[simp] theorem State.setSequencer_queues (s : State) (d : Nat) (q : Sequencer) : (s.setSequencer d q).eng.queues = s.eng.queues := rfl
@[simp] theorem State.setSequencer_accepted (s : State) (d : Nat) (q : Sequencer) : (s.setSequencer d q).eng.accepted = s.eng.accepted := rfl
@[simp] theorem State.setSequencer_running (s : State) (d : Nat) (q : Sequencer) : (s.setSequencer d q).eng.running = s.eng.running := rfl
@[simp] theorem State.setSequencer_seqs (s : State) (d : Nat) (q : Sequencer) : (s.setSequencer d q).eng.seqs = if h : d < 4 then s.eng.seqs.set d q h else s.eng.seqs := rfl
@[simp] theorem State.setSequencer_lanes (s : State) (d : Nat) (q : Sequencer) : (s.setSequencer d q).eng.lanes = s.eng.lanes := rfl
@[simp] theorem State.setSequencer_rowCaches (s : State) (d : Nat) (q : Sequencer) : (s.setSequencer d q).eng.rowCaches = s.eng.rowCaches := rfl
@[simp] theorem State.setSequencer_chains (s : State) (d : Nat) (q : Sequencer) : (s.setSequencer d q).chains = s.chains := rfl

/-! ### State.setSwitch -/

@[simp] theorem State.setSwitch_sched (s : State) (sw : Nat) (p : PowerState) : (s.setSwitch sw p).sched = s.sched := rfl
@[simp] theorem State.setSwitch_ctx (s : State) (sw : Nat) (p : PowerState) : (s.setSwitch sw p).ctx = s.ctx := rfl
@[simp] theorem State.setSwitch_mem (s : State) (sw : Nat) (p : PowerState) : (s.setSwitch sw p).mem = s.mem := rfl
@[simp] theorem State.setSwitch_fl (s : State) (sw : Nat) (p : PowerState) : (s.setSwitch sw p).fl = s.fl := rfl
@[simp] theorem State.setSwitch_eng (s : State) (sw : Nat) (p : PowerState) : (s.setSwitch sw p).eng = s.eng := rfl
@[simp] theorem State.setSwitch_groups (s : State) (sw : Nat) (p : PowerState) : (s.setSwitch sw p).groups = s.groups := rfl
@[simp] theorem State.setSwitch_launch (s : State) (sw : Nat) (p : PowerState) : (s.setSwitch sw p).launch = s.launch := rfl
@[simp] theorem State.setSwitch_asids (s : State) (sw : Nat) (p : PowerState) : (s.setSwitch sw p).asids = s.asids := rfl
@[simp] theorem State.setSwitch_mgmt (s : State) (sw : Nat) (p : PowerState) : (s.setSwitch sw p).mgmt = s.mgmt := rfl
@[simp] theorem State.setSwitch_time (s : State) (sw : Nat) (p : PowerState) : (s.setSwitch sw p).time = s.time := rfl
@[simp] theorem State.setSwitch_ports (s : State) (sw : Nat) (p : PowerState) : (s.setSwitch sw p).fab.ports = s.fab.ports := rfl
@[simp] theorem State.setSwitch_switches (s : State) (sw : Nat) (p : PowerState) : (s.setSwitch sw p).fab.switches = SMap.set s.fab.switches sw p := rfl
@[simp] theorem State.setSwitch_lanes (s : State) (sw : Nat) (p : PowerState) : (s.setSwitch sw p).fab.lanes = s.fab.lanes := rfl
@[simp] theorem State.setSwitch_planesDown (s : State) (sw : Nat) (p : PowerState) : (s.setSwitch sw p).fab.planesDown = s.fab.planesDown := rfl
@[simp] theorem State.setSwitch_dies (s : State) (sw : Nat) (p : PowerState) : (s.setSwitch sw p).fab.dies = s.fab.dies := rfl
@[simp] theorem State.setSwitch_chains (s : State) (sw : Nat) (p : PowerState) : (s.setSwitch sw p).chains = s.chains := rfl
@[simp] theorem State.setSwitch_sent (s : State) (sw : Nat) (p : PowerState) : (s.setSwitch sw p).fab.sent = s.fab.sent := rfl
@[simp] theorem State.setSwitch_passes (s : State) (sw : Nat) (p : PowerState) : (s.setSwitch sw p).fab.passes = s.fab.passes := rfl
@[simp] theorem State.setSwitch_left (s : State) (sw : Nat) (p : PowerState) : (s.setSwitch sw p).fab.left = s.fab.left := rfl
@[simp] theorem State.setSwitch_carried (s : State) (sw : Nat) (p : PowerState) : (s.setSwitch sw p).fab.carried = s.fab.carried := rfl

/-! ### State.setFabLane -/

@[simp] theorem State.setFabLane_sched (s : State) (ln : Nat) (x : Lane) : (s.setFabLane ln x).sched = s.sched := rfl
@[simp] theorem State.setFabLane_ctx (s : State) (ln : Nat) (x : Lane) : (s.setFabLane ln x).ctx = s.ctx := rfl
@[simp] theorem State.setFabLane_mem (s : State) (ln : Nat) (x : Lane) : (s.setFabLane ln x).mem = s.mem := rfl
@[simp] theorem State.setFabLane_fl (s : State) (ln : Nat) (x : Lane) : (s.setFabLane ln x).fl = s.fl := rfl
@[simp] theorem State.setFabLane_eng (s : State) (ln : Nat) (x : Lane) : (s.setFabLane ln x).eng = s.eng := rfl
@[simp] theorem State.setFabLane_groups (s : State) (ln : Nat) (x : Lane) : (s.setFabLane ln x).groups = s.groups := rfl
@[simp] theorem State.setFabLane_launch (s : State) (ln : Nat) (x : Lane) : (s.setFabLane ln x).launch = s.launch := rfl
@[simp] theorem State.setFabLane_asids (s : State) (ln : Nat) (x : Lane) : (s.setFabLane ln x).asids = s.asids := rfl
@[simp] theorem State.setFabLane_mgmt (s : State) (ln : Nat) (x : Lane) : (s.setFabLane ln x).mgmt = s.mgmt := rfl
@[simp] theorem State.setFabLane_time (s : State) (ln : Nat) (x : Lane) : (s.setFabLane ln x).time = s.time := rfl
@[simp] theorem State.setFabLane_ports (s : State) (ln : Nat) (x : Lane) : (s.setFabLane ln x).fab.ports = s.fab.ports := rfl
@[simp] theorem State.setFabLane_switches (s : State) (ln : Nat) (x : Lane) : (s.setFabLane ln x).fab.switches = s.fab.switches := rfl
@[simp] theorem State.setFabLane_lanes (s : State) (ln : Nat) (x : Lane) : (s.setFabLane ln x).fab.lanes = SMap.set s.fab.lanes ln x := rfl
@[simp] theorem State.setFabLane_planesDown (s : State) (ln : Nat) (x : Lane) : (s.setFabLane ln x).fab.planesDown = s.fab.planesDown := rfl
@[simp] theorem State.setFabLane_dies (s : State) (ln : Nat) (x : Lane) : (s.setFabLane ln x).fab.dies = s.fab.dies := rfl
@[simp] theorem State.setFabLane_chains (s : State) (ln : Nat) (x : Lane) : (s.setFabLane ln x).chains = s.chains := rfl
@[simp] theorem State.setFabLane_sent (s : State) (ln : Nat) (x : Lane) : (s.setFabLane ln x).fab.sent = s.fab.sent := rfl
@[simp] theorem State.setFabLane_passes (s : State) (ln : Nat) (x : Lane) : (s.setFabLane ln x).fab.passes = s.fab.passes := rfl
@[simp] theorem State.setFabLane_left (s : State) (ln : Nat) (x : Lane) : (s.setFabLane ln x).fab.left = s.fab.left := rfl
@[simp] theorem State.setFabLane_carried (s : State) (ln : Nat) (x : Lane) : (s.setFabLane ln x).fab.carried = s.fab.carried := rfl

/-! ### State.setReady -/

@[simp] theorem State.setReady_sched (s : State) (i : Nat) (v : Bool) : (s.setReady i v).sched = s.sched := rfl
@[simp] theorem State.setReady_ctx (s : State) (i : Nat) (v : Bool) : (s.setReady i v).ctx = s.ctx := rfl
@[simp] theorem State.setReady_mem (s : State) (i : Nat) (v : Bool) : (s.setReady i v).mem = s.mem := rfl
@[simp] theorem State.setReady_fl (s : State) (i : Nat) (v : Bool) : (s.setReady i v).fl = s.fl := rfl
@[simp] theorem State.setReady_eng (s : State) (i : Nat) (v : Bool) : (s.setReady i v).eng = s.eng := rfl
@[simp] theorem State.setReady_groups (s : State) (i : Nat) (v : Bool) : (s.setReady i v).groups = s.groups := rfl
@[simp] theorem State.setReady_launch (s : State) (i : Nat) (v : Bool) : (s.setReady i v).launch = s.launch := rfl
@[simp] theorem State.setReady_asids (s : State) (i : Nat) (v : Bool) : (s.setReady i v).asids = s.asids := rfl
@[simp] theorem State.setReady_fab (s : State) (i : Nat) (v : Bool) : (s.setReady i v).fab = s.fab := rfl
@[simp] theorem State.setReady_time (s : State) (i : Nat) (v : Bool) : (s.setReady i v).time = s.time := rfl
@[simp] theorem State.setReady_chains (s : State) (i : Nat) (v : Bool) : (s.setReady i v).chains = s.chains := rfl

/-! ### State.setDie -/

@[simp] theorem State.setDie_sched (s : State) (d : Nat) (f : DieState → DieState) : (s.setDie d f).sched = s.sched := rfl
@[simp] theorem State.setDie_ctx (s : State) (d : Nat) (f : DieState → DieState) : (s.setDie d f).ctx = s.ctx := rfl
@[simp] theorem State.setDie_mem (s : State) (d : Nat) (f : DieState → DieState) : (s.setDie d f).mem = s.mem := rfl
@[simp] theorem State.setDie_fl (s : State) (d : Nat) (f : DieState → DieState) : (s.setDie d f).fl = s.fl := rfl
@[simp] theorem State.setDie_eng (s : State) (d : Nat) (f : DieState → DieState) : (s.setDie d f).eng = s.eng := rfl
@[simp] theorem State.setDie_groups (s : State) (d : Nat) (f : DieState → DieState) : (s.setDie d f).groups = s.groups := rfl
@[simp] theorem State.setDie_launch (s : State) (d : Nat) (f : DieState → DieState) : (s.setDie d f).launch = s.launch := rfl
@[simp] theorem State.setDie_asids (s : State) (d : Nat) (f : DieState → DieState) : (s.setDie d f).asids = s.asids := rfl
@[simp] theorem State.setDie_mgmt (s : State) (d : Nat) (f : DieState → DieState) : (s.setDie d f).mgmt = s.mgmt := rfl
@[simp] theorem State.setDie_time (s : State) (d : Nat) (f : DieState → DieState) : (s.setDie d f).time = s.time := rfl
@[simp] theorem State.setDie_ports (s : State) (d : Nat) (f : DieState → DieState) : (s.setDie d f).fab.ports = s.fab.ports := rfl
@[simp] theorem State.setDie_switches (s : State) (d : Nat) (f : DieState → DieState) : (s.setDie d f).fab.switches = s.fab.switches := rfl
@[simp] theorem State.setDie_lanes (s : State) (d : Nat) (f : DieState → DieState) : (s.setDie d f).fab.lanes = s.fab.lanes := rfl
@[simp] theorem State.setDie_planesDown (s : State) (d : Nat) (f : DieState → DieState) : (s.setDie d f).fab.planesDown = s.fab.planesDown := rfl
@[simp] theorem State.setDie_chains (s : State) (d : Nat) (f : DieState → DieState) : (s.setDie d f).chains = s.chains := rfl
@[simp] theorem State.setDie_sent (s : State) (d : Nat) (f : DieState → DieState) : (s.setDie d f).fab.sent = s.fab.sent := rfl
@[simp] theorem State.setDie_passes (s : State) (d : Nat) (f : DieState → DieState) : (s.setDie d f).fab.passes = s.fab.passes := rfl
@[simp] theorem State.setDie_left (s : State) (d : Nat) (f : DieState → DieState) : (s.setDie d f).fab.left = s.fab.left := rfl
@[simp] theorem State.setDie_carried (s : State) (d : Nat) (f : DieState → DieState) : (s.setDie d f).fab.carried = s.fab.carried := rfl

/-! ### State.setArrivalLimit -/

@[simp] theorem State.setArrivalLimit_sched (s : State) (c : Nat) (v : Word) : (s.setArrivalLimit c v).sched = s.sched := rfl
@[simp] theorem State.setArrivalLimit_mem (s : State) (c : Nat) (v : Word) : (s.setArrivalLimit c v).mem = s.mem := rfl
@[simp] theorem State.setArrivalLimit_fl (s : State) (c : Nat) (v : Word) : (s.setArrivalLimit c v).fl = s.fl := rfl
@[simp] theorem State.setArrivalLimit_eng (s : State) (c : Nat) (v : Word) : (s.setArrivalLimit c v).eng = s.eng := rfl
@[simp] theorem State.setArrivalLimit_groups (s : State) (c : Nat) (v : Word) : (s.setArrivalLimit c v).groups = s.groups := rfl
@[simp] theorem State.setArrivalLimit_launch (s : State) (c : Nat) (v : Word) : (s.setArrivalLimit c v).launch = s.launch := rfl
@[simp] theorem State.setArrivalLimit_asids (s : State) (c : Nat) (v : Word) : (s.setArrivalLimit c v).asids = s.asids := rfl
@[simp] theorem State.setArrivalLimit_fab (s : State) (c : Nat) (v : Word) : (s.setArrivalLimit c v).fab = s.fab := rfl
@[simp] theorem State.setArrivalLimit_mgmt (s : State) (c : Nat) (v : Word) : (s.setArrivalLimit c v).mgmt = s.mgmt := rfl
@[simp] theorem State.setArrivalLimit_time (s : State) (c : Nat) (v : Word) : (s.setArrivalLimit c v).time = s.time := rfl
@[simp] theorem State.setArrivalLimit_lines (s : State) (c : Nat) (v : Word) : (s.setArrivalLimit c v).ctx.lines = s.ctx.lines := rfl
@[simp] theorem State.setArrivalLimit_resid (s : State) (c : Nat) (v : Word) : (s.setArrivalLimit c v).ctx.resid = s.ctx.resid := rfl
@[simp] theorem State.setArrivalLimit_slots (s : State) (c : Nat) (v : Word) : (s.setArrivalLimit c v).ctx.slots = s.ctx.slots := rfl
@[simp] theorem State.setArrivalLimit_run (s : State) (c : Nat) (v : Word) : (s.setArrivalLimit c v).ctx.run = s.ctx.run := rfl
@[simp] theorem State.setArrivalLimit_limits (s : State) (c : Nat) (v : Word) : (s.setArrivalLimit c v).ctx.limits = SMap.put s.ctx.limits c (limitOf v) 64 := rfl
@[simp] theorem State.setArrivalLimit_spawnWait (s : State) (c : Nat) (v : Word) : (s.setArrivalLimit c v).ctx.spawnWait = s.ctx.spawnWait := rfl
@[simp] theorem State.setArrivalLimit_heldAppends (s : State) (c : Nat) (v : Word) : (s.setArrivalLimit c v).ctx.heldAppends = s.ctx.heldAppends := rfl
@[simp] theorem State.setArrivalLimit_chains (s : State) (c : Nat) (v : Word) : (s.setArrivalLimit c v).chains = s.chains := rfl
@[simp] theorem State.setArrivalLimit_rings (s : State) (c : Nat) (v : Word) : (s.setArrivalLimit c v).ctx.rings = s.ctx.rings := rfl

/-! ### State.nextCycle -/

@[simp] theorem State.nextCycle_ctx (s : State) : (s.nextCycle).ctx = s.ctx := rfl
@[simp] theorem State.nextCycle_mem (s : State) : (s.nextCycle).mem = s.mem := rfl
@[simp] theorem State.nextCycle_fl (s : State) : (s.nextCycle).fl = s.fl := rfl
@[simp] theorem State.nextCycle_eng (s : State) : (s.nextCycle).eng = s.eng := rfl
@[simp] theorem State.nextCycle_groups (s : State) : (s.nextCycle).groups = s.groups := rfl
@[simp] theorem State.nextCycle_launch (s : State) : (s.nextCycle).launch = s.launch := rfl
@[simp] theorem State.nextCycle_asids (s : State) : (s.nextCycle).asids = s.asids := rfl
@[simp] theorem State.nextCycle_fab (s : State) : (s.nextCycle).fab = s.fab := rfl
@[simp] theorem State.nextCycle_mgmt (s : State) : (s.nextCycle).mgmt = s.mgmt := rfl
@[simp] theorem State.nextCycle_time (s : State) : (s.nextCycle).time = s.time := rfl
@[simp] theorem State.nextCycle_agenda (s : State) : (s.nextCycle).sched.agenda = s.sched.agenda := rfl
@[simp] theorem State.nextCycle_cur (s : State) : (s.nextCycle).sched.cur = s.sched.cur := rfl
@[simp] theorem State.nextCycle_cmd (s : State) : (s.nextCycle).sched.cmd = s.sched.cmd := rfl
@[simp] theorem State.nextCycle_last (s : State) : (s.nextCycle).sched.last = s.sched.last := rfl
@[simp] theorem State.nextCycle_cycle (s : State) : (s.nextCycle).sched.cycle = s.sched.cycle + 1 := rfl
@[simp] theorem State.nextCycle_seq (s : State) : (s.nextCycle).sched.seq = s.sched.seq := rfl
@[simp] theorem State.nextCycle_chains (s : State) : (s.nextCycle).chains = s.chains := rfl
@[simp] theorem State.nextCycle_tickAt (s : State) : (s.nextCycle).sched.tickAt = s.sched.tickAt := rfl

/-! ### State.runDrop -/

@[simp] theorem State.runDrop_sched (s : State) (key : Nat) : (s.runDrop key).sched = s.sched := rfl
@[simp] theorem State.runDrop_mem (s : State) (key : Nat) : (s.runDrop key).mem = s.mem := rfl
@[simp] theorem State.runDrop_fl (s : State) (key : Nat) : (s.runDrop key).fl = s.fl := rfl
@[simp] theorem State.runDrop_eng (s : State) (key : Nat) : (s.runDrop key).eng = s.eng := rfl
@[simp] theorem State.runDrop_groups (s : State) (key : Nat) : (s.runDrop key).groups = s.groups := rfl
@[simp] theorem State.runDrop_launch (s : State) (key : Nat) : (s.runDrop key).launch = s.launch := rfl
@[simp] theorem State.runDrop_asids (s : State) (key : Nat) : (s.runDrop key).asids = s.asids := rfl
@[simp] theorem State.runDrop_fab (s : State) (key : Nat) : (s.runDrop key).fab = s.fab := rfl
@[simp] theorem State.runDrop_mgmt (s : State) (key : Nat) : (s.runDrop key).mgmt = s.mgmt := rfl
@[simp] theorem State.runDrop_time (s : State) (key : Nat) : (s.runDrop key).time = s.time := rfl
@[simp] theorem State.runDrop_lines (s : State) (key : Nat) : (s.runDrop key).ctx.lines = s.ctx.lines := rfl
@[simp] theorem State.runDrop_resid (s : State) (key : Nat) : (s.runDrop key).ctx.resid = s.ctx.resid := rfl
@[simp] theorem State.runDrop_slots (s : State) (key : Nat) : (s.runDrop key).ctx.slots = s.ctx.slots := rfl
@[simp] theorem State.runDrop_limits (s : State) (key : Nat) : (s.runDrop key).ctx.limits = s.ctx.limits := rfl
@[simp] theorem State.runDrop_spawnWait (s : State) (key : Nat) : (s.runDrop key).ctx.spawnWait = s.ctx.spawnWait := rfl
@[simp] theorem State.runDrop_heldAppends (s : State) (key : Nat) : (s.runDrop key).ctx.heldAppends = s.ctx.heldAppends := rfl
@[simp] theorem State.runDrop_chains (s : State) (key : Nat) : (s.runDrop key).chains = s.chains := rfl
@[simp] theorem State.runDrop_rings (s : State) (key : Nat) : (s.runDrop key).ctx.rings = s.ctx.rings := rfl

end Sys2Proof.Machine
end

