-- ==== Sys2Proof/Laws/Ctx.lean ====
section
/-! SUPPORT. Reading a context's registers after a write of one, and what each change of a line leaves in its fields. -/

set_option Elab.async false

namespace Sys2Proof.Machine

/-! ### Registers -/

@[simp] theorem Ctx.reg_setReg_self (c : Ctx) (r : Reg) (v : Word) : (c.setReg r v).reg r = v := by simp [Ctx.reg, Ctx.setReg]

@[simp] theorem Ctx.reg_setReg_other (c : Ctx) {q r : Reg} (v : Word) (h : q ≠ r) : (c.setReg r v).reg q = c.reg q := by
  simp only [Ctx.reg, Ctx.setReg]
  exact Vector.getElem_set_ne r.isLt q.isLt fun e => h (Fin.ext e.symm)

theorem Ctx.reg_setReg (c : Ctx) (q r : Reg) (v : Word) : (c.setReg r v).reg q = if q = r then v else c.reg q := by
  split
  · subst_vars; simp
  · simp [*]

@[simp] theorem Ctx.pred_setPred_self (c : Ctx) (r : PReg) (v : BitVec 16) : (c.setPred r v).pred r = v := by simp [Ctx.pred, Ctx.setPred]

@[simp] theorem Ctx.pred_setPred_other (c : Ctx) {q r : PReg} (v : BitVec 16) (h : q ≠ r) : (c.setPred r v).pred q = c.pred q := by
  simp only [Ctx.pred, Ctx.setPred]
  exact Vector.getElem_set_ne r.isLt q.isLt fun e => h (Fin.ext e.symm)

@[simp] theorem Ctx.pred_setReg (c : Ctx) (r : Reg) (v : Word) (q : PReg) : (c.setReg r v).pred q = c.pred q := rfl
@[simp] theorem Ctx.reg_setPred (c : Ctx) (r : PReg) (v : BitVec 16) (q : Reg) : (c.setPred r v).reg q = c.reg q := rfl
@[simp] theorem Ctx.active_setReg (c : Ctx) (r : Reg) (v : Word) (g : Guard) (i : Nat) : (c.setReg r v).active g i = c.active g i := rfl

@[simp] theorem Ctx.setReg_pc (c : Ctx) (r : Reg) (v : Word) : (c.setReg r v).pc = c.pc := rfl
@[simp] theorem Ctx.setReg_p (c : Ctx) (r : Reg) (v : Word) : (c.setReg r v).p = c.p := rfl
@[simp] theorem Ctx.setReg_waitKind (c : Ctx) (r : Reg) (v : Word) : (c.setReg r v).waitKind = c.waitKind := rfl
@[simp] theorem Ctx.setReg_waitObj (c : Ctx) (r : Reg) (v : Word) : (c.setReg r v).waitObj = c.waitObj := rfl
@[simp] theorem Ctx.setReg_st (c : Ctx) (r : Reg) (v : Word) : (c.setReg r v).st = c.st := rfl
@[simp] theorem Ctx.setReg_gen (c : Ctx) (r : Reg) (v : Word) : (c.setReg r v).gen = c.gen := rfl
@[simp] theorem Ctx.setReg_asid (c : Ctx) (r : Reg) (v : Word) : (c.setReg r v).asid = c.asid := rfl
@[simp] theorem Ctx.setReg_launch (c : Ctx) (r : Reg) (v : Word) : (c.setReg r v).launch = c.launch := rfl
@[simp] theorem Ctx.setReg_inboxBase (c : Ctx) (r : Reg) (v : Word) : (c.setReg r v).inboxBase = c.inboxBase := rfl
@[simp] theorem Ctx.setReg_inboxCount (c : Ctx) (r : Reg) (v : Word) : (c.setReg r v).inboxCount = c.inboxCount := rfl
@[simp] theorem Ctx.setReg_inboxHead (c : Ctx) (r : Reg) (v : Word) : (c.setReg r v).inboxHead = c.inboxHead := rfl
@[simp] theorem Ctx.setReg_floor (c : Ctx) (r : Reg) (v : Word) : (c.setReg r v).floor = c.floor := rfl
@[simp] theorem Ctx.setPred_g (c : Ctx) (r : PReg) (v : BitVec 16) : (c.setPred r v).g = c.g := rfl
@[simp] theorem Ctx.setPred_pc (c : Ctx) (r : PReg) (v : BitVec 16) : (c.setPred r v).pc = c.pc := rfl
@[simp] theorem Ctx.setPred_waitKind (c : Ctx) (r : PReg) (v : BitVec 16) : (c.setPred r v).waitKind = c.waitKind := rfl
@[simp] theorem Ctx.setPred_waitObj (c : Ctx) (r : PReg) (v : BitVec 16) : (c.setPred r v).waitObj = c.waitObj := rfl
@[simp] theorem Ctx.setPred_st (c : Ctx) (r : PReg) (v : BitVec 16) : (c.setPred r v).st = c.st := rfl
@[simp] theorem Ctx.setPred_gen (c : Ctx) (r : PReg) (v : BitVec 16) : (c.setPred r v).gen = c.gen := rfl
@[simp] theorem Ctx.setPred_asid (c : Ctx) (r : PReg) (v : BitVec 16) : (c.setPred r v).asid = c.asid := rfl
@[simp] theorem Ctx.setPred_launch (c : Ctx) (r : PReg) (v : BitVec 16) : (c.setPred r v).launch = c.launch := rfl
@[simp] theorem Ctx.setPred_inboxBase (c : Ctx) (r : PReg) (v : BitVec 16) : (c.setPred r v).inboxBase = c.inboxBase := rfl
@[simp] theorem Ctx.setPred_inboxCount (c : Ctx) (r : PReg) (v : BitVec 16) : (c.setPred r v).inboxCount = c.inboxCount := rfl
@[simp] theorem Ctx.setPred_inboxHead (c : Ctx) (r : PReg) (v : BitVec 16) : (c.setPred r v).inboxHead = c.inboxHead := rfl
@[simp] theorem Ctx.setPred_floor (c : Ctx) (r : PReg) (v : BitVec 16) : (c.setPred r v).floor = c.floor := rfl
@[simp] theorem Ctx.acquireTime_g (c : Ctx) (t : Word) : (c.acquireTime t).g = c.g := rfl
@[simp] theorem Ctx.acquireTime_pc (c : Ctx) (t : Word) : (c.acquireTime t).pc = c.pc := rfl
@[simp] theorem Ctx.acquireTime_p (c : Ctx) (t : Word) : (c.acquireTime t).p = c.p := rfl
@[simp] theorem Ctx.acquireTime_waitKind (c : Ctx) (t : Word) : (c.acquireTime t).waitKind = c.waitKind := rfl
@[simp] theorem Ctx.acquireTime_waitObj (c : Ctx) (t : Word) : (c.acquireTime t).waitObj = c.waitObj := rfl
@[simp] theorem Ctx.acquireTime_st (c : Ctx) (t : Word) : (c.acquireTime t).st = c.st := rfl
@[simp] theorem Ctx.acquireTime_gen (c : Ctx) (t : Word) : (c.acquireTime t).gen = c.gen := rfl
@[simp] theorem Ctx.acquireTime_asid (c : Ctx) (t : Word) : (c.acquireTime t).asid = c.asid := rfl
@[simp] theorem Ctx.acquireTime_launch (c : Ctx) (t : Word) : (c.acquireTime t).launch = c.launch := rfl
@[simp] theorem Ctx.acquireTime_inboxBase (c : Ctx) (t : Word) : (c.acquireTime t).inboxBase = c.inboxBase := rfl
@[simp] theorem Ctx.acquireTime_inboxCount (c : Ctx) (t : Word) : (c.acquireTime t).inboxCount = c.inboxCount := rfl
@[simp] theorem Ctx.acquireTime_inboxHead (c : Ctx) (t : Word) : (c.acquireTime t).inboxHead = c.inboxHead := rfl

/-! ### Lines -/

@[simp] theorem Line.withState_lnum (l : Line) (x : CState) : (l.withState x).lnum = l.lnum := rfl
@[simp] theorem Line.withState_place (l : Line) (x : CState) : (l.withState x).place = l.place := rfl
@[simp] theorem Line.withState_issued (l : Line) (x : CState) : (l.withState x).issued = l.issued := rfl
@[simp] theorem Line.withState_src (l : Line) (x : CState) : (l.withState x).src = l.src := rfl
@[simp] theorem Line.withState_jumped (l : Line) (x : CState) : (l.withState x).jumped = l.jumped := rfl
@[simp] theorem Line.withState_reissue (l : Line) (x : CState) : (l.withState x).reissue = l.reissue := rfl
@[simp] theorem Line.withState_fault (l : Line) (x : CState) : (l.withState x).fault = l.fault := rfl
@[simp] theorem Line.withState_redo (l : Line) (x : CState) : (l.withState x).redo = l.redo := rfl
@[simp] theorem Line.withState_qred (l : Line) (x : CState) : (l.withState x).qred = l.qred := rfl
@[simp] theorem Line.withState_watch (l : Line) (x : CState) : (l.withState x).watch = l.watch := rfl
@[simp] theorem Line.withState_goTo (l : Line) (x : CState) : (l.withState x).goTo = l.goTo := rfl
@[simp] theorem Line.withState_lost (l : Line) (x : CState) : (l.withState x).lost = l.lost := rfl
@[simp] theorem Line.withState_cancelled (l : Line) (x : CState) : (l.withState x).cancelled = l.cancelled := rfl
@[simp] theorem Line.withState_fenceTags (l : Line) (x : CState) : (l.withState x).fenceTags = l.fenceTags := rfl
@[simp] theorem Line.withState_heard (l : Line) (x : CState) : (l.withState x).heard = l.heard := rfl
@[simp] theorem Line.withState_landed (l : Line) (x : CState) : (l.withState x).landed = l.landed := rfl
@[simp] theorem Line.withState_live (l : Line) (x : CState) : (l.withState x).live = l.live := rfl
@[simp] theorem Line.withState_deps (l : Line) (x : CState) : (l.withState x).deps = l.deps := rfl
@[simp] theorem Line.withState_moved (l : Line) (x : CState) : (l.withState x).moved = l.moved := rfl
@[simp] theorem Line.withState_onIssue (l : Line) (x : CState) : (l.withState x).onIssue = l.onIssue := rfl
@[simp] theorem Line.withState_after (l : Line) (x : CState) : (l.withState x).after = l.after := rfl
@[simp] theorem Line.waits_lnum (l : Line) (kind : BitVec 4) (obj : BitVec 60) (watch : BitVec 8) : (l.waits kind obj watch).lnum = l.lnum := rfl
@[simp] theorem Line.waits_place (l : Line) (kind : BitVec 4) (obj : BitVec 60) (watch : BitVec 8) : (l.waits kind obj watch).place = l.place := rfl
@[simp] theorem Line.waits_issued (l : Line) (kind : BitVec 4) (obj : BitVec 60) (watch : BitVec 8) : (l.waits kind obj watch).issued = l.issued := rfl
@[simp] theorem Line.waits_src (l : Line) (kind : BitVec 4) (obj : BitVec 60) (watch : BitVec 8) : (l.waits kind obj watch).src = l.src := rfl
@[simp] theorem Line.waits_jumped (l : Line) (kind : BitVec 4) (obj : BitVec 60) (watch : BitVec 8) : (l.waits kind obj watch).jumped = l.jumped := rfl
@[simp] theorem Line.waits_reissue (l : Line) (kind : BitVec 4) (obj : BitVec 60) (watch : BitVec 8) : (l.waits kind obj watch).reissue = l.reissue := rfl
@[simp] theorem Line.waits_fault (l : Line) (kind : BitVec 4) (obj : BitVec 60) (watch : BitVec 8) : (l.waits kind obj watch).fault = l.fault := rfl
@[simp] theorem Line.waits_redo (l : Line) (kind : BitVec 4) (obj : BitVec 60) (watch : BitVec 8) : (l.waits kind obj watch).redo = l.redo := rfl
@[simp] theorem Line.waits_qred (l : Line) (kind : BitVec 4) (obj : BitVec 60) (watch : BitVec 8) : (l.waits kind obj watch).qred = l.qred := rfl
@[simp] theorem Line.waits_goTo (l : Line) (kind : BitVec 4) (obj : BitVec 60) (watch : BitVec 8) : (l.waits kind obj watch).goTo = l.goTo := rfl
@[simp] theorem Line.waits_lost (l : Line) (kind : BitVec 4) (obj : BitVec 60) (watch : BitVec 8) : (l.waits kind obj watch).lost = l.lost := rfl
@[simp] theorem Line.waits_cancelled (l : Line) (kind : BitVec 4) (obj : BitVec 60) (watch : BitVec 8) : (l.waits kind obj watch).cancelled = l.cancelled := rfl
@[simp] theorem Line.waits_fenceTags (l : Line) (kind : BitVec 4) (obj : BitVec 60) (watch : BitVec 8) : (l.waits kind obj watch).fenceTags = l.fenceTags := rfl
@[simp] theorem Line.waits_heard (l : Line) (kind : BitVec 4) (obj : BitVec 60) (watch : BitVec 8) : (l.waits kind obj watch).heard = l.heard := rfl
@[simp] theorem Line.waits_landed (l : Line) (kind : BitVec 4) (obj : BitVec 60) (watch : BitVec 8) : (l.waits kind obj watch).landed = l.landed := rfl
@[simp] theorem Line.waits_live (l : Line) (kind : BitVec 4) (obj : BitVec 60) (watch : BitVec 8) : (l.waits kind obj watch).live = l.live := rfl
@[simp] theorem Line.waits_deps (l : Line) (kind : BitVec 4) (obj : BitVec 60) (watch : BitVec 8) : (l.waits kind obj watch).deps = l.deps := rfl
@[simp] theorem Line.waits_moved (l : Line) (kind : BitVec 4) (obj : BitVec 60) (watch : BitVec 8) : (l.waits kind obj watch).moved = l.moved := rfl
@[simp] theorem Line.waits_onIssue (l : Line) (kind : BitVec 4) (obj : BitVec 60) (watch : BitVec 8) : (l.waits kind obj watch).onIssue = l.onIssue := rfl
@[simp] theorem Line.waits_after (l : Line) (kind : BitVec 4) (obj : BitVec 60) (watch : BitVec 8) : (l.waits kind obj watch).after = l.after := rfl
@[simp] theorem Line.jumpTo_lnum (l : Line) (a b : VAddr) : (l.jumpTo a b).lnum = l.lnum := rfl
@[simp] theorem Line.jumpTo_place (l : Line) (a b : VAddr) : (l.jumpTo a b).place = l.place := rfl
@[simp] theorem Line.jumpTo_issued (l : Line) (a b : VAddr) : (l.jumpTo a b).issued = l.issued := rfl
@[simp] theorem Line.jumpTo_reissue (l : Line) (a b : VAddr) : (l.jumpTo a b).reissue = l.reissue := rfl
@[simp] theorem Line.jumpTo_fault (l : Line) (a b : VAddr) : (l.jumpTo a b).fault = l.fault := rfl
@[simp] theorem Line.jumpTo_redo (l : Line) (a b : VAddr) : (l.jumpTo a b).redo = l.redo := rfl
@[simp] theorem Line.jumpTo_qred (l : Line) (a b : VAddr) : (l.jumpTo a b).qred = l.qred := rfl
@[simp] theorem Line.jumpTo_watch (l : Line) (a b : VAddr) : (l.jumpTo a b).watch = l.watch := rfl
@[simp] theorem Line.jumpTo_goTo (l : Line) (a b : VAddr) : (l.jumpTo a b).goTo = l.goTo := rfl
@[simp] theorem Line.jumpTo_lost (l : Line) (a b : VAddr) : (l.jumpTo a b).lost = l.lost := rfl
@[simp] theorem Line.jumpTo_cancelled (l : Line) (a b : VAddr) : (l.jumpTo a b).cancelled = l.cancelled := rfl
@[simp] theorem Line.jumpTo_fenceTags (l : Line) (a b : VAddr) : (l.jumpTo a b).fenceTags = l.fenceTags := rfl
@[simp] theorem Line.jumpTo_heard (l : Line) (a b : VAddr) : (l.jumpTo a b).heard = l.heard := rfl
@[simp] theorem Line.jumpTo_landed (l : Line) (a b : VAddr) : (l.jumpTo a b).landed = l.landed := rfl
@[simp] theorem Line.jumpTo_live (l : Line) (a b : VAddr) : (l.jumpTo a b).live = l.live := rfl
@[simp] theorem Line.jumpTo_deps (l : Line) (a b : VAddr) : (l.jumpTo a b).deps = l.deps := rfl
@[simp] theorem Line.jumpTo_moved (l : Line) (a b : VAddr) : (l.jumpTo a b).moved = l.moved := rfl
@[simp] theorem Line.jumpTo_onIssue (l : Line) (a b : VAddr) : (l.jumpTo a b).onIssue = l.onIssue := rfl
@[simp] theorem Line.jumpTo_after (l : Line) (a b : VAddr) : (l.jumpTo a b).after = l.after := rfl
@[simp] theorem Line.touch_lnum (l : Line) (m : BitVec 4) : (l.touch m).lnum = l.lnum := rfl
@[simp] theorem Line.touch_place (l : Line) (m : BitVec 4) : (l.touch m).place = l.place := rfl
@[simp] theorem Line.touch_issued (l : Line) (m : BitVec 4) : (l.touch m).issued = l.issued := rfl
@[simp] theorem Line.touch_src (l : Line) (m : BitVec 4) : (l.touch m).src = l.src := rfl
@[simp] theorem Line.touch_jumped (l : Line) (m : BitVec 4) : (l.touch m).jumped = l.jumped := rfl
@[simp] theorem Line.touch_reissue (l : Line) (m : BitVec 4) : (l.touch m).reissue = l.reissue := rfl
@[simp] theorem Line.touch_fault (l : Line) (m : BitVec 4) : (l.touch m).fault = l.fault := rfl
@[simp] theorem Line.touch_redo (l : Line) (m : BitVec 4) : (l.touch m).redo = l.redo := rfl
@[simp] theorem Line.touch_qred (l : Line) (m : BitVec 4) : (l.touch m).qred = l.qred := rfl
@[simp] theorem Line.touch_watch (l : Line) (m : BitVec 4) : (l.touch m).watch = l.watch := rfl
@[simp] theorem Line.touch_goTo (l : Line) (m : BitVec 4) : (l.touch m).goTo = l.goTo := rfl
@[simp] theorem Line.touch_lost (l : Line) (m : BitVec 4) : (l.touch m).lost = l.lost := rfl
@[simp] theorem Line.touch_cancelled (l : Line) (m : BitVec 4) : (l.touch m).cancelled = l.cancelled := rfl
@[simp] theorem Line.touch_fenceTags (l : Line) (m : BitVec 4) : (l.touch m).fenceTags = l.fenceTags := rfl
@[simp] theorem Line.touch_heard (l : Line) (m : BitVec 4) : (l.touch m).heard = l.heard := rfl
@[simp] theorem Line.touch_landed (l : Line) (m : BitVec 4) : (l.touch m).landed = l.landed := rfl
@[simp] theorem Line.touch_live (l : Line) (m : BitVec 4) : (l.touch m).live = l.live := rfl
@[simp] theorem Line.touch_deps (l : Line) (m : BitVec 4) : (l.touch m).deps = l.deps := rfl
@[simp] theorem Line.touch_moved (l : Line) (m : BitVec 4) : (l.touch m).moved = l.moved := rfl
@[simp] theorem Line.touch_onIssue (l : Line) (m : BitVec 4) : (l.touch m).onIssue = l.onIssue := rfl
@[simp] theorem Line.touch_after (l : Line) (m : BitVec 4) : (l.touch m).after = l.after := rfl
@[simp] theorem Line.pending_lnum (l : Line) (m : BitVec 8) : (l.pending m).lnum = l.lnum := rfl
@[simp] theorem Line.pending_place (l : Line) (m : BitVec 8) : (l.pending m).place = l.place := rfl
@[simp] theorem Line.pending_issued (l : Line) (m : BitVec 8) : (l.pending m).issued = l.issued := rfl
@[simp] theorem Line.pending_src (l : Line) (m : BitVec 8) : (l.pending m).src = l.src := rfl
@[simp] theorem Line.pending_jumped (l : Line) (m : BitVec 8) : (l.pending m).jumped = l.jumped := rfl
@[simp] theorem Line.pending_reissue (l : Line) (m : BitVec 8) : (l.pending m).reissue = l.reissue := rfl
@[simp] theorem Line.pending_fault (l : Line) (m : BitVec 8) : (l.pending m).fault = l.fault := rfl
@[simp] theorem Line.pending_redo (l : Line) (m : BitVec 8) : (l.pending m).redo = l.redo := rfl
@[simp] theorem Line.pending_qred (l : Line) (m : BitVec 8) : (l.pending m).qred = l.qred := rfl
@[simp] theorem Line.pending_watch (l : Line) (m : BitVec 8) : (l.pending m).watch = l.watch := rfl
@[simp] theorem Line.pending_goTo (l : Line) (m : BitVec 8) : (l.pending m).goTo = l.goTo := rfl
@[simp] theorem Line.pending_lost (l : Line) (m : BitVec 8) : (l.pending m).lost = l.lost := rfl
@[simp] theorem Line.pending_cancelled (l : Line) (m : BitVec 8) : (l.pending m).cancelled = l.cancelled := rfl
@[simp] theorem Line.pending_fenceTags (l : Line) (m : BitVec 8) : (l.pending m).fenceTags = l.fenceTags := rfl
@[simp] theorem Line.pending_heard (l : Line) (m : BitVec 8) : (l.pending m).heard = l.heard := rfl
@[simp] theorem Line.pending_landed (l : Line) (m : BitVec 8) : (l.pending m).landed = l.landed := rfl
@[simp] theorem Line.pending_live (l : Line) (m : BitVec 8) : (l.pending m).live = l.live := rfl
@[simp] theorem Line.pending_deps (l : Line) (m : BitVec 8) : (l.pending m).deps = l.deps := rfl
@[simp] theorem Line.pending_moved (l : Line) (m : BitVec 8) : (l.pending m).moved = l.moved := rfl
@[simp] theorem Line.pending_onIssue (l : Line) (m : BitVec 8) : (l.pending m).onIssue = l.onIssue := rfl
@[simp] theorem Line.pending_after (l : Line) (m : BitVec 8) : (l.pending m).after = l.after := rfl
@[simp] theorem Line.advance_lnum (l : Line) (h : Head) (m : BitVec 8) (n : Nat) : (l.advance h m n).lnum = l.lnum := rfl
@[simp] theorem Line.advance_place (l : Line) (h : Head) (m : BitVec 8) (n : Nat) : (l.advance h m n).place = l.place := rfl
@[simp] theorem Line.advance_fault (l : Line) (h : Head) (m : BitVec 8) (n : Nat) : (l.advance h m n).fault = l.fault := rfl
@[simp] theorem Line.advance_redo (l : Line) (h : Head) (m : BitVec 8) (n : Nat) : (l.advance h m n).redo = l.redo := rfl
@[simp] theorem Line.advance_qred (l : Line) (h : Head) (m : BitVec 8) (n : Nat) : (l.advance h m n).qred = l.qred := rfl
@[simp] theorem Line.advance_watch (l : Line) (h : Head) (m : BitVec 8) (n : Nat) : (l.advance h m n).watch = l.watch := rfl
@[simp] theorem Line.advance_goTo (l : Line) (h : Head) (m : BitVec 8) (n : Nat) : (l.advance h m n).goTo = l.goTo := rfl
@[simp] theorem Line.advance_lost (l : Line) (h : Head) (m : BitVec 8) (n : Nat) : (l.advance h m n).lost = l.lost := rfl
@[simp] theorem Line.advance_cancelled (l : Line) (h : Head) (m : BitVec 8) (n : Nat) : (l.advance h m n).cancelled = l.cancelled := rfl
@[simp] theorem Line.advance_fenceTags (l : Line) (h : Head) (m : BitVec 8) (n : Nat) : (l.advance h m n).fenceTags = l.fenceTags := rfl
@[simp] theorem Line.advance_heard (l : Line) (h : Head) (m : BitVec 8) (n : Nat) :
    (l.advance h m n).heard = (l.hearRegs (if l.reissue.isSome then h.again.getD h.names else h.names)).heard := rfl
@[simp] theorem Line.advance_landed (l : Line) (h : Head) (m : BitVec 8) (n : Nat) : (l.advance h m n).landed = l.landed := rfl
@[simp] theorem Line.advance_live (l : Line) (h : Head) (m : BitVec 8) (n : Nat) : (l.advance h m n).live = l.live := rfl
@[simp] theorem Line.advance_deps (l : Line) (h : Head) (m : BitVec 8) (n : Nat) : (l.advance h m n).deps = l.deps := rfl
@[simp] theorem Line.advance_moved (l : Line) (h : Head) (m : BitVec 8) (n : Nat) : (l.advance h m n).moved = l.moved := rfl
@[simp] theorem Line.onCtx_lnum (l : Line) (f : Ctx → Ctx) : (l.onCtx f).lnum = l.lnum := rfl
@[simp] theorem Line.onCtx_place (l : Line) (f : Ctx → Ctx) : (l.onCtx f).place = l.place := rfl
@[simp] theorem Line.onCtx_issued (l : Line) (f : Ctx → Ctx) : (l.onCtx f).issued = l.issued := rfl
@[simp] theorem Line.onCtx_src (l : Line) (f : Ctx → Ctx) : (l.onCtx f).src = l.src := rfl
@[simp] theorem Line.onCtx_jumped (l : Line) (f : Ctx → Ctx) : (l.onCtx f).jumped = l.jumped := rfl
@[simp] theorem Line.onCtx_reissue (l : Line) (f : Ctx → Ctx) : (l.onCtx f).reissue = l.reissue := rfl
@[simp] theorem Line.onCtx_fault (l : Line) (f : Ctx → Ctx) : (l.onCtx f).fault = l.fault := rfl
@[simp] theorem Line.onCtx_redo (l : Line) (f : Ctx → Ctx) : (l.onCtx f).redo = l.redo := rfl
@[simp] theorem Line.onCtx_qred (l : Line) (f : Ctx → Ctx) : (l.onCtx f).qred = l.qred := rfl
@[simp] theorem Line.onCtx_watch (l : Line) (f : Ctx → Ctx) : (l.onCtx f).watch = l.watch := rfl
@[simp] theorem Line.onCtx_goTo (l : Line) (f : Ctx → Ctx) : (l.onCtx f).goTo = l.goTo := rfl
@[simp] theorem Line.onCtx_lost (l : Line) (f : Ctx → Ctx) : (l.onCtx f).lost = l.lost := rfl
@[simp] theorem Line.onCtx_cancelled (l : Line) (f : Ctx → Ctx) : (l.onCtx f).cancelled = l.cancelled := rfl
@[simp] theorem Line.onCtx_fenceTags (l : Line) (f : Ctx → Ctx) : (l.onCtx f).fenceTags = l.fenceTags := rfl
@[simp] theorem Line.onCtx_heard (l : Line) (f : Ctx → Ctx) : (l.onCtx f).heard = l.heard := rfl
@[simp] theorem Line.onCtx_landed (l : Line) (f : Ctx → Ctx) : (l.onCtx f).landed = l.landed := rfl
@[simp] theorem Line.onCtx_live (l : Line) (f : Ctx → Ctx) : (l.onCtx f).live = l.live := rfl
@[simp] theorem Line.onCtx_deps (l : Line) (f : Ctx → Ctx) : (l.onCtx f).deps = l.deps := rfl
@[simp] theorem Line.onCtx_moved (l : Line) (f : Ctx → Ctx) : (l.onCtx f).moved = l.moved := rfl
@[simp] theorem Line.onCtx_onIssue (l : Line) (f : Ctx → Ctx) : (l.onCtx f).onIssue = l.onIssue := rfl
@[simp] theorem Line.onCtx_after (l : Line) (f : Ctx → Ctx) : (l.onCtx f).after = l.after := rfl
@[simp] theorem Line.resumed_lnum (l : Line) (t : Word) : (l.resumed t).lnum = l.lnum := rfl
@[simp] theorem Line.resumed_place (l : Line) (t : Word) : (l.resumed t).place = l.place := rfl
@[simp] theorem Line.resumed_issued (l : Line) (t : Word) : (l.resumed t).issued = l.issued := rfl
@[simp] theorem Line.resumed_src (l : Line) (t : Word) : (l.resumed t).src = l.src := rfl
@[simp] theorem Line.resumed_jumped (l : Line) (t : Word) : (l.resumed t).jumped = l.jumped := rfl
@[simp] theorem Line.resumed_reissue (l : Line) (t : Word) : (l.resumed t).reissue = l.reissue := rfl
@[simp] theorem Line.resumed_fault (l : Line) (t : Word) : (l.resumed t).fault = l.fault := rfl
@[simp] theorem Line.resumed_redo (l : Line) (t : Word) : (l.resumed t).redo = l.redo := rfl
@[simp] theorem Line.resumed_qred (l : Line) (t : Word) : (l.resumed t).qred = l.qred := rfl
@[simp] theorem Line.resumed_watch (l : Line) (t : Word) : (l.resumed t).watch = l.watch := rfl
@[simp] theorem Line.resumed_goTo (l : Line) (t : Word) : (l.resumed t).goTo = l.goTo := rfl
@[simp] theorem Line.resumed_lost (l : Line) (t : Word) : (l.resumed t).lost = l.lost := rfl
@[simp] theorem Line.resumed_cancelled (l : Line) (t : Word) : (l.resumed t).cancelled = l.cancelled := rfl
@[simp] theorem Line.resumed_fenceTags (l : Line) (t : Word) : (l.resumed t).fenceTags = l.fenceTags := rfl
@[simp] theorem Line.resumed_heard (l : Line) (t : Word) : (l.resumed t).heard = l.heard := rfl
@[simp] theorem Line.resumed_landed (l : Line) (t : Word) : (l.resumed t).landed = l.landed := rfl
@[simp] theorem Line.resumed_live (l : Line) (t : Word) : (l.resumed t).live = l.live := rfl
@[simp] theorem Line.resumed_deps (l : Line) (t : Word) : (l.resumed t).deps = l.deps := rfl
@[simp] theorem Line.resumed_moved (l : Line) (t : Word) : (l.resumed t).moved = l.moved := rfl
@[simp] theorem Line.resumed_after (l : Line) (t : Word) : (l.resumed t).after = l.after := rfl
@[simp] theorem Line.withState_c_g (l : Line) (x : CState) : (l.withState x).c.g = l.c.g := rfl
@[simp] theorem Line.withState_c_pc (l : Line) (x : CState) : (l.withState x).c.pc = l.c.pc := rfl
@[simp] theorem Line.withState_c_p (l : Line) (x : CState) : (l.withState x).c.p = l.c.p := rfl
@[simp] theorem Line.withState_c_waitKind (l : Line) (x : CState) : (l.withState x).c.waitKind = l.c.waitKind := rfl
@[simp] theorem Line.withState_c_waitObj (l : Line) (x : CState) : (l.withState x).c.waitObj = l.c.waitObj := rfl
@[simp] theorem Line.withState_c_gen (l : Line) (x : CState) : (l.withState x).c.gen = l.c.gen := rfl
@[simp] theorem Line.withState_c_asid (l : Line) (x : CState) : (l.withState x).c.asid = l.c.asid := rfl
@[simp] theorem Line.withState_c_launch (l : Line) (x : CState) : (l.withState x).c.launch = l.c.launch := rfl
@[simp] theorem Line.withState_c_inboxBase (l : Line) (x : CState) : (l.withState x).c.inboxBase = l.c.inboxBase := rfl
@[simp] theorem Line.withState_c_inboxCount (l : Line) (x : CState) : (l.withState x).c.inboxCount = l.c.inboxCount := rfl
@[simp] theorem Line.withState_c_inboxHead (l : Line) (x : CState) : (l.withState x).c.inboxHead = l.c.inboxHead := rfl
@[simp] theorem Line.withState_c_floor (l : Line) (x : CState) : (l.withState x).c.floor = l.c.floor := rfl
@[simp] theorem Line.waits_c_g (l : Line) (kind : BitVec 4) (obj : BitVec 60) (watch : BitVec 8) : (l.waits kind obj watch).c.g = l.c.g := rfl
@[simp] theorem Line.waits_c_pc (l : Line) (kind : BitVec 4) (obj : BitVec 60) (watch : BitVec 8) : (l.waits kind obj watch).c.pc = l.c.pc := rfl
@[simp] theorem Line.waits_c_p (l : Line) (kind : BitVec 4) (obj : BitVec 60) (watch : BitVec 8) : (l.waits kind obj watch).c.p = l.c.p := rfl
@[simp] theorem Line.waits_c_gen (l : Line) (kind : BitVec 4) (obj : BitVec 60) (watch : BitVec 8) : (l.waits kind obj watch).c.gen = l.c.gen := rfl
@[simp] theorem Line.waits_c_asid (l : Line) (kind : BitVec 4) (obj : BitVec 60) (watch : BitVec 8) : (l.waits kind obj watch).c.asid = l.c.asid := rfl
@[simp] theorem Line.waits_c_launch (l : Line) (kind : BitVec 4) (obj : BitVec 60) (watch : BitVec 8) : (l.waits kind obj watch).c.launch = l.c.launch := rfl
@[simp] theorem Line.waits_c_inboxBase (l : Line) (kind : BitVec 4) (obj : BitVec 60) (watch : BitVec 8) : (l.waits kind obj watch).c.inboxBase = l.c.inboxBase := rfl
@[simp] theorem Line.waits_c_inboxCount (l : Line) (kind : BitVec 4) (obj : BitVec 60) (watch : BitVec 8) : (l.waits kind obj watch).c.inboxCount = l.c.inboxCount := rfl
@[simp] theorem Line.waits_c_inboxHead (l : Line) (kind : BitVec 4) (obj : BitVec 60) (watch : BitVec 8) : (l.waits kind obj watch).c.inboxHead = l.c.inboxHead := rfl
@[simp] theorem Line.waits_c_floor (l : Line) (kind : BitVec 4) (obj : BitVec 60) (watch : BitVec 8) : (l.waits kind obj watch).c.floor = l.c.floor := rfl
@[simp] theorem Line.jumpTo_c_g (l : Line) (a b : VAddr) : (l.jumpTo a b).c.g = l.c.g := rfl
@[simp] theorem Line.jumpTo_c_p (l : Line) (a b : VAddr) : (l.jumpTo a b).c.p = l.c.p := rfl
@[simp] theorem Line.jumpTo_c_waitKind (l : Line) (a b : VAddr) : (l.jumpTo a b).c.waitKind = l.c.waitKind := rfl
@[simp] theorem Line.jumpTo_c_waitObj (l : Line) (a b : VAddr) : (l.jumpTo a b).c.waitObj = l.c.waitObj := rfl
@[simp] theorem Line.jumpTo_c_st (l : Line) (a b : VAddr) : (l.jumpTo a b).c.st = l.c.st := rfl
@[simp] theorem Line.jumpTo_c_gen (l : Line) (a b : VAddr) : (l.jumpTo a b).c.gen = l.c.gen := rfl
@[simp] theorem Line.jumpTo_c_asid (l : Line) (a b : VAddr) : (l.jumpTo a b).c.asid = l.c.asid := rfl
@[simp] theorem Line.jumpTo_c_launch (l : Line) (a b : VAddr) : (l.jumpTo a b).c.launch = l.c.launch := rfl
@[simp] theorem Line.jumpTo_c_inboxBase (l : Line) (a b : VAddr) : (l.jumpTo a b).c.inboxBase = l.c.inboxBase := rfl
@[simp] theorem Line.jumpTo_c_inboxCount (l : Line) (a b : VAddr) : (l.jumpTo a b).c.inboxCount = l.c.inboxCount := rfl
@[simp] theorem Line.jumpTo_c_inboxHead (l : Line) (a b : VAddr) : (l.jumpTo a b).c.inboxHead = l.c.inboxHead := rfl
@[simp] theorem Line.jumpTo_c_floor (l : Line) (a b : VAddr) : (l.jumpTo a b).c.floor = l.c.floor := rfl
@[simp] theorem Line.touch_c_g (l : Line) (m : BitVec 4) : (l.touch m).c.g = l.c.g := rfl
@[simp] theorem Line.touch_c_pc (l : Line) (m : BitVec 4) : (l.touch m).c.pc = l.c.pc := rfl
@[simp] theorem Line.touch_c_p (l : Line) (m : BitVec 4) : (l.touch m).c.p = l.c.p := rfl
@[simp] theorem Line.touch_c_waitKind (l : Line) (m : BitVec 4) : (l.touch m).c.waitKind = l.c.waitKind := rfl
@[simp] theorem Line.touch_c_waitObj (l : Line) (m : BitVec 4) : (l.touch m).c.waitObj = l.c.waitObj := rfl
@[simp] theorem Line.touch_c_gen (l : Line) (m : BitVec 4) : (l.touch m).c.gen = l.c.gen := rfl
@[simp] theorem Line.touch_c_asid (l : Line) (m : BitVec 4) : (l.touch m).c.asid = l.c.asid := rfl
@[simp] theorem Line.touch_c_launch (l : Line) (m : BitVec 4) : (l.touch m).c.launch = l.c.launch := rfl
@[simp] theorem Line.touch_c_inboxBase (l : Line) (m : BitVec 4) : (l.touch m).c.inboxBase = l.c.inboxBase := rfl
@[simp] theorem Line.touch_c_inboxCount (l : Line) (m : BitVec 4) : (l.touch m).c.inboxCount = l.c.inboxCount := rfl
@[simp] theorem Line.touch_c_inboxHead (l : Line) (m : BitVec 4) : (l.touch m).c.inboxHead = l.c.inboxHead := rfl
@[simp] theorem Line.touch_c_floor (l : Line) (m : BitVec 4) : (l.touch m).c.floor = l.c.floor := rfl
@[simp] theorem Line.pending_c_g (l : Line) (m : BitVec 8) : (l.pending m).c.g = l.c.g := rfl
@[simp] theorem Line.pending_c_pc (l : Line) (m : BitVec 8) : (l.pending m).c.pc = l.c.pc := rfl
@[simp] theorem Line.pending_c_p (l : Line) (m : BitVec 8) : (l.pending m).c.p = l.c.p := rfl
@[simp] theorem Line.pending_c_waitKind (l : Line) (m : BitVec 8) : (l.pending m).c.waitKind = l.c.waitKind := rfl
@[simp] theorem Line.pending_c_waitObj (l : Line) (m : BitVec 8) : (l.pending m).c.waitObj = l.c.waitObj := rfl
@[simp] theorem Line.pending_c_gen (l : Line) (m : BitVec 8) : (l.pending m).c.gen = l.c.gen := rfl
@[simp] theorem Line.pending_c_asid (l : Line) (m : BitVec 8) : (l.pending m).c.asid = l.c.asid := rfl
@[simp] theorem Line.pending_c_launch (l : Line) (m : BitVec 8) : (l.pending m).c.launch = l.c.launch := rfl
@[simp] theorem Line.pending_c_inboxBase (l : Line) (m : BitVec 8) : (l.pending m).c.inboxBase = l.c.inboxBase := rfl
@[simp] theorem Line.pending_c_inboxCount (l : Line) (m : BitVec 8) : (l.pending m).c.inboxCount = l.c.inboxCount := rfl
@[simp] theorem Line.pending_c_inboxHead (l : Line) (m : BitVec 8) : (l.pending m).c.inboxHead = l.c.inboxHead := rfl
@[simp] theorem Line.pending_c_floor (l : Line) (m : BitVec 8) : (l.pending m).c.floor = l.c.floor := rfl
@[simp] theorem Line.advance_c_g (l : Line) (h : Head) (m : BitVec 8) (n : Nat) : (l.advance h m n).c.g = l.c.g := rfl
@[simp] theorem Line.advance_c_p (l : Line) (h : Head) (m : BitVec 8) (n : Nat) : (l.advance h m n).c.p = l.c.p := rfl
@[simp] theorem Line.advance_c_gen (l : Line) (h : Head) (m : BitVec 8) (n : Nat) : (l.advance h m n).c.gen = l.c.gen := rfl
@[simp] theorem Line.advance_c_asid (l : Line) (h : Head) (m : BitVec 8) (n : Nat) : (l.advance h m n).c.asid = l.c.asid := rfl
@[simp] theorem Line.advance_c_launch (l : Line) (h : Head) (m : BitVec 8) (n : Nat) : (l.advance h m n).c.launch = l.c.launch := rfl
@[simp] theorem Line.advance_c_inboxBase (l : Line) (h : Head) (m : BitVec 8) (n : Nat) : (l.advance h m n).c.inboxBase = l.c.inboxBase := rfl
@[simp] theorem Line.advance_c_inboxCount (l : Line) (h : Head) (m : BitVec 8) (n : Nat) : (l.advance h m n).c.inboxCount = l.c.inboxCount := rfl
@[simp] theorem Line.advance_c_inboxHead (l : Line) (h : Head) (m : BitVec 8) (n : Nat) : (l.advance h m n).c.inboxHead = l.c.inboxHead := rfl
@[simp] theorem Line.resumed_c_g (l : Line) (t : Word) : (l.resumed t).c.g = l.c.g := rfl
@[simp] theorem Line.resumed_c_pc (l : Line) (t : Word) : (l.resumed t).c.pc = l.c.pc := rfl
@[simp] theorem Line.resumed_c_p (l : Line) (t : Word) : (l.resumed t).c.p = l.c.p := rfl
@[simp] theorem Line.resumed_c_gen (l : Line) (t : Word) : (l.resumed t).c.gen = l.c.gen := rfl
@[simp] theorem Line.resumed_c_asid (l : Line) (t : Word) : (l.resumed t).c.asid = l.c.asid := rfl
@[simp] theorem Line.resumed_c_launch (l : Line) (t : Word) : (l.resumed t).c.launch = l.c.launch := rfl
@[simp] theorem Line.resumed_c_inboxBase (l : Line) (t : Word) : (l.resumed t).c.inboxBase = l.c.inboxBase := rfl
@[simp] theorem Line.resumed_c_inboxCount (l : Line) (t : Word) : (l.resumed t).c.inboxCount = l.c.inboxCount := rfl
@[simp] theorem Line.resumed_c_inboxHead (l : Line) (t : Word) : (l.resumed t).c.inboxHead = l.c.inboxHead := rfl
@[simp] theorem Line.resumed_c_floor (l : Line) (t : Word) : (l.resumed t).c.floor = l.c.floor := rfl
@[simp] theorem Line.onCtx_c (l : Line) (f : Ctx → Ctx) : (l.onCtx f).c = f l.c := rfl
@[simp] theorem Line.withState_state (l : Line) (x : CState) : (l.withState x).c.st.state = x := rfl
@[simp] theorem Line.waits_kind (l : Line) (kind : BitVec 4) (obj : BitVec 60) (watch : BitVec 8) : (l.waits kind obj watch).c.waitKind = kind := rfl
@[simp] theorem Line.waits_obj (l : Line) (kind : BitVec 4) (obj : BitVec 60) (watch : BitVec 8) : (l.waits kind obj watch).c.waitObj = obj := rfl
@[simp] theorem Line.waits_state (l : Line) (kind : BitVec 4) (obj : BitVec 60) (watch : BitVec 8) :
    (l.waits kind obj watch).c.st.state = .waiting := rfl
@[simp] theorem Line.jumpTo_pc (l : Line) (a b : VAddr) : (l.jumpTo a b).c.pc = b := rfl
@[simp] theorem Line.advance_reg (l : Line) (h : Head) (m : BitVec 8) (n : Nat) (r : Reg) : (l.advance h m n).c.reg r = l.c.reg r := rfl
@[simp] theorem Line.advance_pred (l : Line) (h : Head) (m : BitVec 8) (n : Nat) (r : PReg) : (l.advance h m n).c.pred r = l.c.pred r := rfl
@[simp] theorem Line.advance_here (l : Line) (h : Head) (m : BitVec 8) (n : Nat) : (l.advance h m n).c.here = l.c.here := rfl
@[simp] theorem Line.advance_dieNum (l : Line) (h : Head) (m : BitVec 8) (n : Nat) : (l.advance h m n).c.dieNum = l.c.dieNum := rfl
@[simp] theorem Line.advance_level (l : Line) (h : Head) (m : BitVec 8) (n : Nat) : (l.advance h m n).c.level = l.c.level := rfl
@[simp] theorem Line.advance_state (l : Line) (h : Head) (m : BitVec 8) (n : Nat) : (l.advance h m n).c.st.state = l.c.st.state := rfl
@[simp] theorem Line.advance_pend (l : Line) (h : Head) (m : BitVec 8) (n : Nat) : (l.advance h m n).c.st.pend = l.c.st.pend := rfl
@[simp] theorem Line.handle_advance (l : Line) (h : Head) (m : BitVec 8) (n : Nat) : (l.advance h m n).handle = l.handle := rfl
@[simp] theorem Line.handle_onSetReg (l : Line) (r : Reg) (v : Word) : (l.onCtx (·.setReg r v)).handle = l.handle := rfl

end Sys2Proof.Machine
end

