-- ==== Sys2Proof/Laws/Encoding.lean ====
section
/-! SUPPORT. Every field of an encoded word reads back as it was written, format by format. -/

set_option Elab.async false

namespace Sys2Proof

/-! ### Reading a part of joined bits -/

theorem extract_low {m n : Nat} (x : BitVec m) (y : BitVec n) (lo k : Nat) (h : lo + k ≤ n) :
    (x ++ y).extractLsb' lo k = y.extractLsb' lo k := BitVec.extractLsb'_append_eq_of_add_le h

theorem extract_high {m n : Nat} (x : BitVec m) (y : BitVec n) (lo k : Nat) (h : n ≤ lo) :
    (x ++ y).extractLsb' lo k = x.extractLsb' (lo - n) k := BitVec.extractLsb'_append_eq_of_le h

theorem extract_top {m n : Nat} (x : BitVec m) (y : BitVec n) : (x ++ y).extractLsb' n m = x := by
  rw [extract_high _ _ _ _ (Nat.le_refl n), Nat.sub_self]; simp

/-- The lowest part of what stands above n further bits. -/
theorem extract_mid {m k n : Nat} (x : BitVec m) (y : BitVec k) (z : BitVec n) : (x ++ y ++ z).extractLsb' n k = y := by
  rw [extract_high _ _ _ _ (Nat.le_refl n), Nat.sub_self, extract_low _ _ _ _ (by omega)]; simp

theorem extract_all {n : Nat} (x : BitVec n) : x.extractLsb' 0 n = x := by simp

theorem regBits_toFin (r : Fin 8) : (regBits r).toFin = r := by simp [regBits]

theorem srcBits_reg (a : Src) : (a.bits.extractLsb' 0 3).toFin = a.reg := by
  show ((BitVec.ofBool a.take ++ (BitVec.ofFin a.reg : BitVec 3)).extractLsb' 0 3).toFin = a.reg
  rw [extract_low _ _ _ _ (by omega)]; simp

theorem srcBits_take (a : Src) : a.bits.extractLsb' 3 1 = BitVec.ofBool a.take := by
  show (BitVec.ofBool a.take ++ (BitVec.ofFin a.reg : BitVec 3)).extractLsb' 3 1 = _
  exact extract_top _ _

theorem getLsbD_of_extract {n : Nat} (w : BitVec n) (i : Nat) (b : Bool) (h : w.extractLsb' i 1 = BitVec.ofBool b) : w.getLsbD i = b := by
  have := congrArg (fun v => v.getLsbD 0) h
  simpa using this

theorem srcAt_of_bits (w : Word) (lo : Nat) (a : Src) (h : w.extractLsb' lo 4 = a.bits) : srcAt w lo = a := by
  have h1 : w.extractLsb' lo 3 = a.bits.extractLsb' 0 3 := by
    rw [← h]; ext i hi; simp [BitVec.getLsbD_extractLsb']; omega
  have h2 : w.extractLsb' (lo + 3) 1 = a.bits.extractLsb' 3 1 := by
    rw [← h]; ext i hi; simp [BitVec.getLsbD_extractLsb', Nat.add_assoc]; omega
  have h3 := getLsbD_of_extract _ _ _ (h2.trans (srcBits_take a))
  have h4 : regAt w lo = a.reg := by
    show (w.extractLsb' lo 3).toFin = a.reg
    rw [h1, srcBits_reg]
  show Src.mk _ _ = a
  rw [h3, h4]

theorem regAt_of_bits (w : Word) (lo : Nat) (r : Fin 8) (h : w.extractLsb' lo 3 = regBits r) : regAt w lo = r := by
  show (w.extractLsb' lo 3).toFin = r
  rw [h, regBits_toFin]

/-! ### The fields of each format -/

/-! #### encR -/

theorem encR_d (g : Guard) (la : BitVec 4) (opc : BitVec 8) (d : Reg) (a b c : Src) (fn : BitVec 4) (sz rm : BitVec 2) :
    regAt (encR g la opc d a b c fn sz rm) 32 = d :=
  regAt_of_bits _ _ _ (Eq.trans (extract_high (m := 52) (n := 12) _ _ 32 3 (by omega)) (Eq.trans (extract_high (m := 50) (n := 2) _ _ 20 3 (by omega)) (Eq.trans (extract_high (m := 48) (n := 2) _ _ 18 3 (by omega)) (Eq.trans (extract_high (m := 44) (n := 4) _ _ 16 3 (by omega)) (Eq.trans (extract_high (m := 40) (n := 4) _ _ 12 3 (by omega)) (Eq.trans (extract_high (m := 36) (n := 4) _ _ 8 3 (by omega)) (Eq.trans (extract_high (m := 32) (n := 4) _ _ 4 3 (by omega)) (Eq.trans (extract_low (m := 29) (n := 3) _ _ 0 3 (by omega)) (extract_all _)))))))))
theorem encR_a (g : Guard) (la : BitVec 4) (opc : BitVec 8) (d : Reg) (a b c : Src) (fn : BitVec 4) (sz rm : BitVec 2) :
    srcAt (encR g la opc d a b c fn sz rm) 28 = a :=
  srcAt_of_bits _ _ _ (Eq.trans (extract_high (m := 52) (n := 12) _ _ 28 4 (by omega)) (Eq.trans (extract_high (m := 50) (n := 2) _ _ 16 4 (by omega)) (Eq.trans (extract_high (m := 48) (n := 2) _ _ 14 4 (by omega)) (Eq.trans (extract_high (m := 44) (n := 4) _ _ 12 4 (by omega)) (Eq.trans (extract_high (m := 40) (n := 4) _ _ 8 4 (by omega)) (Eq.trans (extract_high (m := 36) (n := 4) _ _ 4 4 (by omega)) (Eq.trans (extract_low (m := 32) (n := 4) _ _ 0 4 (by omega)) (extract_all _))))))))
theorem encR_b (g : Guard) (la : BitVec 4) (opc : BitVec 8) (d : Reg) (a b c : Src) (fn : BitVec 4) (sz rm : BitVec 2) :
    srcAt (encR g la opc d a b c fn sz rm) 24 = b :=
  srcAt_of_bits _ _ _ (Eq.trans (extract_high (m := 52) (n := 12) _ _ 24 4 (by omega)) (Eq.trans (extract_high (m := 50) (n := 2) _ _ 12 4 (by omega)) (Eq.trans (extract_high (m := 48) (n := 2) _ _ 10 4 (by omega)) (Eq.trans (extract_high (m := 44) (n := 4) _ _ 8 4 (by omega)) (Eq.trans (extract_high (m := 40) (n := 4) _ _ 4 4 (by omega)) (Eq.trans (extract_low (m := 36) (n := 4) _ _ 0 4 (by omega)) (extract_all _)))))))
theorem encR_c (g : Guard) (la : BitVec 4) (opc : BitVec 8) (d : Reg) (a b c : Src) (fn : BitVec 4) (sz rm : BitVec 2) :
    srcAt (encR g la opc d a b c fn sz rm) 20 = c :=
  srcAt_of_bits _ _ _ (Eq.trans (extract_high (m := 52) (n := 12) _ _ 20 4 (by omega)) (Eq.trans (extract_high (m := 50) (n := 2) _ _ 8 4 (by omega)) (Eq.trans (extract_high (m := 48) (n := 2) _ _ 6 4 (by omega)) (Eq.trans (extract_high (m := 44) (n := 4) _ _ 4 4 (by omega)) (Eq.trans (extract_low (m := 40) (n := 4) _ _ 0 4 (by omega)) (extract_all _))))))
theorem encR_fn (g : Guard) (la : BitVec 4) (opc : BitVec 8) (d : Reg) (a b c : Src) (fn : BitVec 4) (sz rm : BitVec 2) :
    bitsAt (encR g la opc d a b c fn sz rm) 16 4 = fn :=
  Eq.trans (extract_high (m := 52) (n := 12) _ _ 16 4 (by omega)) (Eq.trans (extract_high (m := 50) (n := 2) _ _ 4 4 (by omega)) (Eq.trans (extract_high (m := 48) (n := 2) _ _ 2 4 (by omega)) (Eq.trans (extract_low (m := 44) (n := 4) _ _ 0 4 (by omega)) (extract_all _))))
theorem encR_sz (g : Guard) (la : BitVec 4) (opc : BitVec 8) (d : Reg) (a b c : Src) (fn : BitVec 4) (sz rm : BitVec 2) :
    bitsAt (encR g la opc d a b c fn sz rm) 14 2 = sz :=
  Eq.trans (extract_high (m := 52) (n := 12) _ _ 14 2 (by omega)) (Eq.trans (extract_high (m := 50) (n := 2) _ _ 2 2 (by omega)) (Eq.trans (extract_low (m := 48) (n := 2) _ _ 0 2 (by omega)) (extract_all _)))
theorem encR_rm (g : Guard) (la : BitVec 4) (opc : BitVec 8) (d : Reg) (a b c : Src) (fn : BitVec 4) (sz rm : BitVec 2) :
    bitsAt (encR g la opc d a b c fn sz rm) 12 2 = rm :=
  Eq.trans (extract_high (m := 52) (n := 12) _ _ 12 2 (by omega)) (Eq.trans (extract_low (m := 50) (n := 2) _ _ 0 2 (by omega)) (extract_all _))
theorem encR_head_tt (g : Guard) (la : BitVec 4) (opc : BitVec 8) (d : Reg) (a b c : Src) (fn : BitVec 4) (sz rm : BitVec 2) :
    BitVec.extractLsb' 56 8 (encR g la opc d a b c fn sz rm) = g.tt :=
  Eq.trans (extract_high (m := 52) (n := 12) _ _ 56 8 (by omega)) (Eq.trans (extract_high (m := 50) (n := 2) _ _ 44 8 (by omega)) (Eq.trans (extract_high (m := 48) (n := 2) _ _ 42 8 (by omega)) (Eq.trans (extract_high (m := 44) (n := 4) _ _ 40 8 (by omega)) (Eq.trans (extract_high (m := 40) (n := 4) _ _ 36 8 (by omega)) (Eq.trans (extract_high (m := 36) (n := 4) _ _ 32 8 (by omega)) (Eq.trans (extract_high (m := 32) (n := 4) _ _ 28 8 (by omega)) (Eq.trans (extract_high (m := 29) (n := 3) _ _ 24 8 (by omega)) (Eq.trans (extract_high (m := 21) (n := 8) _ _ 21 8 (by omega)) (Eq.trans (extract_high (m := 17) (n := 4) _ _ 13 8 (by omega)) (Eq.trans (extract_high (m := 14) (n := 3) _ _ 9 8 (by omega)) (Eq.trans (extract_high (m := 11) (n := 3) _ _ 6 8 (by omega)) (Eq.trans (extract_high (m := 8) (n := 3) _ _ 3 8 (by omega)) (extract_all _)))))))))))))
theorem encR_head_ga (g : Guard) (la : BitVec 4) (opc : BitVec 8) (d : Reg) (a b c : Src) (fn : BitVec 4) (sz rm : BitVec 2) :
    BitVec.extractLsb' 53 3 (encR g la opc d a b c fn sz rm) = regBits g.ga :=
  Eq.trans (extract_high (m := 52) (n := 12) _ _ 53 3 (by omega)) (Eq.trans (extract_high (m := 50) (n := 2) _ _ 41 3 (by omega)) (Eq.trans (extract_high (m := 48) (n := 2) _ _ 39 3 (by omega)) (Eq.trans (extract_high (m := 44) (n := 4) _ _ 37 3 (by omega)) (Eq.trans (extract_high (m := 40) (n := 4) _ _ 33 3 (by omega)) (Eq.trans (extract_high (m := 36) (n := 4) _ _ 29 3 (by omega)) (Eq.trans (extract_high (m := 32) (n := 4) _ _ 25 3 (by omega)) (Eq.trans (extract_high (m := 29) (n := 3) _ _ 21 3 (by omega)) (Eq.trans (extract_high (m := 21) (n := 8) _ _ 18 3 (by omega)) (Eq.trans (extract_high (m := 17) (n := 4) _ _ 10 3 (by omega)) (Eq.trans (extract_high (m := 14) (n := 3) _ _ 6 3 (by omega)) (Eq.trans (extract_high (m := 11) (n := 3) _ _ 3 3 (by omega)) (Eq.trans (extract_low (m := 8) (n := 3) _ _ 0 3 (by omega)) (extract_all _)))))))))))))
theorem encR_head_gb (g : Guard) (la : BitVec 4) (opc : BitVec 8) (d : Reg) (a b c : Src) (fn : BitVec 4) (sz rm : BitVec 2) :
    BitVec.extractLsb' 50 3 (encR g la opc d a b c fn sz rm) = regBits g.gb :=
  Eq.trans (extract_high (m := 52) (n := 12) _ _ 50 3 (by omega)) (Eq.trans (extract_high (m := 50) (n := 2) _ _ 38 3 (by omega)) (Eq.trans (extract_high (m := 48) (n := 2) _ _ 36 3 (by omega)) (Eq.trans (extract_high (m := 44) (n := 4) _ _ 34 3 (by omega)) (Eq.trans (extract_high (m := 40) (n := 4) _ _ 30 3 (by omega)) (Eq.trans (extract_high (m := 36) (n := 4) _ _ 26 3 (by omega)) (Eq.trans (extract_high (m := 32) (n := 4) _ _ 22 3 (by omega)) (Eq.trans (extract_high (m := 29) (n := 3) _ _ 18 3 (by omega)) (Eq.trans (extract_high (m := 21) (n := 8) _ _ 15 3 (by omega)) (Eq.trans (extract_high (m := 17) (n := 4) _ _ 7 3 (by omega)) (Eq.trans (extract_high (m := 14) (n := 3) _ _ 3 3 (by omega)) (Eq.trans (extract_low (m := 11) (n := 3) _ _ 0 3 (by omega)) (extract_all _))))))))))))
theorem encR_head_gc (g : Guard) (la : BitVec 4) (opc : BitVec 8) (d : Reg) (a b c : Src) (fn : BitVec 4) (sz rm : BitVec 2) :
    BitVec.extractLsb' 47 3 (encR g la opc d a b c fn sz rm) = regBits g.gc :=
  Eq.trans (extract_high (m := 52) (n := 12) _ _ 47 3 (by omega)) (Eq.trans (extract_high (m := 50) (n := 2) _ _ 35 3 (by omega)) (Eq.trans (extract_high (m := 48) (n := 2) _ _ 33 3 (by omega)) (Eq.trans (extract_high (m := 44) (n := 4) _ _ 31 3 (by omega)) (Eq.trans (extract_high (m := 40) (n := 4) _ _ 27 3 (by omega)) (Eq.trans (extract_high (m := 36) (n := 4) _ _ 23 3 (by omega)) (Eq.trans (extract_high (m := 32) (n := 4) _ _ 19 3 (by omega)) (Eq.trans (extract_high (m := 29) (n := 3) _ _ 15 3 (by omega)) (Eq.trans (extract_high (m := 21) (n := 8) _ _ 12 3 (by omega)) (Eq.trans (extract_high (m := 17) (n := 4) _ _ 4 3 (by omega)) (Eq.trans (extract_low (m := 14) (n := 3) _ _ 0 3 (by omega)) (extract_all _)))))))))))
theorem encR_head_la (g : Guard) (la : BitVec 4) (opc : BitVec 8) (d : Reg) (a b c : Src) (fn : BitVec 4) (sz rm : BitVec 2) :
    BitVec.extractLsb' 43 4 (encR g la opc d a b c fn sz rm) = la :=
  Eq.trans (extract_high (m := 52) (n := 12) _ _ 43 4 (by omega)) (Eq.trans (extract_high (m := 50) (n := 2) _ _ 31 4 (by omega)) (Eq.trans (extract_high (m := 48) (n := 2) _ _ 29 4 (by omega)) (Eq.trans (extract_high (m := 44) (n := 4) _ _ 27 4 (by omega)) (Eq.trans (extract_high (m := 40) (n := 4) _ _ 23 4 (by omega)) (Eq.trans (extract_high (m := 36) (n := 4) _ _ 19 4 (by omega)) (Eq.trans (extract_high (m := 32) (n := 4) _ _ 15 4 (by omega)) (Eq.trans (extract_high (m := 29) (n := 3) _ _ 11 4 (by omega)) (Eq.trans (extract_high (m := 21) (n := 8) _ _ 8 4 (by omega)) (Eq.trans (extract_low (m := 17) (n := 4) _ _ 0 4 (by omega)) (extract_all _))))))))))
theorem encR_head_opc (g : Guard) (la : BitVec 4) (opc : BitVec 8) (d : Reg) (a b c : Src) (fn : BitVec 4) (sz rm : BitVec 2) :
    BitVec.extractLsb' 35 8 (encR g la opc d a b c fn sz rm) = opc :=
  Eq.trans (extract_high (m := 52) (n := 12) _ _ 35 8 (by omega)) (Eq.trans (extract_high (m := 50) (n := 2) _ _ 23 8 (by omega)) (Eq.trans (extract_high (m := 48) (n := 2) _ _ 21 8 (by omega)) (Eq.trans (extract_high (m := 44) (n := 4) _ _ 19 8 (by omega)) (Eq.trans (extract_high (m := 40) (n := 4) _ _ 15 8 (by omega)) (Eq.trans (extract_high (m := 36) (n := 4) _ _ 11 8 (by omega)) (Eq.trans (extract_high (m := 32) (n := 4) _ _ 7 8 (by omega)) (Eq.trans (extract_high (m := 29) (n := 3) _ _ 3 8 (by omega)) (Eq.trans (extract_low (m := 21) (n := 8) _ _ 0 8 (by omega)) (extract_all _)))))))))
theorem encR_g (g : Guard) (la : BitVec 4) (opc : BitVec 8) (d : Reg) (a b c : Src) (fn : BitVec 4) (sz rm : BitVec 2) : guardAt (encR g la opc d a b c fn sz rm) = g := by
  show Guard.mk (BitVec.extractLsb' 56 8 (encR g la opc d a b c fn sz rm)) (regAt (encR g la opc d a b c fn sz rm) 53) (regAt (encR g la opc d a b c fn sz rm) 50) (regAt (encR g la opc d a b c fn sz rm) 47) = g
  rw [encR_head_tt, regAt_of_bits _ _ _ (encR_head_ga g la opc d a b c fn sz rm), regAt_of_bits _ _ _ (encR_head_gb g la opc d a b c fn sz rm), regAt_of_bits _ _ _ (encR_head_gc g la opc d a b c fn sz rm)]
theorem encR_la (g : Guard) (la : BitVec 4) (opc : BitVec 8) (d : Reg) (a b c : Src) (fn : BitVec 4) (sz rm : BitVec 2) : laAt (encR g la opc d a b c fn sz rm) = la := encR_head_la g la opc d a b c fn sz rm
theorem encR_opc (g : Guard) (la : BitVec 4) (opc : BitVec 8) (d : Reg) (a b c : Src) (fn : BitVec 4) (sz rm : BitVec 2) : opcAt (encR g la opc d a b c fn sz rm) = opc := encR_head_opc g la opc d a b c fn sz rm

/-! #### encI -/

theorem encI_d (g : Guard) (opc : BitVec 8) (d : Reg) (a : Src) (imm : BitVec 28) :
    regAt (encI g opc d a imm) 32 = d :=
  regAt_of_bits _ _ _ (Eq.trans (extract_high (m := 36) (n := 28) _ _ 32 3 (by omega)) (Eq.trans (extract_high (m := 32) (n := 4) _ _ 4 3 (by omega)) (Eq.trans (extract_low (m := 29) (n := 3) _ _ 0 3 (by omega)) (extract_all _))))
theorem encI_a (g : Guard) (opc : BitVec 8) (d : Reg) (a : Src) (imm : BitVec 28) :
    srcAt (encI g opc d a imm) 28 = a :=
  srcAt_of_bits _ _ _ (Eq.trans (extract_high (m := 36) (n := 28) _ _ 28 4 (by omega)) (Eq.trans (extract_low (m := 32) (n := 4) _ _ 0 4 (by omega)) (extract_all _)))
theorem encI_imm (g : Guard) (opc : BitVec 8) (d : Reg) (a : Src) (imm : BitVec 28) :
    bitsAt (encI g opc d a imm) 0 28 = imm :=
  Eq.trans (extract_low (m := 36) (n := 28) _ _ 0 28 (by omega)) (extract_all _)
theorem encI_head_tt (g : Guard) (opc : BitVec 8) (d : Reg) (a : Src) (imm : BitVec 28) :
    BitVec.extractLsb' 56 8 (encI g opc d a imm) = g.tt :=
  Eq.trans (extract_high (m := 36) (n := 28) _ _ 56 8 (by omega)) (Eq.trans (extract_high (m := 32) (n := 4) _ _ 28 8 (by omega)) (Eq.trans (extract_high (m := 29) (n := 3) _ _ 24 8 (by omega)) (Eq.trans (extract_high (m := 21) (n := 8) _ _ 21 8 (by omega)) (Eq.trans (extract_high (m := 17) (n := 4) _ _ 13 8 (by omega)) (Eq.trans (extract_high (m := 14) (n := 3) _ _ 9 8 (by omega)) (Eq.trans (extract_high (m := 11) (n := 3) _ _ 6 8 (by omega)) (Eq.trans (extract_high (m := 8) (n := 3) _ _ 3 8 (by omega)) (extract_all _))))))))
theorem encI_head_ga (g : Guard) (opc : BitVec 8) (d : Reg) (a : Src) (imm : BitVec 28) :
    BitVec.extractLsb' 53 3 (encI g opc d a imm) = regBits g.ga :=
  Eq.trans (extract_high (m := 36) (n := 28) _ _ 53 3 (by omega)) (Eq.trans (extract_high (m := 32) (n := 4) _ _ 25 3 (by omega)) (Eq.trans (extract_high (m := 29) (n := 3) _ _ 21 3 (by omega)) (Eq.trans (extract_high (m := 21) (n := 8) _ _ 18 3 (by omega)) (Eq.trans (extract_high (m := 17) (n := 4) _ _ 10 3 (by omega)) (Eq.trans (extract_high (m := 14) (n := 3) _ _ 6 3 (by omega)) (Eq.trans (extract_high (m := 11) (n := 3) _ _ 3 3 (by omega)) (Eq.trans (extract_low (m := 8) (n := 3) _ _ 0 3 (by omega)) (extract_all _))))))))
theorem encI_head_gb (g : Guard) (opc : BitVec 8) (d : Reg) (a : Src) (imm : BitVec 28) :
    BitVec.extractLsb' 50 3 (encI g opc d a imm) = regBits g.gb :=
  Eq.trans (extract_high (m := 36) (n := 28) _ _ 50 3 (by omega)) (Eq.trans (extract_high (m := 32) (n := 4) _ _ 22 3 (by omega)) (Eq.trans (extract_high (m := 29) (n := 3) _ _ 18 3 (by omega)) (Eq.trans (extract_high (m := 21) (n := 8) _ _ 15 3 (by omega)) (Eq.trans (extract_high (m := 17) (n := 4) _ _ 7 3 (by omega)) (Eq.trans (extract_high (m := 14) (n := 3) _ _ 3 3 (by omega)) (Eq.trans (extract_low (m := 11) (n := 3) _ _ 0 3 (by omega)) (extract_all _)))))))
theorem encI_head_gc (g : Guard) (opc : BitVec 8) (d : Reg) (a : Src) (imm : BitVec 28) :
    BitVec.extractLsb' 47 3 (encI g opc d a imm) = regBits g.gc :=
  Eq.trans (extract_high (m := 36) (n := 28) _ _ 47 3 (by omega)) (Eq.trans (extract_high (m := 32) (n := 4) _ _ 19 3 (by omega)) (Eq.trans (extract_high (m := 29) (n := 3) _ _ 15 3 (by omega)) (Eq.trans (extract_high (m := 21) (n := 8) _ _ 12 3 (by omega)) (Eq.trans (extract_high (m := 17) (n := 4) _ _ 4 3 (by omega)) (Eq.trans (extract_low (m := 14) (n := 3) _ _ 0 3 (by omega)) (extract_all _))))))
theorem encI_head_la (g : Guard) (opc : BitVec 8) (d : Reg) (a : Src) (imm : BitVec 28) :
    BitVec.extractLsb' 43 4 (encI g opc d a imm) = 0 :=
  Eq.trans (extract_high (m := 36) (n := 28) _ _ 43 4 (by omega)) (Eq.trans (extract_high (m := 32) (n := 4) _ _ 15 4 (by omega)) (Eq.trans (extract_high (m := 29) (n := 3) _ _ 11 4 (by omega)) (Eq.trans (extract_high (m := 21) (n := 8) _ _ 8 4 (by omega)) (Eq.trans (extract_low (m := 17) (n := 4) _ _ 0 4 (by omega)) (extract_all _)))))
theorem encI_head_opc (g : Guard) (opc : BitVec 8) (d : Reg) (a : Src) (imm : BitVec 28) :
    BitVec.extractLsb' 35 8 (encI g opc d a imm) = opc :=
  Eq.trans (extract_high (m := 36) (n := 28) _ _ 35 8 (by omega)) (Eq.trans (extract_high (m := 32) (n := 4) _ _ 7 8 (by omega)) (Eq.trans (extract_high (m := 29) (n := 3) _ _ 3 8 (by omega)) (Eq.trans (extract_low (m := 21) (n := 8) _ _ 0 8 (by omega)) (extract_all _))))
theorem encI_g (g : Guard) (opc : BitVec 8) (d : Reg) (a : Src) (imm : BitVec 28) : guardAt (encI g opc d a imm) = g := by
  show Guard.mk (BitVec.extractLsb' 56 8 (encI g opc d a imm)) (regAt (encI g opc d a imm) 53) (regAt (encI g opc d a imm) 50) (regAt (encI g opc d a imm) 47) = g
  rw [encI_head_tt, regAt_of_bits _ _ _ (encI_head_ga g opc d a imm), regAt_of_bits _ _ _ (encI_head_gb g opc d a imm), regAt_of_bits _ _ _ (encI_head_gc g opc d a imm)]
theorem encI_la (g : Guard) (opc : BitVec 8) (d : Reg) (a : Src) (imm : BitVec 28) : laAt (encI g opc d a imm) = 0 := encI_head_la g opc d a imm
theorem encI_opc (g : Guard) (opc : BitVec 8) (d : Reg) (a : Src) (imm : BitVec 28) : opcAt (encI g opc d a imm) = opc := encI_head_opc g opc d a imm

/-! #### encL -/

theorem encL_d (g : Guard) (opc : BitVec 8) (d : Reg) (imm : BitVec 32) :
    regAt (encL g opc d imm) 32 = d :=
  regAt_of_bits _ _ _ (Eq.trans (extract_high (m := 32) (n := 32) _ _ 32 3 (by omega)) (Eq.trans (extract_low (m := 29) (n := 3) _ _ 0 3 (by omega)) (extract_all _)))
theorem encL_imm (g : Guard) (opc : BitVec 8) (d : Reg) (imm : BitVec 32) :
    bitsAt (encL g opc d imm) 0 32 = imm :=
  Eq.trans (extract_low (m := 32) (n := 32) _ _ 0 32 (by omega)) (extract_all _)
theorem encL_head_tt (g : Guard) (opc : BitVec 8) (d : Reg) (imm : BitVec 32) :
    BitVec.extractLsb' 56 8 (encL g opc d imm) = g.tt :=
  Eq.trans (extract_high (m := 32) (n := 32) _ _ 56 8 (by omega)) (Eq.trans (extract_high (m := 29) (n := 3) _ _ 24 8 (by omega)) (Eq.trans (extract_high (m := 21) (n := 8) _ _ 21 8 (by omega)) (Eq.trans (extract_high (m := 17) (n := 4) _ _ 13 8 (by omega)) (Eq.trans (extract_high (m := 14) (n := 3) _ _ 9 8 (by omega)) (Eq.trans (extract_high (m := 11) (n := 3) _ _ 6 8 (by omega)) (Eq.trans (extract_high (m := 8) (n := 3) _ _ 3 8 (by omega)) (extract_all _)))))))
theorem encL_head_ga (g : Guard) (opc : BitVec 8) (d : Reg) (imm : BitVec 32) :
    BitVec.extractLsb' 53 3 (encL g opc d imm) = regBits g.ga :=
  Eq.trans (extract_high (m := 32) (n := 32) _ _ 53 3 (by omega)) (Eq.trans (extract_high (m := 29) (n := 3) _ _ 21 3 (by omega)) (Eq.trans (extract_high (m := 21) (n := 8) _ _ 18 3 (by omega)) (Eq.trans (extract_high (m := 17) (n := 4) _ _ 10 3 (by omega)) (Eq.trans (extract_high (m := 14) (n := 3) _ _ 6 3 (by omega)) (Eq.trans (extract_high (m := 11) (n := 3) _ _ 3 3 (by omega)) (Eq.trans (extract_low (m := 8) (n := 3) _ _ 0 3 (by omega)) (extract_all _)))))))
theorem encL_head_gb (g : Guard) (opc : BitVec 8) (d : Reg) (imm : BitVec 32) :
    BitVec.extractLsb' 50 3 (encL g opc d imm) = regBits g.gb :=
  Eq.trans (extract_high (m := 32) (n := 32) _ _ 50 3 (by omega)) (Eq.trans (extract_high (m := 29) (n := 3) _ _ 18 3 (by omega)) (Eq.trans (extract_high (m := 21) (n := 8) _ _ 15 3 (by omega)) (Eq.trans (extract_high (m := 17) (n := 4) _ _ 7 3 (by omega)) (Eq.trans (extract_high (m := 14) (n := 3) _ _ 3 3 (by omega)) (Eq.trans (extract_low (m := 11) (n := 3) _ _ 0 3 (by omega)) (extract_all _))))))
theorem encL_head_gc (g : Guard) (opc : BitVec 8) (d : Reg) (imm : BitVec 32) :
    BitVec.extractLsb' 47 3 (encL g opc d imm) = regBits g.gc :=
  Eq.trans (extract_high (m := 32) (n := 32) _ _ 47 3 (by omega)) (Eq.trans (extract_high (m := 29) (n := 3) _ _ 15 3 (by omega)) (Eq.trans (extract_high (m := 21) (n := 8) _ _ 12 3 (by omega)) (Eq.trans (extract_high (m := 17) (n := 4) _ _ 4 3 (by omega)) (Eq.trans (extract_low (m := 14) (n := 3) _ _ 0 3 (by omega)) (extract_all _)))))
theorem encL_head_la (g : Guard) (opc : BitVec 8) (d : Reg) (imm : BitVec 32) :
    BitVec.extractLsb' 43 4 (encL g opc d imm) = 0 :=
  Eq.trans (extract_high (m := 32) (n := 32) _ _ 43 4 (by omega)) (Eq.trans (extract_high (m := 29) (n := 3) _ _ 11 4 (by omega)) (Eq.trans (extract_high (m := 21) (n := 8) _ _ 8 4 (by omega)) (Eq.trans (extract_low (m := 17) (n := 4) _ _ 0 4 (by omega)) (extract_all _))))
theorem encL_head_opc (g : Guard) (opc : BitVec 8) (d : Reg) (imm : BitVec 32) :
    BitVec.extractLsb' 35 8 (encL g opc d imm) = opc :=
  Eq.trans (extract_high (m := 32) (n := 32) _ _ 35 8 (by omega)) (Eq.trans (extract_high (m := 29) (n := 3) _ _ 3 8 (by omega)) (Eq.trans (extract_low (m := 21) (n := 8) _ _ 0 8 (by omega)) (extract_all _)))
theorem encL_g (g : Guard) (opc : BitVec 8) (d : Reg) (imm : BitVec 32) : guardAt (encL g opc d imm) = g := by
  show Guard.mk (BitVec.extractLsb' 56 8 (encL g opc d imm)) (regAt (encL g opc d imm) 53) (regAt (encL g opc d imm) 50) (regAt (encL g opc d imm) 47) = g
  rw [encL_head_tt, regAt_of_bits _ _ _ (encL_head_ga g opc d imm), regAt_of_bits _ _ _ (encL_head_gb g opc d imm), regAt_of_bits _ _ _ (encL_head_gc g opc d imm)]
theorem encL_la (g : Guard) (opc : BitVec 8) (d : Reg) (imm : BitVec 32) : laAt (encL g opc d imm) = 0 := encL_head_la g opc d imm
theorem encL_opc (g : Guard) (opc : BitVec 8) (d : Reg) (imm : BitVec 32) : opcAt (encL g opc d imm) = opc := encL_head_opc g opc d imm

/-! #### encM -/

theorem encM_d (g : Guard) (la : BitVec 4) (opc : BitVec 8) (d : Reg) (a b : Src) (fn : BitVec 4) (ord : BitVec 2) (scope : BitVec 3) (off : BitVec 15) :
    regAt (encM g la opc d a b fn ord scope off) 32 = d :=
  regAt_of_bits _ _ _ (Eq.trans (extract_high (m := 49) (n := 15) _ _ 32 3 (by omega)) (Eq.trans (extract_high (m := 46) (n := 3) _ _ 17 3 (by omega)) (Eq.trans (extract_high (m := 44) (n := 2) _ _ 14 3 (by omega)) (Eq.trans (extract_high (m := 40) (n := 4) _ _ 12 3 (by omega)) (Eq.trans (extract_high (m := 36) (n := 4) _ _ 8 3 (by omega)) (Eq.trans (extract_high (m := 32) (n := 4) _ _ 4 3 (by omega)) (Eq.trans (extract_low (m := 29) (n := 3) _ _ 0 3 (by omega)) (extract_all _))))))))
theorem encM_a (g : Guard) (la : BitVec 4) (opc : BitVec 8) (d : Reg) (a b : Src) (fn : BitVec 4) (ord : BitVec 2) (scope : BitVec 3) (off : BitVec 15) :
    srcAt (encM g la opc d a b fn ord scope off) 28 = a :=
  srcAt_of_bits _ _ _ (Eq.trans (extract_high (m := 49) (n := 15) _ _ 28 4 (by omega)) (Eq.trans (extract_high (m := 46) (n := 3) _ _ 13 4 (by omega)) (Eq.trans (extract_high (m := 44) (n := 2) _ _ 10 4 (by omega)) (Eq.trans (extract_high (m := 40) (n := 4) _ _ 8 4 (by omega)) (Eq.trans (extract_high (m := 36) (n := 4) _ _ 4 4 (by omega)) (Eq.trans (extract_low (m := 32) (n := 4) _ _ 0 4 (by omega)) (extract_all _)))))))
theorem encM_b (g : Guard) (la : BitVec 4) (opc : BitVec 8) (d : Reg) (a b : Src) (fn : BitVec 4) (ord : BitVec 2) (scope : BitVec 3) (off : BitVec 15) :
    srcAt (encM g la opc d a b fn ord scope off) 24 = b :=
  srcAt_of_bits _ _ _ (Eq.trans (extract_high (m := 49) (n := 15) _ _ 24 4 (by omega)) (Eq.trans (extract_high (m := 46) (n := 3) _ _ 9 4 (by omega)) (Eq.trans (extract_high (m := 44) (n := 2) _ _ 6 4 (by omega)) (Eq.trans (extract_high (m := 40) (n := 4) _ _ 4 4 (by omega)) (Eq.trans (extract_low (m := 36) (n := 4) _ _ 0 4 (by omega)) (extract_all _))))))
theorem encM_fn (g : Guard) (la : BitVec 4) (opc : BitVec 8) (d : Reg) (a b : Src) (fn : BitVec 4) (ord : BitVec 2) (scope : BitVec 3) (off : BitVec 15) :
    bitsAt (encM g la opc d a b fn ord scope off) 20 4 = fn :=
  Eq.trans (extract_high (m := 49) (n := 15) _ _ 20 4 (by omega)) (Eq.trans (extract_high (m := 46) (n := 3) _ _ 5 4 (by omega)) (Eq.trans (extract_high (m := 44) (n := 2) _ _ 2 4 (by omega)) (Eq.trans (extract_low (m := 40) (n := 4) _ _ 0 4 (by omega)) (extract_all _))))
theorem encM_ord (g : Guard) (la : BitVec 4) (opc : BitVec 8) (d : Reg) (a b : Src) (fn : BitVec 4) (ord : BitVec 2) (scope : BitVec 3) (off : BitVec 15) :
    bitsAt (encM g la opc d a b fn ord scope off) 18 2 = ord :=
  Eq.trans (extract_high (m := 49) (n := 15) _ _ 18 2 (by omega)) (Eq.trans (extract_high (m := 46) (n := 3) _ _ 3 2 (by omega)) (Eq.trans (extract_low (m := 44) (n := 2) _ _ 0 2 (by omega)) (extract_all _)))
theorem encM_scope (g : Guard) (la : BitVec 4) (opc : BitVec 8) (d : Reg) (a b : Src) (fn : BitVec 4) (ord : BitVec 2) (scope : BitVec 3) (off : BitVec 15) :
    bitsAt (encM g la opc d a b fn ord scope off) 15 3 = scope :=
  Eq.trans (extract_high (m := 49) (n := 15) _ _ 15 3 (by omega)) (Eq.trans (extract_low (m := 46) (n := 3) _ _ 0 3 (by omega)) (extract_all _))
theorem encM_off (g : Guard) (la : BitVec 4) (opc : BitVec 8) (d : Reg) (a b : Src) (fn : BitVec 4) (ord : BitVec 2) (scope : BitVec 3) (off : BitVec 15) :
    bitsAt (encM g la opc d a b fn ord scope off) 0 15 = off :=
  Eq.trans (extract_low (m := 49) (n := 15) _ _ 0 15 (by omega)) (extract_all _)
theorem encM_head_tt (g : Guard) (la : BitVec 4) (opc : BitVec 8) (d : Reg) (a b : Src) (fn : BitVec 4) (ord : BitVec 2) (scope : BitVec 3) (off : BitVec 15) :
    BitVec.extractLsb' 56 8 (encM g la opc d a b fn ord scope off) = g.tt :=
  Eq.trans (extract_high (m := 49) (n := 15) _ _ 56 8 (by omega)) (Eq.trans (extract_high (m := 46) (n := 3) _ _ 41 8 (by omega)) (Eq.trans (extract_high (m := 44) (n := 2) _ _ 38 8 (by omega)) (Eq.trans (extract_high (m := 40) (n := 4) _ _ 36 8 (by omega)) (Eq.trans (extract_high (m := 36) (n := 4) _ _ 32 8 (by omega)) (Eq.trans (extract_high (m := 32) (n := 4) _ _ 28 8 (by omega)) (Eq.trans (extract_high (m := 29) (n := 3) _ _ 24 8 (by omega)) (Eq.trans (extract_high (m := 21) (n := 8) _ _ 21 8 (by omega)) (Eq.trans (extract_high (m := 17) (n := 4) _ _ 13 8 (by omega)) (Eq.trans (extract_high (m := 14) (n := 3) _ _ 9 8 (by omega)) (Eq.trans (extract_high (m := 11) (n := 3) _ _ 6 8 (by omega)) (Eq.trans (extract_high (m := 8) (n := 3) _ _ 3 8 (by omega)) (extract_all _))))))))))))
theorem encM_head_ga (g : Guard) (la : BitVec 4) (opc : BitVec 8) (d : Reg) (a b : Src) (fn : BitVec 4) (ord : BitVec 2) (scope : BitVec 3) (off : BitVec 15) :
    BitVec.extractLsb' 53 3 (encM g la opc d a b fn ord scope off) = regBits g.ga :=
  Eq.trans (extract_high (m := 49) (n := 15) _ _ 53 3 (by omega)) (Eq.trans (extract_high (m := 46) (n := 3) _ _ 38 3 (by omega)) (Eq.trans (extract_high (m := 44) (n := 2) _ _ 35 3 (by omega)) (Eq.trans (extract_high (m := 40) (n := 4) _ _ 33 3 (by omega)) (Eq.trans (extract_high (m := 36) (n := 4) _ _ 29 3 (by omega)) (Eq.trans (extract_high (m := 32) (n := 4) _ _ 25 3 (by omega)) (Eq.trans (extract_high (m := 29) (n := 3) _ _ 21 3 (by omega)) (Eq.trans (extract_high (m := 21) (n := 8) _ _ 18 3 (by omega)) (Eq.trans (extract_high (m := 17) (n := 4) _ _ 10 3 (by omega)) (Eq.trans (extract_high (m := 14) (n := 3) _ _ 6 3 (by omega)) (Eq.trans (extract_high (m := 11) (n := 3) _ _ 3 3 (by omega)) (Eq.trans (extract_low (m := 8) (n := 3) _ _ 0 3 (by omega)) (extract_all _))))))))))))
theorem encM_head_gb (g : Guard) (la : BitVec 4) (opc : BitVec 8) (d : Reg) (a b : Src) (fn : BitVec 4) (ord : BitVec 2) (scope : BitVec 3) (off : BitVec 15) :
    BitVec.extractLsb' 50 3 (encM g la opc d a b fn ord scope off) = regBits g.gb :=
  Eq.trans (extract_high (m := 49) (n := 15) _ _ 50 3 (by omega)) (Eq.trans (extract_high (m := 46) (n := 3) _ _ 35 3 (by omega)) (Eq.trans (extract_high (m := 44) (n := 2) _ _ 32 3 (by omega)) (Eq.trans (extract_high (m := 40) (n := 4) _ _ 30 3 (by omega)) (Eq.trans (extract_high (m := 36) (n := 4) _ _ 26 3 (by omega)) (Eq.trans (extract_high (m := 32) (n := 4) _ _ 22 3 (by omega)) (Eq.trans (extract_high (m := 29) (n := 3) _ _ 18 3 (by omega)) (Eq.trans (extract_high (m := 21) (n := 8) _ _ 15 3 (by omega)) (Eq.trans (extract_high (m := 17) (n := 4) _ _ 7 3 (by omega)) (Eq.trans (extract_high (m := 14) (n := 3) _ _ 3 3 (by omega)) (Eq.trans (extract_low (m := 11) (n := 3) _ _ 0 3 (by omega)) (extract_all _)))))))))))
theorem encM_head_gc (g : Guard) (la : BitVec 4) (opc : BitVec 8) (d : Reg) (a b : Src) (fn : BitVec 4) (ord : BitVec 2) (scope : BitVec 3) (off : BitVec 15) :
    BitVec.extractLsb' 47 3 (encM g la opc d a b fn ord scope off) = regBits g.gc :=
  Eq.trans (extract_high (m := 49) (n := 15) _ _ 47 3 (by omega)) (Eq.trans (extract_high (m := 46) (n := 3) _ _ 32 3 (by omega)) (Eq.trans (extract_high (m := 44) (n := 2) _ _ 29 3 (by omega)) (Eq.trans (extract_high (m := 40) (n := 4) _ _ 27 3 (by omega)) (Eq.trans (extract_high (m := 36) (n := 4) _ _ 23 3 (by omega)) (Eq.trans (extract_high (m := 32) (n := 4) _ _ 19 3 (by omega)) (Eq.trans (extract_high (m := 29) (n := 3) _ _ 15 3 (by omega)) (Eq.trans (extract_high (m := 21) (n := 8) _ _ 12 3 (by omega)) (Eq.trans (extract_high (m := 17) (n := 4) _ _ 4 3 (by omega)) (Eq.trans (extract_low (m := 14) (n := 3) _ _ 0 3 (by omega)) (extract_all _))))))))))
theorem encM_head_la (g : Guard) (la : BitVec 4) (opc : BitVec 8) (d : Reg) (a b : Src) (fn : BitVec 4) (ord : BitVec 2) (scope : BitVec 3) (off : BitVec 15) :
    BitVec.extractLsb' 43 4 (encM g la opc d a b fn ord scope off) = la :=
  Eq.trans (extract_high (m := 49) (n := 15) _ _ 43 4 (by omega)) (Eq.trans (extract_high (m := 46) (n := 3) _ _ 28 4 (by omega)) (Eq.trans (extract_high (m := 44) (n := 2) _ _ 25 4 (by omega)) (Eq.trans (extract_high (m := 40) (n := 4) _ _ 23 4 (by omega)) (Eq.trans (extract_high (m := 36) (n := 4) _ _ 19 4 (by omega)) (Eq.trans (extract_high (m := 32) (n := 4) _ _ 15 4 (by omega)) (Eq.trans (extract_high (m := 29) (n := 3) _ _ 11 4 (by omega)) (Eq.trans (extract_high (m := 21) (n := 8) _ _ 8 4 (by omega)) (Eq.trans (extract_low (m := 17) (n := 4) _ _ 0 4 (by omega)) (extract_all _)))))))))
theorem encM_head_opc (g : Guard) (la : BitVec 4) (opc : BitVec 8) (d : Reg) (a b : Src) (fn : BitVec 4) (ord : BitVec 2) (scope : BitVec 3) (off : BitVec 15) :
    BitVec.extractLsb' 35 8 (encM g la opc d a b fn ord scope off) = opc :=
  Eq.trans (extract_high (m := 49) (n := 15) _ _ 35 8 (by omega)) (Eq.trans (extract_high (m := 46) (n := 3) _ _ 20 8 (by omega)) (Eq.trans (extract_high (m := 44) (n := 2) _ _ 17 8 (by omega)) (Eq.trans (extract_high (m := 40) (n := 4) _ _ 15 8 (by omega)) (Eq.trans (extract_high (m := 36) (n := 4) _ _ 11 8 (by omega)) (Eq.trans (extract_high (m := 32) (n := 4) _ _ 7 8 (by omega)) (Eq.trans (extract_high (m := 29) (n := 3) _ _ 3 8 (by omega)) (Eq.trans (extract_low (m := 21) (n := 8) _ _ 0 8 (by omega)) (extract_all _))))))))
theorem encM_g (g : Guard) (la : BitVec 4) (opc : BitVec 8) (d : Reg) (a b : Src) (fn : BitVec 4) (ord : BitVec 2) (scope : BitVec 3) (off : BitVec 15) : guardAt (encM g la opc d a b fn ord scope off) = g := by
  show Guard.mk (BitVec.extractLsb' 56 8 (encM g la opc d a b fn ord scope off)) (regAt (encM g la opc d a b fn ord scope off) 53) (regAt (encM g la opc d a b fn ord scope off) 50) (regAt (encM g la opc d a b fn ord scope off) 47) = g
  rw [encM_head_tt, regAt_of_bits _ _ _ (encM_head_ga g la opc d a b fn ord scope off), regAt_of_bits _ _ _ (encM_head_gb g la opc d a b fn ord scope off), regAt_of_bits _ _ _ (encM_head_gc g la opc d a b fn ord scope off)]
theorem encM_la (g : Guard) (la : BitVec 4) (opc : BitVec 8) (d : Reg) (a b : Src) (fn : BitVec 4) (ord : BitVec 2) (scope : BitVec 3) (off : BitVec 15) : laAt (encM g la opc d a b fn ord scope off) = la := encM_head_la g la opc d a b fn ord scope off
theorem encM_opc (g : Guard) (la : BitVec 4) (opc : BitVec 8) (d : Reg) (a b : Src) (fn : BitVec 4) (ord : BitVec 2) (scope : BitVec 3) (off : BitVec 15) : opcAt (encM g la opc d a b fn ord scope off) = opc := encM_head_opc g la opc d a b fn ord scope off

/-! #### encP -/

theorem encP_pk (g : Guard) (opc : BitVec 8) (pk cm : BitVec 2) (a b : Src) (cc : BitVec 4) (sz fk : BitVec 2) :
    bitsAt (encP g opc pk cm a b cc sz fk) 33 2 = pk :=
  Eq.trans (extract_high (m := 49) (n := 15) _ _ 33 2 (by omega)) (Eq.trans (extract_high (m := 47) (n := 2) _ _ 18 2 (by omega)) (Eq.trans (extract_high (m := 45) (n := 2) _ _ 16 2 (by omega)) (Eq.trans (extract_high (m := 41) (n := 4) _ _ 14 2 (by omega)) (Eq.trans (extract_high (m := 37) (n := 4) _ _ 10 2 (by omega)) (Eq.trans (extract_high (m := 33) (n := 4) _ _ 6 2 (by omega)) (Eq.trans (extract_high (m := 31) (n := 2) _ _ 2 2 (by omega)) (Eq.trans (extract_low (m := 29) (n := 2) _ _ 0 2 (by omega)) (extract_all _))))))))
theorem encP_cm (g : Guard) (opc : BitVec 8) (pk cm : BitVec 2) (a b : Src) (cc : BitVec 4) (sz fk : BitVec 2) :
    bitsAt (encP g opc pk cm a b cc sz fk) 31 2 = cm :=
  Eq.trans (extract_high (m := 49) (n := 15) _ _ 31 2 (by omega)) (Eq.trans (extract_high (m := 47) (n := 2) _ _ 16 2 (by omega)) (Eq.trans (extract_high (m := 45) (n := 2) _ _ 14 2 (by omega)) (Eq.trans (extract_high (m := 41) (n := 4) _ _ 12 2 (by omega)) (Eq.trans (extract_high (m := 37) (n := 4) _ _ 8 2 (by omega)) (Eq.trans (extract_high (m := 33) (n := 4) _ _ 4 2 (by omega)) (Eq.trans (extract_low (m := 31) (n := 2) _ _ 0 2 (by omega)) (extract_all _)))))))
theorem encP_a (g : Guard) (opc : BitVec 8) (pk cm : BitVec 2) (a b : Src) (cc : BitVec 4) (sz fk : BitVec 2) :
    srcAt (encP g opc pk cm a b cc sz fk) 27 = a :=
  srcAt_of_bits _ _ _ (Eq.trans (extract_high (m := 49) (n := 15) _ _ 27 4 (by omega)) (Eq.trans (extract_high (m := 47) (n := 2) _ _ 12 4 (by omega)) (Eq.trans (extract_high (m := 45) (n := 2) _ _ 10 4 (by omega)) (Eq.trans (extract_high (m := 41) (n := 4) _ _ 8 4 (by omega)) (Eq.trans (extract_high (m := 37) (n := 4) _ _ 4 4 (by omega)) (Eq.trans (extract_low (m := 33) (n := 4) _ _ 0 4 (by omega)) (extract_all _)))))))
theorem encP_b (g : Guard) (opc : BitVec 8) (pk cm : BitVec 2) (a b : Src) (cc : BitVec 4) (sz fk : BitVec 2) :
    srcAt (encP g opc pk cm a b cc sz fk) 23 = b :=
  srcAt_of_bits _ _ _ (Eq.trans (extract_high (m := 49) (n := 15) _ _ 23 4 (by omega)) (Eq.trans (extract_high (m := 47) (n := 2) _ _ 8 4 (by omega)) (Eq.trans (extract_high (m := 45) (n := 2) _ _ 6 4 (by omega)) (Eq.trans (extract_high (m := 41) (n := 4) _ _ 4 4 (by omega)) (Eq.trans (extract_low (m := 37) (n := 4) _ _ 0 4 (by omega)) (extract_all _))))))
theorem encP_cc (g : Guard) (opc : BitVec 8) (pk cm : BitVec 2) (a b : Src) (cc : BitVec 4) (sz fk : BitVec 2) :
    bitsAt (encP g opc pk cm a b cc sz fk) 19 4 = cc :=
  Eq.trans (extract_high (m := 49) (n := 15) _ _ 19 4 (by omega)) (Eq.trans (extract_high (m := 47) (n := 2) _ _ 4 4 (by omega)) (Eq.trans (extract_high (m := 45) (n := 2) _ _ 2 4 (by omega)) (Eq.trans (extract_low (m := 41) (n := 4) _ _ 0 4 (by omega)) (extract_all _))))
theorem encP_sz (g : Guard) (opc : BitVec 8) (pk cm : BitVec 2) (a b : Src) (cc : BitVec 4) (sz fk : BitVec 2) :
    bitsAt (encP g opc pk cm a b cc sz fk) 17 2 = sz :=
  Eq.trans (extract_high (m := 49) (n := 15) _ _ 17 2 (by omega)) (Eq.trans (extract_high (m := 47) (n := 2) _ _ 2 2 (by omega)) (Eq.trans (extract_low (m := 45) (n := 2) _ _ 0 2 (by omega)) (extract_all _)))
theorem encP_fk (g : Guard) (opc : BitVec 8) (pk cm : BitVec 2) (a b : Src) (cc : BitVec 4) (sz fk : BitVec 2) :
    bitsAt (encP g opc pk cm a b cc sz fk) 15 2 = fk :=
  Eq.trans (extract_high (m := 49) (n := 15) _ _ 15 2 (by omega)) (Eq.trans (extract_low (m := 47) (n := 2) _ _ 0 2 (by omega)) (extract_all _))
theorem encP_head_tt (g : Guard) (opc : BitVec 8) (pk cm : BitVec 2) (a b : Src) (cc : BitVec 4) (sz fk : BitVec 2) :
    BitVec.extractLsb' 56 8 (encP g opc pk cm a b cc sz fk) = g.tt :=
  Eq.trans (extract_high (m := 49) (n := 15) _ _ 56 8 (by omega)) (Eq.trans (extract_high (m := 47) (n := 2) _ _ 41 8 (by omega)) (Eq.trans (extract_high (m := 45) (n := 2) _ _ 39 8 (by omega)) (Eq.trans (extract_high (m := 41) (n := 4) _ _ 37 8 (by omega)) (Eq.trans (extract_high (m := 37) (n := 4) _ _ 33 8 (by omega)) (Eq.trans (extract_high (m := 33) (n := 4) _ _ 29 8 (by omega)) (Eq.trans (extract_high (m := 31) (n := 2) _ _ 25 8 (by omega)) (Eq.trans (extract_high (m := 29) (n := 2) _ _ 23 8 (by omega)) (Eq.trans (extract_high (m := 21) (n := 8) _ _ 21 8 (by omega)) (Eq.trans (extract_high (m := 17) (n := 4) _ _ 13 8 (by omega)) (Eq.trans (extract_high (m := 14) (n := 3) _ _ 9 8 (by omega)) (Eq.trans (extract_high (m := 11) (n := 3) _ _ 6 8 (by omega)) (Eq.trans (extract_high (m := 8) (n := 3) _ _ 3 8 (by omega)) (extract_all _)))))))))))))
theorem encP_head_ga (g : Guard) (opc : BitVec 8) (pk cm : BitVec 2) (a b : Src) (cc : BitVec 4) (sz fk : BitVec 2) :
    BitVec.extractLsb' 53 3 (encP g opc pk cm a b cc sz fk) = regBits g.ga :=
  Eq.trans (extract_high (m := 49) (n := 15) _ _ 53 3 (by omega)) (Eq.trans (extract_high (m := 47) (n := 2) _ _ 38 3 (by omega)) (Eq.trans (extract_high (m := 45) (n := 2) _ _ 36 3 (by omega)) (Eq.trans (extract_high (m := 41) (n := 4) _ _ 34 3 (by omega)) (Eq.trans (extract_high (m := 37) (n := 4) _ _ 30 3 (by omega)) (Eq.trans (extract_high (m := 33) (n := 4) _ _ 26 3 (by omega)) (Eq.trans (extract_high (m := 31) (n := 2) _ _ 22 3 (by omega)) (Eq.trans (extract_high (m := 29) (n := 2) _ _ 20 3 (by omega)) (Eq.trans (extract_high (m := 21) (n := 8) _ _ 18 3 (by omega)) (Eq.trans (extract_high (m := 17) (n := 4) _ _ 10 3 (by omega)) (Eq.trans (extract_high (m := 14) (n := 3) _ _ 6 3 (by omega)) (Eq.trans (extract_high (m := 11) (n := 3) _ _ 3 3 (by omega)) (Eq.trans (extract_low (m := 8) (n := 3) _ _ 0 3 (by omega)) (extract_all _)))))))))))))
theorem encP_head_gb (g : Guard) (opc : BitVec 8) (pk cm : BitVec 2) (a b : Src) (cc : BitVec 4) (sz fk : BitVec 2) :
    BitVec.extractLsb' 50 3 (encP g opc pk cm a b cc sz fk) = regBits g.gb :=
  Eq.trans (extract_high (m := 49) (n := 15) _ _ 50 3 (by omega)) (Eq.trans (extract_high (m := 47) (n := 2) _ _ 35 3 (by omega)) (Eq.trans (extract_high (m := 45) (n := 2) _ _ 33 3 (by omega)) (Eq.trans (extract_high (m := 41) (n := 4) _ _ 31 3 (by omega)) (Eq.trans (extract_high (m := 37) (n := 4) _ _ 27 3 (by omega)) (Eq.trans (extract_high (m := 33) (n := 4) _ _ 23 3 (by omega)) (Eq.trans (extract_high (m := 31) (n := 2) _ _ 19 3 (by omega)) (Eq.trans (extract_high (m := 29) (n := 2) _ _ 17 3 (by omega)) (Eq.trans (extract_high (m := 21) (n := 8) _ _ 15 3 (by omega)) (Eq.trans (extract_high (m := 17) (n := 4) _ _ 7 3 (by omega)) (Eq.trans (extract_high (m := 14) (n := 3) _ _ 3 3 (by omega)) (Eq.trans (extract_low (m := 11) (n := 3) _ _ 0 3 (by omega)) (extract_all _))))))))))))
theorem encP_head_gc (g : Guard) (opc : BitVec 8) (pk cm : BitVec 2) (a b : Src) (cc : BitVec 4) (sz fk : BitVec 2) :
    BitVec.extractLsb' 47 3 (encP g opc pk cm a b cc sz fk) = regBits g.gc :=
  Eq.trans (extract_high (m := 49) (n := 15) _ _ 47 3 (by omega)) (Eq.trans (extract_high (m := 47) (n := 2) _ _ 32 3 (by omega)) (Eq.trans (extract_high (m := 45) (n := 2) _ _ 30 3 (by omega)) (Eq.trans (extract_high (m := 41) (n := 4) _ _ 28 3 (by omega)) (Eq.trans (extract_high (m := 37) (n := 4) _ _ 24 3 (by omega)) (Eq.trans (extract_high (m := 33) (n := 4) _ _ 20 3 (by omega)) (Eq.trans (extract_high (m := 31) (n := 2) _ _ 16 3 (by omega)) (Eq.trans (extract_high (m := 29) (n := 2) _ _ 14 3 (by omega)) (Eq.trans (extract_high (m := 21) (n := 8) _ _ 12 3 (by omega)) (Eq.trans (extract_high (m := 17) (n := 4) _ _ 4 3 (by omega)) (Eq.trans (extract_low (m := 14) (n := 3) _ _ 0 3 (by omega)) (extract_all _)))))))))))
theorem encP_head_la (g : Guard) (opc : BitVec 8) (pk cm : BitVec 2) (a b : Src) (cc : BitVec 4) (sz fk : BitVec 2) :
    BitVec.extractLsb' 43 4 (encP g opc pk cm a b cc sz fk) = 0 :=
  Eq.trans (extract_high (m := 49) (n := 15) _ _ 43 4 (by omega)) (Eq.trans (extract_high (m := 47) (n := 2) _ _ 28 4 (by omega)) (Eq.trans (extract_high (m := 45) (n := 2) _ _ 26 4 (by omega)) (Eq.trans (extract_high (m := 41) (n := 4) _ _ 24 4 (by omega)) (Eq.trans (extract_high (m := 37) (n := 4) _ _ 20 4 (by omega)) (Eq.trans (extract_high (m := 33) (n := 4) _ _ 16 4 (by omega)) (Eq.trans (extract_high (m := 31) (n := 2) _ _ 12 4 (by omega)) (Eq.trans (extract_high (m := 29) (n := 2) _ _ 10 4 (by omega)) (Eq.trans (extract_high (m := 21) (n := 8) _ _ 8 4 (by omega)) (Eq.trans (extract_low (m := 17) (n := 4) _ _ 0 4 (by omega)) (extract_all _))))))))))
theorem encP_head_opc (g : Guard) (opc : BitVec 8) (pk cm : BitVec 2) (a b : Src) (cc : BitVec 4) (sz fk : BitVec 2) :
    BitVec.extractLsb' 35 8 (encP g opc pk cm a b cc sz fk) = opc :=
  Eq.trans (extract_high (m := 49) (n := 15) _ _ 35 8 (by omega)) (Eq.trans (extract_high (m := 47) (n := 2) _ _ 20 8 (by omega)) (Eq.trans (extract_high (m := 45) (n := 2) _ _ 18 8 (by omega)) (Eq.trans (extract_high (m := 41) (n := 4) _ _ 16 8 (by omega)) (Eq.trans (extract_high (m := 37) (n := 4) _ _ 12 8 (by omega)) (Eq.trans (extract_high (m := 33) (n := 4) _ _ 8 8 (by omega)) (Eq.trans (extract_high (m := 31) (n := 2) _ _ 4 8 (by omega)) (Eq.trans (extract_high (m := 29) (n := 2) _ _ 2 8 (by omega)) (Eq.trans (extract_low (m := 21) (n := 8) _ _ 0 8 (by omega)) (extract_all _)))))))))
theorem encP_g (g : Guard) (opc : BitVec 8) (pk cm : BitVec 2) (a b : Src) (cc : BitVec 4) (sz fk : BitVec 2) : guardAt (encP g opc pk cm a b cc sz fk) = g := by
  show Guard.mk (BitVec.extractLsb' 56 8 (encP g opc pk cm a b cc sz fk)) (regAt (encP g opc pk cm a b cc sz fk) 53) (regAt (encP g opc pk cm a b cc sz fk) 50) (regAt (encP g opc pk cm a b cc sz fk) 47) = g
  rw [encP_head_tt, regAt_of_bits _ _ _ (encP_head_ga g opc pk cm a b cc sz fk), regAt_of_bits _ _ _ (encP_head_gb g opc pk cm a b cc sz fk), regAt_of_bits _ _ _ (encP_head_gc g opc pk cm a b cc sz fk)]
theorem encP_la (g : Guard) (opc : BitVec 8) (pk cm : BitVec 2) (a b : Src) (cc : BitVec 4) (sz fk : BitVec 2) : laAt (encP g opc pk cm a b cc sz fk) = 0 := encP_head_la g opc pk cm a b cc sz fk
theorem encP_opc (g : Guard) (opc : BitVec 8) (pk cm : BitVec 2) (a b : Src) (cc : BitVec 4) (sz fk : BitVec 2) : opcAt (encP g opc pk cm a b cc sz fk) = opc := encP_head_opc g opc pk cm a b cc sz fk

/-! #### encPI -/

theorem encPI_pk (g : Guard) (opc : BitVec 8) (pk cm : BitVec 2) (a : Src) (cc : BitVec 4) (imm : BitVec 23) :
    bitsAt (encPI g opc pk cm a cc imm) 33 2 = pk :=
  Eq.trans (extract_high (m := 41) (n := 23) _ _ 33 2 (by omega)) (Eq.trans (extract_high (m := 37) (n := 4) _ _ 10 2 (by omega)) (Eq.trans (extract_high (m := 33) (n := 4) _ _ 6 2 (by omega)) (Eq.trans (extract_high (m := 31) (n := 2) _ _ 2 2 (by omega)) (Eq.trans (extract_low (m := 29) (n := 2) _ _ 0 2 (by omega)) (extract_all _)))))
theorem encPI_cm (g : Guard) (opc : BitVec 8) (pk cm : BitVec 2) (a : Src) (cc : BitVec 4) (imm : BitVec 23) :
    bitsAt (encPI g opc pk cm a cc imm) 31 2 = cm :=
  Eq.trans (extract_high (m := 41) (n := 23) _ _ 31 2 (by omega)) (Eq.trans (extract_high (m := 37) (n := 4) _ _ 8 2 (by omega)) (Eq.trans (extract_high (m := 33) (n := 4) _ _ 4 2 (by omega)) (Eq.trans (extract_low (m := 31) (n := 2) _ _ 0 2 (by omega)) (extract_all _))))
theorem encPI_a (g : Guard) (opc : BitVec 8) (pk cm : BitVec 2) (a : Src) (cc : BitVec 4) (imm : BitVec 23) :
    srcAt (encPI g opc pk cm a cc imm) 27 = a :=
  srcAt_of_bits _ _ _ (Eq.trans (extract_high (m := 41) (n := 23) _ _ 27 4 (by omega)) (Eq.trans (extract_high (m := 37) (n := 4) _ _ 4 4 (by omega)) (Eq.trans (extract_low (m := 33) (n := 4) _ _ 0 4 (by omega)) (extract_all _))))
theorem encPI_cc (g : Guard) (opc : BitVec 8) (pk cm : BitVec 2) (a : Src) (cc : BitVec 4) (imm : BitVec 23) :
    bitsAt (encPI g opc pk cm a cc imm) 23 4 = cc :=
  Eq.trans (extract_high (m := 41) (n := 23) _ _ 23 4 (by omega)) (Eq.trans (extract_low (m := 37) (n := 4) _ _ 0 4 (by omega)) (extract_all _))
theorem encPI_imm (g : Guard) (opc : BitVec 8) (pk cm : BitVec 2) (a : Src) (cc : BitVec 4) (imm : BitVec 23) :
    bitsAt (encPI g opc pk cm a cc imm) 0 23 = imm :=
  Eq.trans (extract_low (m := 41) (n := 23) _ _ 0 23 (by omega)) (extract_all _)
theorem encPI_head_tt (g : Guard) (opc : BitVec 8) (pk cm : BitVec 2) (a : Src) (cc : BitVec 4) (imm : BitVec 23) :
    BitVec.extractLsb' 56 8 (encPI g opc pk cm a cc imm) = g.tt :=
  Eq.trans (extract_high (m := 41) (n := 23) _ _ 56 8 (by omega)) (Eq.trans (extract_high (m := 37) (n := 4) _ _ 33 8 (by omega)) (Eq.trans (extract_high (m := 33) (n := 4) _ _ 29 8 (by omega)) (Eq.trans (extract_high (m := 31) (n := 2) _ _ 25 8 (by omega)) (Eq.trans (extract_high (m := 29) (n := 2) _ _ 23 8 (by omega)) (Eq.trans (extract_high (m := 21) (n := 8) _ _ 21 8 (by omega)) (Eq.trans (extract_high (m := 17) (n := 4) _ _ 13 8 (by omega)) (Eq.trans (extract_high (m := 14) (n := 3) _ _ 9 8 (by omega)) (Eq.trans (extract_high (m := 11) (n := 3) _ _ 6 8 (by omega)) (Eq.trans (extract_high (m := 8) (n := 3) _ _ 3 8 (by omega)) (extract_all _))))))))))
theorem encPI_head_ga (g : Guard) (opc : BitVec 8) (pk cm : BitVec 2) (a : Src) (cc : BitVec 4) (imm : BitVec 23) :
    BitVec.extractLsb' 53 3 (encPI g opc pk cm a cc imm) = regBits g.ga :=
  Eq.trans (extract_high (m := 41) (n := 23) _ _ 53 3 (by omega)) (Eq.trans (extract_high (m := 37) (n := 4) _ _ 30 3 (by omega)) (Eq.trans (extract_high (m := 33) (n := 4) _ _ 26 3 (by omega)) (Eq.trans (extract_high (m := 31) (n := 2) _ _ 22 3 (by omega)) (Eq.trans (extract_high (m := 29) (n := 2) _ _ 20 3 (by omega)) (Eq.trans (extract_high (m := 21) (n := 8) _ _ 18 3 (by omega)) (Eq.trans (extract_high (m := 17) (n := 4) _ _ 10 3 (by omega)) (Eq.trans (extract_high (m := 14) (n := 3) _ _ 6 3 (by omega)) (Eq.trans (extract_high (m := 11) (n := 3) _ _ 3 3 (by omega)) (Eq.trans (extract_low (m := 8) (n := 3) _ _ 0 3 (by omega)) (extract_all _))))))))))
theorem encPI_head_gb (g : Guard) (opc : BitVec 8) (pk cm : BitVec 2) (a : Src) (cc : BitVec 4) (imm : BitVec 23) :
    BitVec.extractLsb' 50 3 (encPI g opc pk cm a cc imm) = regBits g.gb :=
  Eq.trans (extract_high (m := 41) (n := 23) _ _ 50 3 (by omega)) (Eq.trans (extract_high (m := 37) (n := 4) _ _ 27 3 (by omega)) (Eq.trans (extract_high (m := 33) (n := 4) _ _ 23 3 (by omega)) (Eq.trans (extract_high (m := 31) (n := 2) _ _ 19 3 (by omega)) (Eq.trans (extract_high (m := 29) (n := 2) _ _ 17 3 (by omega)) (Eq.trans (extract_high (m := 21) (n := 8) _ _ 15 3 (by omega)) (Eq.trans (extract_high (m := 17) (n := 4) _ _ 7 3 (by omega)) (Eq.trans (extract_high (m := 14) (n := 3) _ _ 3 3 (by omega)) (Eq.trans (extract_low (m := 11) (n := 3) _ _ 0 3 (by omega)) (extract_all _)))))))))
theorem encPI_head_gc (g : Guard) (opc : BitVec 8) (pk cm : BitVec 2) (a : Src) (cc : BitVec 4) (imm : BitVec 23) :
    BitVec.extractLsb' 47 3 (encPI g opc pk cm a cc imm) = regBits g.gc :=
  Eq.trans (extract_high (m := 41) (n := 23) _ _ 47 3 (by omega)) (Eq.trans (extract_high (m := 37) (n := 4) _ _ 24 3 (by omega)) (Eq.trans (extract_high (m := 33) (n := 4) _ _ 20 3 (by omega)) (Eq.trans (extract_high (m := 31) (n := 2) _ _ 16 3 (by omega)) (Eq.trans (extract_high (m := 29) (n := 2) _ _ 14 3 (by omega)) (Eq.trans (extract_high (m := 21) (n := 8) _ _ 12 3 (by omega)) (Eq.trans (extract_high (m := 17) (n := 4) _ _ 4 3 (by omega)) (Eq.trans (extract_low (m := 14) (n := 3) _ _ 0 3 (by omega)) (extract_all _))))))))
theorem encPI_head_la (g : Guard) (opc : BitVec 8) (pk cm : BitVec 2) (a : Src) (cc : BitVec 4) (imm : BitVec 23) :
    BitVec.extractLsb' 43 4 (encPI g opc pk cm a cc imm) = 0 :=
  Eq.trans (extract_high (m := 41) (n := 23) _ _ 43 4 (by omega)) (Eq.trans (extract_high (m := 37) (n := 4) _ _ 20 4 (by omega)) (Eq.trans (extract_high (m := 33) (n := 4) _ _ 16 4 (by omega)) (Eq.trans (extract_high (m := 31) (n := 2) _ _ 12 4 (by omega)) (Eq.trans (extract_high (m := 29) (n := 2) _ _ 10 4 (by omega)) (Eq.trans (extract_high (m := 21) (n := 8) _ _ 8 4 (by omega)) (Eq.trans (extract_low (m := 17) (n := 4) _ _ 0 4 (by omega)) (extract_all _)))))))
theorem encPI_head_opc (g : Guard) (opc : BitVec 8) (pk cm : BitVec 2) (a : Src) (cc : BitVec 4) (imm : BitVec 23) :
    BitVec.extractLsb' 35 8 (encPI g opc pk cm a cc imm) = opc :=
  Eq.trans (extract_high (m := 41) (n := 23) _ _ 35 8 (by omega)) (Eq.trans (extract_high (m := 37) (n := 4) _ _ 12 8 (by omega)) (Eq.trans (extract_high (m := 33) (n := 4) _ _ 8 8 (by omega)) (Eq.trans (extract_high (m := 31) (n := 2) _ _ 4 8 (by omega)) (Eq.trans (extract_high (m := 29) (n := 2) _ _ 2 8 (by omega)) (Eq.trans (extract_low (m := 21) (n := 8) _ _ 0 8 (by omega)) (extract_all _))))))
theorem encPI_g (g : Guard) (opc : BitVec 8) (pk cm : BitVec 2) (a : Src) (cc : BitVec 4) (imm : BitVec 23) : guardAt (encPI g opc pk cm a cc imm) = g := by
  show Guard.mk (BitVec.extractLsb' 56 8 (encPI g opc pk cm a cc imm)) (regAt (encPI g opc pk cm a cc imm) 53) (regAt (encPI g opc pk cm a cc imm) 50) (regAt (encPI g opc pk cm a cc imm) 47) = g
  rw [encPI_head_tt, regAt_of_bits _ _ _ (encPI_head_ga g opc pk cm a cc imm), regAt_of_bits _ _ _ (encPI_head_gb g opc pk cm a cc imm), regAt_of_bits _ _ _ (encPI_head_gc g opc pk cm a cc imm)]
theorem encPI_la (g : Guard) (opc : BitVec 8) (pk cm : BitVec 2) (a : Src) (cc : BitVec 4) (imm : BitVec 23) : laAt (encPI g opc pk cm a cc imm) = 0 := encPI_head_la g opc pk cm a cc imm
theorem encPI_opc (g : Guard) (opc : BitVec 8) (pk cm : BitVec 2) (a : Src) (cc : BitVec 4) (imm : BitVec 23) : opcAt (encPI g opc pk cm a cc imm) = opc := encPI_head_opc g opc pk cm a cc imm

/-! #### encPL -/

theorem encPL_x (g : Guard) (opc : BitVec 8) (x y z v : Reg) (tbl : BitVec 8) (fn : BitVec 3) :
    regAt (encPL g opc x y z v tbl fn) 32 = x :=
  regAt_of_bits _ _ _ (Eq.trans (extract_high (m := 52) (n := 12) _ _ 32 3 (by omega)) (Eq.trans (extract_high (m := 49) (n := 3) _ _ 20 3 (by omega)) (Eq.trans (extract_high (m := 41) (n := 8) _ _ 17 3 (by omega)) (Eq.trans (extract_high (m := 38) (n := 3) _ _ 9 3 (by omega)) (Eq.trans (extract_high (m := 35) (n := 3) _ _ 6 3 (by omega)) (Eq.trans (extract_high (m := 32) (n := 3) _ _ 3 3 (by omega)) (Eq.trans (extract_low (m := 29) (n := 3) _ _ 0 3 (by omega)) (extract_all _))))))))
theorem encPL_y (g : Guard) (opc : BitVec 8) (x y z v : Reg) (tbl : BitVec 8) (fn : BitVec 3) :
    regAt (encPL g opc x y z v tbl fn) 29 = y :=
  regAt_of_bits _ _ _ (Eq.trans (extract_high (m := 52) (n := 12) _ _ 29 3 (by omega)) (Eq.trans (extract_high (m := 49) (n := 3) _ _ 17 3 (by omega)) (Eq.trans (extract_high (m := 41) (n := 8) _ _ 14 3 (by omega)) (Eq.trans (extract_high (m := 38) (n := 3) _ _ 6 3 (by omega)) (Eq.trans (extract_high (m := 35) (n := 3) _ _ 3 3 (by omega)) (Eq.trans (extract_low (m := 32) (n := 3) _ _ 0 3 (by omega)) (extract_all _)))))))
theorem encPL_z (g : Guard) (opc : BitVec 8) (x y z v : Reg) (tbl : BitVec 8) (fn : BitVec 3) :
    regAt (encPL g opc x y z v tbl fn) 26 = z :=
  regAt_of_bits _ _ _ (Eq.trans (extract_high (m := 52) (n := 12) _ _ 26 3 (by omega)) (Eq.trans (extract_high (m := 49) (n := 3) _ _ 14 3 (by omega)) (Eq.trans (extract_high (m := 41) (n := 8) _ _ 11 3 (by omega)) (Eq.trans (extract_high (m := 38) (n := 3) _ _ 3 3 (by omega)) (Eq.trans (extract_low (m := 35) (n := 3) _ _ 0 3 (by omega)) (extract_all _))))))
theorem encPL_v (g : Guard) (opc : BitVec 8) (x y z v : Reg) (tbl : BitVec 8) (fn : BitVec 3) :
    regAt (encPL g opc x y z v tbl fn) 23 = v :=
  regAt_of_bits _ _ _ (Eq.trans (extract_high (m := 52) (n := 12) _ _ 23 3 (by omega)) (Eq.trans (extract_high (m := 49) (n := 3) _ _ 11 3 (by omega)) (Eq.trans (extract_high (m := 41) (n := 8) _ _ 8 3 (by omega)) (Eq.trans (extract_low (m := 38) (n := 3) _ _ 0 3 (by omega)) (extract_all _)))))
theorem encPL_tbl (g : Guard) (opc : BitVec 8) (x y z v : Reg) (tbl : BitVec 8) (fn : BitVec 3) :
    bitsAt (encPL g opc x y z v tbl fn) 15 8 = tbl :=
  Eq.trans (extract_high (m := 52) (n := 12) _ _ 15 8 (by omega)) (Eq.trans (extract_high (m := 49) (n := 3) _ _ 3 8 (by omega)) (Eq.trans (extract_low (m := 41) (n := 8) _ _ 0 8 (by omega)) (extract_all _)))
theorem encPL_fn (g : Guard) (opc : BitVec 8) (x y z v : Reg) (tbl : BitVec 8) (fn : BitVec 3) :
    bitsAt (encPL g opc x y z v tbl fn) 12 3 = fn :=
  Eq.trans (extract_high (m := 52) (n := 12) _ _ 12 3 (by omega)) (Eq.trans (extract_low (m := 49) (n := 3) _ _ 0 3 (by omega)) (extract_all _))
theorem encPL_head_tt (g : Guard) (opc : BitVec 8) (x y z v : Reg) (tbl : BitVec 8) (fn : BitVec 3) :
    BitVec.extractLsb' 56 8 (encPL g opc x y z v tbl fn) = g.tt :=
  Eq.trans (extract_high (m := 52) (n := 12) _ _ 56 8 (by omega)) (Eq.trans (extract_high (m := 49) (n := 3) _ _ 44 8 (by omega)) (Eq.trans (extract_high (m := 41) (n := 8) _ _ 41 8 (by omega)) (Eq.trans (extract_high (m := 38) (n := 3) _ _ 33 8 (by omega)) (Eq.trans (extract_high (m := 35) (n := 3) _ _ 30 8 (by omega)) (Eq.trans (extract_high (m := 32) (n := 3) _ _ 27 8 (by omega)) (Eq.trans (extract_high (m := 29) (n := 3) _ _ 24 8 (by omega)) (Eq.trans (extract_high (m := 21) (n := 8) _ _ 21 8 (by omega)) (Eq.trans (extract_high (m := 17) (n := 4) _ _ 13 8 (by omega)) (Eq.trans (extract_high (m := 14) (n := 3) _ _ 9 8 (by omega)) (Eq.trans (extract_high (m := 11) (n := 3) _ _ 6 8 (by omega)) (Eq.trans (extract_high (m := 8) (n := 3) _ _ 3 8 (by omega)) (extract_all _))))))))))))
theorem encPL_head_ga (g : Guard) (opc : BitVec 8) (x y z v : Reg) (tbl : BitVec 8) (fn : BitVec 3) :
    BitVec.extractLsb' 53 3 (encPL g opc x y z v tbl fn) = regBits g.ga :=
  Eq.trans (extract_high (m := 52) (n := 12) _ _ 53 3 (by omega)) (Eq.trans (extract_high (m := 49) (n := 3) _ _ 41 3 (by omega)) (Eq.trans (extract_high (m := 41) (n := 8) _ _ 38 3 (by omega)) (Eq.trans (extract_high (m := 38) (n := 3) _ _ 30 3 (by omega)) (Eq.trans (extract_high (m := 35) (n := 3) _ _ 27 3 (by omega)) (Eq.trans (extract_high (m := 32) (n := 3) _ _ 24 3 (by omega)) (Eq.trans (extract_high (m := 29) (n := 3) _ _ 21 3 (by omega)) (Eq.trans (extract_high (m := 21) (n := 8) _ _ 18 3 (by omega)) (Eq.trans (extract_high (m := 17) (n := 4) _ _ 10 3 (by omega)) (Eq.trans (extract_high (m := 14) (n := 3) _ _ 6 3 (by omega)) (Eq.trans (extract_high (m := 11) (n := 3) _ _ 3 3 (by omega)) (Eq.trans (extract_low (m := 8) (n := 3) _ _ 0 3 (by omega)) (extract_all _))))))))))))
theorem encPL_head_gb (g : Guard) (opc : BitVec 8) (x y z v : Reg) (tbl : BitVec 8) (fn : BitVec 3) :
    BitVec.extractLsb' 50 3 (encPL g opc x y z v tbl fn) = regBits g.gb :=
  Eq.trans (extract_high (m := 52) (n := 12) _ _ 50 3 (by omega)) (Eq.trans (extract_high (m := 49) (n := 3) _ _ 38 3 (by omega)) (Eq.trans (extract_high (m := 41) (n := 8) _ _ 35 3 (by omega)) (Eq.trans (extract_high (m := 38) (n := 3) _ _ 27 3 (by omega)) (Eq.trans (extract_high (m := 35) (n := 3) _ _ 24 3 (by omega)) (Eq.trans (extract_high (m := 32) (n := 3) _ _ 21 3 (by omega)) (Eq.trans (extract_high (m := 29) (n := 3) _ _ 18 3 (by omega)) (Eq.trans (extract_high (m := 21) (n := 8) _ _ 15 3 (by omega)) (Eq.trans (extract_high (m := 17) (n := 4) _ _ 7 3 (by omega)) (Eq.trans (extract_high (m := 14) (n := 3) _ _ 3 3 (by omega)) (Eq.trans (extract_low (m := 11) (n := 3) _ _ 0 3 (by omega)) (extract_all _)))))))))))
theorem encPL_head_gc (g : Guard) (opc : BitVec 8) (x y z v : Reg) (tbl : BitVec 8) (fn : BitVec 3) :
    BitVec.extractLsb' 47 3 (encPL g opc x y z v tbl fn) = regBits g.gc :=
  Eq.trans (extract_high (m := 52) (n := 12) _ _ 47 3 (by omega)) (Eq.trans (extract_high (m := 49) (n := 3) _ _ 35 3 (by omega)) (Eq.trans (extract_high (m := 41) (n := 8) _ _ 32 3 (by omega)) (Eq.trans (extract_high (m := 38) (n := 3) _ _ 24 3 (by omega)) (Eq.trans (extract_high (m := 35) (n := 3) _ _ 21 3 (by omega)) (Eq.trans (extract_high (m := 32) (n := 3) _ _ 18 3 (by omega)) (Eq.trans (extract_high (m := 29) (n := 3) _ _ 15 3 (by omega)) (Eq.trans (extract_high (m := 21) (n := 8) _ _ 12 3 (by omega)) (Eq.trans (extract_high (m := 17) (n := 4) _ _ 4 3 (by omega)) (Eq.trans (extract_low (m := 14) (n := 3) _ _ 0 3 (by omega)) (extract_all _))))))))))
theorem encPL_head_la (g : Guard) (opc : BitVec 8) (x y z v : Reg) (tbl : BitVec 8) (fn : BitVec 3) :
    BitVec.extractLsb' 43 4 (encPL g opc x y z v tbl fn) = 0 :=
  Eq.trans (extract_high (m := 52) (n := 12) _ _ 43 4 (by omega)) (Eq.trans (extract_high (m := 49) (n := 3) _ _ 31 4 (by omega)) (Eq.trans (extract_high (m := 41) (n := 8) _ _ 28 4 (by omega)) (Eq.trans (extract_high (m := 38) (n := 3) _ _ 20 4 (by omega)) (Eq.trans (extract_high (m := 35) (n := 3) _ _ 17 4 (by omega)) (Eq.trans (extract_high (m := 32) (n := 3) _ _ 14 4 (by omega)) (Eq.trans (extract_high (m := 29) (n := 3) _ _ 11 4 (by omega)) (Eq.trans (extract_high (m := 21) (n := 8) _ _ 8 4 (by omega)) (Eq.trans (extract_low (m := 17) (n := 4) _ _ 0 4 (by omega)) (extract_all _)))))))))
theorem encPL_head_opc (g : Guard) (opc : BitVec 8) (x y z v : Reg) (tbl : BitVec 8) (fn : BitVec 3) :
    BitVec.extractLsb' 35 8 (encPL g opc x y z v tbl fn) = opc :=
  Eq.trans (extract_high (m := 52) (n := 12) _ _ 35 8 (by omega)) (Eq.trans (extract_high (m := 49) (n := 3) _ _ 23 8 (by omega)) (Eq.trans (extract_high (m := 41) (n := 8) _ _ 20 8 (by omega)) (Eq.trans (extract_high (m := 38) (n := 3) _ _ 12 8 (by omega)) (Eq.trans (extract_high (m := 35) (n := 3) _ _ 9 8 (by omega)) (Eq.trans (extract_high (m := 32) (n := 3) _ _ 6 8 (by omega)) (Eq.trans (extract_high (m := 29) (n := 3) _ _ 3 8 (by omega)) (Eq.trans (extract_low (m := 21) (n := 8) _ _ 0 8 (by omega)) (extract_all _))))))))
theorem encPL_g (g : Guard) (opc : BitVec 8) (x y z v : Reg) (tbl : BitVec 8) (fn : BitVec 3) : guardAt (encPL g opc x y z v tbl fn) = g := by
  show Guard.mk (BitVec.extractLsb' 56 8 (encPL g opc x y z v tbl fn)) (regAt (encPL g opc x y z v tbl fn) 53) (regAt (encPL g opc x y z v tbl fn) 50) (regAt (encPL g opc x y z v tbl fn) 47) = g
  rw [encPL_head_tt, regAt_of_bits _ _ _ (encPL_head_ga g opc x y z v tbl fn), regAt_of_bits _ _ _ (encPL_head_gb g opc x y z v tbl fn), regAt_of_bits _ _ _ (encPL_head_gc g opc x y z v tbl fn)]
theorem encPL_la (g : Guard) (opc : BitVec 8) (x y z v : Reg) (tbl : BitVec 8) (fn : BitVec 3) : laAt (encPL g opc x y z v tbl fn) = 0 := encPL_head_la g opc x y z v tbl fn
theorem encPL_opc (g : Guard) (opc : BitVec 8) (x y z v : Reg) (tbl : BitVec 8) (fn : BitVec 3) : opcAt (encPL g opc x y z v tbl fn) = opc := encPL_head_opc g opc x y z v tbl fn

end Sys2Proof
end

