-- ==== Sys2Proof/Laws/Table.lean ====
section
/-! SUPPORT. The laws of sparse tables: read after write, other keys, and that the keys stay rising. -/

set_option Elab.async false

namespace Sys2Proof.Machine

variable {α : Type}

@[simp] theorem SMap.get?_nil (k : Nat) : SMap.get? ([] : SMap α) k = none := rfl

theorem SMap.get?_cons (j : Nat) (v : α) (m : SMap α) (k : Nat) :
    SMap.get? ((j, v) :: m) k = if j = k then some v else SMap.get? m k := rfl

@[simp] theorem SMap.get?_set_self (m : SMap α) (k : Nat) (v : α) : SMap.get? (SMap.set m k v) k = some v := by
  induction m with
  | nil => simp [SMap.set, SMap.get?]
  | cons x m ih =>
    obtain ⟨j, w⟩ := x
    simp only [SMap.set]
    split
    · simp [SMap.get?]
    · split
      · simp [SMap.get?]
      · simp [SMap.get?, ih]
        omega

theorem SMap.get?_set_other (m : SMap α) {j k : Nat} (v : α) (h : k ≠ j) : SMap.get? (SMap.set m j v) k = SMap.get? m k := by
  induction m with
  | nil => simp [SMap.set, SMap.get?]; omega
  | cons x m ih =>
    obtain ⟨i, w⟩ := x
    simp only [SMap.set]
    split
    · simp [SMap.get?]; omega
    · split
      · subst_vars; simp [SMap.get?, Ne.symm h]
      · simp [SMap.get?, ih]

theorem SMap.get?_set (m : SMap α) (j k : Nat) (v : α) :
    SMap.get? (SMap.set m j v) k = if k = j then some v else SMap.get? m k := by
  split
  · subst_vars; simp
  · exact SMap.get?_set_other m v ‹_›

theorem SMap.get?_erase_other (m : SMap α) {j k : Nat} (h : k ≠ j) : SMap.get? (SMap.erase m j) k = SMap.get? m k := by
  induction m with
  | nil => rfl
  | cons x m ih =>
    obtain ⟨i, w⟩ := x
    simp only [SMap.erase]
    split
    · subst_vars; simp [SMap.get?, Ne.symm h]
    · simp [SMap.get?, ih]

theorem SMap.risingFrom_mono {m : SMap α} {a b : Nat} (h : a ≤ b) (r : SMap.risingFrom b m = true) : SMap.risingFrom a m = true := by
  cases m with
  | nil => rfl
  | cons x m => obtain ⟨j, w⟩ := x; simp [SMap.risingFrom] at *; exact ⟨by omega, r.2⟩

theorem SMap.risingFrom_set {m : SMap α} {lo k : Nat} (v : α) (h : lo ≤ k) (r : SMap.risingFrom lo m = true) :
    SMap.risingFrom lo (SMap.set m k v) = true := by
  induction m generalizing lo with
  | nil => simp [SMap.set, SMap.risingFrom, h]
  | cons x m ih =>
    obtain ⟨j, w⟩ := x
    simp only [SMap.risingFrom, Bool.and_eq_true, decide_eq_true_eq] at r
    simp only [SMap.set]
    split
    · simp [SMap.risingFrom, h, r.2]; omega
    · split
      · simp [SMap.risingFrom, h]; subst_vars; exact r.2
      · simp only [SMap.risingFrom, Bool.and_eq_true, decide_eq_true_eq]
        exact ⟨r.1, ih (by omega) r.2⟩

theorem SMap.risingFrom_erase {m : SMap α} {lo : Nat} (k : Nat) (r : SMap.risingFrom lo m = true) :
    SMap.risingFrom lo (SMap.erase m k) = true := by
  induction m generalizing lo with
  | nil => rfl
  | cons x m ih =>
    obtain ⟨j, w⟩ := x
    simp only [SMap.risingFrom, Bool.and_eq_true, decide_eq_true_eq] at r
    simp only [SMap.erase]
    split
    · exact SMap.risingFrom_mono (by omega) r.2
    · simp only [SMap.risingFrom, Bool.and_eq_true, decide_eq_true_eq]
      exact ⟨r.1, ih r.2⟩

theorem SMap.risingFrom_put [DecidableEq α] {m : SMap α} {lo k : Nat} (v d : α) (h : lo ≤ k) (r : SMap.risingFrom lo m = true) :
    SMap.risingFrom lo (SMap.put m k v d) = true := by
  unfold SMap.put
  split
  · exact SMap.risingFrom_erase k r
  · exact SMap.risingFrom_set v h r

/-- In a table with rising keys no key below the bound stands. -/
theorem SMap.get?_below {m : SMap α} {lo k : Nat} (h : k < lo) (r : SMap.risingFrom lo m = true) : SMap.get? m k = none := by
  induction m generalizing lo with
  | nil => rfl
  | cons x m ih =>
    obtain ⟨j, w⟩ := x
    simp only [SMap.risingFrom, Bool.and_eq_true, decide_eq_true_eq] at r
    simp only [SMap.get?]
    rw [if_neg (by omega)]
    exact ih (by omega) r.2

@[simp] theorem SMap.get?_erase_self {m : SMap α} {lo : Nat} (k : Nat) (r : SMap.risingFrom lo m = true) :
    SMap.get? (SMap.erase m k) k = none := by
  induction m generalizing lo with
  | nil => rfl
  | cons x m ih =>
    obtain ⟨j, w⟩ := x
    simp only [SMap.risingFrom, Bool.and_eq_true, decide_eq_true_eq] at r
    simp only [SMap.erase]
    split
    · subst_vars; exact SMap.get?_below (Nat.lt_succ_self _) r.2
    · simp only [SMap.get?]
      rw [if_neg ‹_›]
      exact ih r.2

/-- Every entry of a table after a write was there or is the new one. -/
theorem SMap.all_set {m : SMap α} (p : Nat × α → Bool) (k : Nat) (v : α) (h : m.all p = true) (hv : p (k, v) = true) :
    (SMap.set m k v).all p = true := by
  induction m with
  | nil => simp [SMap.set, hv]
  | cons x m ih =>
    obtain ⟨j, w⟩ := x
    simp only [List.all_cons, Bool.and_eq_true] at h
    simp only [SMap.set]
    split
    · simp [List.all_cons, hv, h.1]; simpa using h.2
    · split
      · simp [List.all_cons, hv]; simpa using h.2
      · simp [List.all_cons, h.1]; simpa using ih h.2

theorem SMap.all_erase {m : SMap α} (p : Nat × α → Bool) (k : Nat) (h : m.all p = true) : (SMap.erase m k).all p = true := by
  induction m with
  | nil => rfl
  | cons x m ih =>
    obtain ⟨j, w⟩ := x
    simp only [List.all_cons, Bool.and_eq_true] at h
    simp only [SMap.erase]
    split
    · exact h.2
    · simp [List.all_cons, h.1]; simpa using ih h.2

theorem SMap.getD_set_self (m : SMap α) (k : Nat) (v d : α) : SMap.getD (SMap.set m k v) k d = v := by simp [SMap.getD]

theorem SMap.getD_set_other (m : SMap α) {j k : Nat} (v d : α) (h : k ≠ j) : SMap.getD (SMap.set m j v) k d = SMap.getD m k d := by
  simp [SMap.getD, SMap.get?_set_other m v h]

/-- Reading any key after a `put` with the default that absent keys read as, over a table with rising keys. -/
theorem SMap.getD_put [DecidableEq α] {m : SMap α} {lo : Nat} (j k : Nat) (v d : α) (r : SMap.risingFrom lo m = true) :
    SMap.getD (SMap.put m j v d) k d = if k = j then v else SMap.getD m k d := by
  unfold SMap.put
  split <;> split
  · subst_vars; simp [SMap.getD, SMap.get?_erase_self _ r]
  · simp [SMap.getD, SMap.get?_erase_other m ‹_›]
  · subst_vars; simp [SMap.getD]
  · simp [SMap.getD, SMap.get?_set_other m v ‹_›]

end Sys2Proof.Machine
end

