-- ==== Sys2Proof/Laws/Issue.lean ====
section
/-! SUPPORT. What the issue of an instruction word does: one lemma per outcome of `issue`, and what a change of one line leaves. -/

set_option Elab.async false

namespace Sys2Proof.Machine

/-! ### A change of one line -/

@[simp] theorem State.get?_setLine_self (s : State) (key : Nat) (l : Line) : SMap.get? (s.setLine key l).ctx.lines key = some l := by simp

theorem State.get?_setLine_other (s : State) {key k : Nat} (l : Line) (h : k ≠ key) :
    SMap.get? (s.setLine key l).ctx.lines k = SMap.get? s.ctx.lines k := by simp [SMap.get?_set_other _ _ h]

/-- A byte outside the lines that differ reads as before. -/
theorem State.readByte_eq {s t : State} {a : Nat} (hl : SMap.get? t.ctx.lines (a / 128) = SMap.get? s.ctx.lines (a / 128))
    (hm : t.mem.bytes = s.mem.bytes) : t.readByte a = s.readByte a := by
  simp only [State.readByte, State.lineAt, hl, hm]

theorem State.readByte_setLine (s : State) {key a : Nat} (l : Line) (h : a / 128 ≠ key) : (s.setLine key l).readByte a = s.readByte a :=
  State.readByte_eq (State.get?_setLine_other s l h) rfl

theorem OnlyLine.of_setLine (s : State) (key : Nat) (l : Line) : OnlyLine s (s.nextSeq.setLine key l) key l where
  line := by simp
  others := fun _ h => State.get?_setLine_other _ _ h
  memory := fun _ h => State.readByte_setLine _ _ h
  rest := by simp [sameElse]
  order := rfl

theorem OnlyLine.after (h : Head) (s : State) (key : Nat) (l : Line) (f : Line → Line) : OnlyLine s (s.after h key l f) key (f (s.past h l)) :=
  OnlyLine.of_setLine ..

/-! ### The outcomes of an issue -/

variable {h : Head} {s : State} {key : Nat} {l : Line}

theorem Issues.boundary (I : Issues h s key l) : boundary s key l = none := by
  have := I.closed
  simp only [Machine.boundary, if_neg (show ¬(l.cancelled = true ∧ l.marked ≠ s.sched.cycle + 1) from fun x => x.2 (I.kept x.1)), I.unlost, I.parent,
    I.stays, I.noFault, I.whole, I.redone, I.unmarked]
  simp
  tauto

theorem Issues.checks (I : Issues h s key l) : checks h (s.asidRegs l.c.asid) l = none := by
  have h1 := I.window
  have h2 := I.level
  simp only [Machine.checks, I.encoded, I.profile]
  simp
  rw [if_neg (by omega), if_neg (by tauto)]

/-- A word that issues has its effect on the context past it. -/
theorem Issues.issue (I : Issues h s key l) (f : State → Nat → Line → Line → Out) :
    issue h s f = f s.nextSeq key l (s.past h l) := by
  simp only [Machine.issue, gate, I.atIssue, gateLine, I.boundary, I.checks]
  simp [I.active, I.full, State.past]

theorem Issues.issueReg (I : Issues h s key l) (f : Ctx → Ctx → Ctx) :
    issueReg h s f = .next (s.after h key l (Line.onCtx (f l.c))) := by
  simp only [Machine.issueReg, I.issue]; rfl

/-- A word whose meaning is a change of its own registers completes. -/
theorem Issues.completesReg {i : Instr} (I : Issues h s key l) (f : Ctx → Ctx → Ctx) (e : exec i s = Machine.issueReg h s f) :
    Completes i s h key l (Line.onCtx (f l.c)) :=
  ⟨_, e.trans (I.issueReg f), OnlyLine.after ..⟩

/-- A word whose meaning is a change of its own line completes. -/
theorem Issues.completes {i : Instr} (I : Issues h s key l) (g : State → Nat → Line → Line → Out) (f : Line → Line)
    (e : exec i s = Machine.issue h s g) (e' : g s.nextSeq key l (s.past h l) = .next (s.after h key l f)) : Completes i s h key l f :=
  ⟨_, e.trans ((I.issue g).trans e'), OnlyLine.after ..⟩

/-- What stands at the boundary comes before any word. -/
theorem issue_of_boundary {t : State} (hi : s.issuing = some (key, l)) (hb : boundary s key l = some t) (f : State → Nat → Line → Line → Out) :
    issue h s f = .next t := by simp [issue, gate, hi, gateLine, hb]

/-- A check of R60 that fails traps. -/
theorem issue_of_checks {code : BitVec 8} {detail : Nat} (hi : s.issuing = some (key, l)) (hb : boundary s key l = none)
    (hc : checks h (s.asidRegs l.c.asid) l = some (code, detail)) (f : State → Nat → Line → Line → Out) :
    issue h s f = .next (issueTrap s key l h.word code detail 0) := by simp [issue, gate, hi, gateLine, hb, hc]

/-- A word without an active lane only advances the context (R126). -/
theorem issue_of_suppressed (hi : s.issuing = some (key, l)) (hb : boundary s key l = none) (hc : checks h (s.asidRegs l.c.asid) l = none)
    (ha : l.c.anyActive h = false) (f : State → Nat → Line → Line → Out) :
    issue h s f = .next (s.setLine key (l.advance h 0 s.sched.seq)).nextSeq := by simp [issue, gate, hi, gateLine, hb, hc, ha]

/-- A word that takes an empty register waits (R62). -/
theorem issue_of_empty (hi : s.issuing = some (key, l)) (hb : boundary s key l = none) (hc : checks h (s.asidRegs l.c.asid) l = none)
    (ha : l.c.anyActive h = true) (hf : l.c.st.full &&& h.takesNow l ≠ h.takesNow l) (f : State → Nat → Line → Line → Out) :
    issue h s f = .next (s.setLine key (l.waits 1 (BitVec.ofNat 60 (lowestReg (h.takesNow l &&& ~~~l.c.st.full))) (h.takesNow l))) := by
  simp [issue, gate, hi, gateLine, hb, hc, ha, hf]

/-- The issue of a word never faults and is refused only without a context. -/
theorem issue_cases (f : State → Nat → Line → Line → Out) :
    (s.issuing = none ∧ issue h s f = .refused .noContext) ∨ (∃ t, issue h s f = .next t) ∨
      (∃ key l, Issues h s key l ∧ issue h s f = f s.nextSeq key l (s.past h l)) := by
  cases hi : s.issuing with
  | none => exact .inl ⟨rfl, by simp [issue, gate, hi]⟩
  | some x =>
    obtain ⟨key, l⟩ := x
    right
    cases hb : boundary s key l with
    | some t => exact .inl ⟨t, issue_of_boundary hi hb f⟩
    | none =>
      cases hc : checks h (s.asidRegs l.c.asid) l with
      | some e => exact .inl ⟨_, issue_of_checks hi hb hc f⟩
      | none =>
        cases ha : l.c.anyActive h with
        | false => exact .inl ⟨_, issue_of_suppressed hi hb hc ha f⟩
        | true =>
          by_cases hf : l.c.st.full &&& h.takesNow l = h.takesNow l
          · refine .inr ⟨key, l, ?_, ?_⟩
            · cases e : l.fault <;> simp only [boundary, e] at hb <;> split_ifs at hb
              cases e' : h.bad <;> simp only [checks, e'] at hc <;> [skip; simp at hc]
              split_ifs at hc
              constructor <;> simp_all
            · simp [issue, gate, hi, gateLine, hb, hc, ha, hf, State.past]
          · exact .inl ⟨_, issue_of_empty hi hb hc ha hf f⟩

end Sys2Proof.Machine
end

