-- ==== Sys2Proof/Laws/Memory.lean ====
section
/-! SUPPORT. The laws of memory: every operation that writes bytes keeps the canonical form, a read after a write gives the byte written,
and a write leaves every other byte as it was. -/

set_option Elab.async false

namespace Sys2Proof.Machine

/-! ### One byte -/

theorem Memory.wf_nil : Memory.wf [] = true := rfl

theorem Memory.wf_rising {m : List Host.Cell} (h : Memory.wf m = true) : SMap.risingFrom 0 m = true := by
  simp only [Memory.wf, Bool.and_eq_true] at h
  exact h.1

/-- Writing a byte keeps the canonical form. -/
theorem memSet_wf {m : List Host.Cell} (a : Nat) (b : Byte) (h : Memory.wf m = true) : Memory.wf (memSet m a b) = true := by
  simp only [Memory.wf, Bool.and_eq_true] at h ⊢
  refine ⟨SMap.risingFrom_put b 0 (Nat.zero_le _) h.1, ?_⟩
  unfold memSet SMap.put
  split
  · exact SMap.all_erase _ a h.2
  · exact SMap.all_set _ a b h.2 (by simpa using ‹¬ b = 0›)

/-- A byte after a write: the one written, or what stood there. -/
theorem memByte_memSet {m : List Host.Cell} (a k : Nat) (b : Byte) (h : Memory.wf m = true) :
    memByte (memSet m a b) k = if k = a then b else memByte m k :=
  SMap.getD_put a k b 0 (Memory.wf_rising h)

/-- Filtering the entries of a memory by their addresses keeps its form. -/
theorem SMap.risingFrom_filter {α : Type} (p : Nat × α → Bool) : ∀ (m : SMap α) (lo : Nat), SMap.risingFrom lo m = true →
    SMap.risingFrom lo (m.filter p) = true
  | [], _, _ => rfl
  | (j, v) :: m, lo, h => by
    simp only [SMap.risingFrom, Bool.and_eq_true, decide_eq_true_eq] at h
    have ih := SMap.risingFrom_filter p m (j + 1) h.2
    simp only [List.filter]
    split
    · simp [SMap.risingFrom, ih, h.1]
    · exact SMap.risingFrom_mono (by omega) ih

theorem Memory.wf_filter (p : Host.Cell → Bool) {m : List Host.Cell} (h : Memory.wf m = true) : Memory.wf (m.filter p) = true := by
  simp only [Memory.wf, Bool.and_eq_true] at h ⊢
  exact ⟨SMap.risingFrom_filter p m 0 h.1, List.all_eq_true.mpr fun x hx => List.all_eq_true.mp h.2 x (List.mem_filter.mp hx).1⟩

/-! ### Many bytes -/

theorem foldl_memSet_wf (live : Nat → Bool) (w : List (Nat × Byte)) : ∀ {m : List Host.Cell}, Memory.wf m = true →
    Memory.wf (w.foldl (fun m x => if live x.1 then m else memSet m x.1 x.2) m) = true := by
  induction w with
  | nil => exact id
  | cons x w ih =>
    intro m h
    simp only [List.foldl_cons]
    split
    · exact ih h
    · exact ih (memSet_wf _ _ h)

/-- A byte after a list of writes: the last one there, or what stood there; a live line's bytes are not in memory. -/
theorem memByte_foldl (live : Nat → Bool) (k : Nat) (w : List (Nat × Byte)) : ∀ {m : List Host.Cell}, Memory.wf m = true →
    ∀ r : Option Byte, memByte m k = (if live k then memByte m k else r.getD (memByte m k)) →
    memByte (w.foldl (fun m x => if live x.1 then m else memSet m x.1 x.2) m) k =
      if live k then memByte m k else (w.foldl (fun r x => if x.1 = k then some x.2 else r) r).getD (memByte m k) := by
  induction w with
  | nil => intro m _ r hr; simpa using hr
  | cons x w ih =>
    intro m h r hr
    simp only [List.foldl_cons]
    by_cases hl : live x.1
    · simp only [hl, if_true]
      by_cases hk : x.1 = k
      · subst hk
        rw [ih h r hr]
        simp [hl]
      · simp only [if_neg hk]
        exact ih h r hr
    · simp only [hl, Bool.false_eq_true, if_false]
      have hw := memSet_wf x.1 x.2 h
      have hb := memByte_memSet x.1 k x.2 h
      by_cases hk : x.1 = k
      · subst hk
        rw [if_pos rfl] at hb
        rw [ih hw (some x.2) (by simp [hb])]
        simp only [hb, hl, Bool.false_eq_true, if_false, if_true]
        have e : ∀ (l : List (Nat × Byte)) (r : Byte) (d d' : Byte),
            (l.foldl (fun r y => if y.1 = x.1 then some y.2 else r) (some r)).getD d =
              (l.foldl (fun r y => if y.1 = x.1 then some y.2 else r) (some r)).getD d' := by
          intro l
          induction l with
          | nil => intros; rfl
          | cons y l ihl =>
            intro r d d'
            simp only [List.foldl_cons]
            split
            · exact ihl _ _ _
            · exact ihl _ _ _
        exact e w x.2 _ _
      · rw [if_neg (Ne.symm hk)] at hb
        rw [ih hw r (by rw [hb]; exact hr), hb, if_neg hk]

/-! ### Operations on the state -/

theorem State.writePairs_bytes (s : State) (w : List (Nat × Byte)) : (s.writePairs w).mem.bytes =
    w.foldl (fun m x => if (s.lineAt x.1).isSome then m else memSet m x.1 x.2) s.mem.bytes := rfl

/-- A write of any bytes keeps the canonical form. -/
theorem State.writePairs_wf {s : State} (w : List (Nat × Byte)) (h : Memory.wf s.mem.bytes = true) :
    Memory.wf (s.writePairs w).mem.bytes = true := by
  rw [State.writePairs_bytes]
  exact foldl_memSet_wf (fun a => (s.lineAt a).isSome) w h

theorem State.writeBytes_wf {s : State} (pas : List Nat) (b : List Byte) (h : Memory.wf s.mem.bytes = true) :
    Memory.wf (s.writeBytes pas b).mem.bytes = true := State.writePairs_wf _ h

theorem State.writeNat_wf {s : State} (pa n x : Nat) (h : Memory.wf s.mem.bytes = true) : Memory.wf (s.writeNat pa n x).mem.bytes = true :=
  State.writePairs_wf _ h

/-- A byte of memory that is no live line's, after a write. -/
theorem State.memByte_writePairs {s : State} (w : List (Nat × Byte)) (k : Nat) (h : Memory.wf s.mem.bytes = true) (hk : s.lineAt k = none) :
    memByte (s.writePairs w).mem.bytes k = (lastWrite w k).getD (memByte s.mem.bytes k) := by
  rw [State.writePairs_bytes, memByte_foldl (fun a => (s.lineAt a).isSome) k w h none (by simp)]
  simp [hk, lastWrite]

theorem writeLines_get? (w : List (Nat × Byte)) (k : Nat) : ∀ m : SMap Line, SMap.get? (writeLines w m) k =
    (SMap.get? m k).map fun l =>
      if w.any (fun x => x.1 / 128 == k) then l.afterWrite (.ofWords (lineWords l.c k w)) else l
  | [] => rfl
  | (j, l) :: m => by
    simp only [writeLines]
    by_cases hj : j = k
    · subst hj
      split <;> simp_all [SMap.get?]
    · split <;> simp [SMap.get?, hj, writeLines_get? w k m]

/-- A write keeps every live line live, and makes none. -/
theorem State.lineAt_writePairs_none (s : State) (w : List (Nat × Byte)) (k : Nat) :
    (s.writePairs w).lineAt k = none ↔ s.lineAt k = none := by
  simp [State.lineAt, State.writePairs, writeLines_get?]

/-- R246: a byte of no live line, after a write: the last byte written there, or what stood there. -/
theorem State.readByte_writePairs {s : State} (w : List (Nat × Byte)) (k : Nat) (h : Memory.wf s.mem.bytes = true) (hk : s.lineAt k = none) :
    (s.writePairs w).readByte k = (lastWrite w k).getD (s.readByte k) := by
  have e : (s.writePairs w).lineAt k = none := (s.lineAt_writePairs_none w k).mpr hk
  simp only [State.readByte, e, hk]
  exact State.memByte_writePairs w k h hk

/-- A write that names no byte of a line leaves that line as it was. -/
theorem State.lineAt_writePairs_other (s : State) (w : List (Nat × Byte)) (k : Nat) (h : ∀ x ∈ w, x.1 / 128 ≠ k / 128) :
    (s.writePairs w).lineAt k = s.lineAt k := by
  have e : (w.any fun x => x.1 / 128 == k / 128) = false := by
    rw [List.any_eq_false]
    intro x hx
    simpa using h x hx
  have e' : (w.any fun x => decide (x.1 / 128 = k / 128)) = false := by simpa using e
  cases hl : SMap.get? s.ctx.lines (k / 128) <;> simp [State.lineAt, State.writePairs, writeLines_get?, hl]
  intro a b ha hb
  exact absurd hb (h _ ha)

theorem lastWrite_none {w : List (Nat × Byte)} {k : Nat} (h : ∀ x ∈ w, x.1 ≠ k) : lastWrite w k = none := by
  unfold lastWrite
  induction w with
  | nil => rfl
  | cons x w ih =>
    simp only [List.foldl_cons, if_neg (h x (List.mem_cons_self ..))]
    exact ih fun y hy => h y (List.mem_cons_of_mem _ hy)

/-- A write leaves every byte of no live line that it does not name. -/
theorem State.readByte_writePairs_other {s : State} (w : List (Nat × Byte)) (k : Nat) (h : Memory.wf s.mem.bytes = true)
    (hk : s.lineAt k = none) (hw : ∀ x ∈ w, x.1 ≠ k) : (s.writePairs w).readByte k = s.readByte k := by
  rw [State.readByte_writePairs w k h hk, lastWrite_none hw]
  rfl

@[simp] theorem State.touchCopy_bytes (s : State) (key line : Nat) : (s.touchCopy key line).mem.bytes = s.mem.bytes := by
  unfold State.touchCopy
  split <;> rfl

/-- A fold whose steps all keep something keeps it. -/
theorem foldl_keeps {α β : Type} {P : α → Prop} {f : α → β → α} (hf : ∀ a b, P a → P (f a b)) (l : List β) (a : α) (h : P a) :
    P (l.foldl f a) := by
  induction l generalizing a with
  | nil => exact h
  | cons b l ih => exact ih _ (hf a b h)

/-- Touching die copies writes no byte of memory. -/
@[simp] theorem State.touchCopies_bytes (s : State) (die : Nat) (swc : List Bool) (pas : List Nat) :
    (s.touchCopies die swc pas).mem.bytes = s.mem.bytes := by
  refine foldl_keeps (P := fun t : State => t.mem.bytes = s.mem.bytes) (fun t x h => ?_) _ _ rfl
  split <;> simpa using h

@[simp] theorem State.dropCopy_bytes (s : State) (key : Nat) : (s.dropCopy key).mem.bytes = s.mem.bytes := rfl

@[simp] theorem State.poisonUnit_bytes (s : State) (u : Nat) : (s.poisonUnit u).mem.bytes = s.mem.bytes := rfl

@[simp] theorem State.tagBytes_bytes (s : State) (pas : List Nat) (t : List Tag) : (s.tagBytes pas t).mem.bytes = s.mem.bytes := by
  unfold State.tagBytes
  split <;> rfl

/-- A store that is performed, through die copies or not, keeps the canonical form. -/
theorem State.performWrite_wf {s : State} (die : Nat) (swc : List Bool) (pas : List Nat) (b : List Byte) (tags : List Tag)
    (h : Memory.wf s.mem.bytes = true) : Memory.wf (s.performWrite die swc pas b tags).mem.bytes = true := by
  refine foldl_keeps (P := fun t : State => Memory.wf t.mem.bytes = true) (fun t x ht => ?_) _ _ ?_
  · dsimp only
    split <;> simpa using ht
  · rw [State.tagBytes_bytes]
    exact State.writePairs_wf _ h

/-- An error record keeps the canonical form. -/
theorem State.writeError_wf {s : State} (ws : List Word) (h : Memory.wf s.mem.bytes = true) : Memory.wf (s.writeError ws).mem.bytes = true := by
  unfold State.writeError
  dsimp only
  split
  · exact h
  · split
    · exact State.writeBytes_wf _ _ h
    · exact State.writeBytes_wf _ _ (State.writeBytes_wf _ _ h)

/-- A bad unit that a write-back brings home writes its record alone. -/
theorem State.bringBad_wf {s : State} (die line u : Nat) (h : Memory.wf s.mem.bytes = true) :
    Memory.wf (s.bringBad die line u).mem.bytes = true := State.writeError_wf _ h

/-- The write-back of a die copy keeps the canonical form. -/
theorem State.writeBack_wf {s : State} (key : Nat) (drop : Bool) (h : Memory.wf s.mem.bytes = true) :
    Memory.wf (s.writeBack key drop).mem.bytes = true := by
  unfold State.writeBack
  split
  · exact h
  · dsimp only
    refine foldl_keeps (P := fun t : State => Memory.wf t.mem.bytes = true) (fun (t : State) u ht => State.bringBad_wf _ _ _ ht) _ _ ?_
    split
    · exact State.writeBytes_wf _ _ h
    · exact foldl_keeps (P := fun t : State => Memory.wf t.mem.bytes = true) (fun t u ht => by simpa using ht) _ _ (State.writeBytes_wf _ _ h)

/-- Reset's memory is in its form: it lists nothing. -/
theorem State.reset_wf : Memory.wf State.reset.mem.bytes = true := rfl

/-! ### Numbers -/

@[simp] theorem leBytes_length (n x : Nat) : (leBytes n x).length = n := by
  induction n generalizing x with
  | zero => rfl
  | succ n ih => simp [leBytes, ih]

@[simp] theorem rangeFrom_length (a n : Nat) : (rangeFrom a n).length = n := by
  induction n generalizing a with
  | zero => rfl
  | succ n ih => simp [rangeFrom, ih]

theorem mem_rangeFrom {a n k : Nat} : k ∈ rangeFrom a n ↔ a ≤ k ∧ k < a + n := by
  induction n generalizing a with
  | zero => simp [rangeFrom]
  | succ n ih => simp only [rangeFrom, List.mem_cons, ih]; omega

/-- The little-endian bytes of a number give it back, modulo their range (R8). -/
theorem leNat_leBytes (n x : Nat) : leNat (leBytes n x) = x % 256 ^ n := by
  induction n generalizing x with
  | zero => simp [leBytes, leNat, Nat.mod_one]
  | succ n ih =>
    have e : 256 ^ (n + 1) = 256 * 256 ^ n := by rw [Nat.pow_succ, Nat.mul_comm]
    rw [e, Nat.mod_mul]
    simp [leBytes, leNat, ih]

theorem leNat_lt (l : List Byte) : leNat l < 256 ^ l.length := by
  induction l with
  | nil => simp [leNat]
  | cons b l ih =>
    simp only [leNat, List.length_cons, Nat.pow_succ]
    have := b.isLt
    omega

/-- A read of the n bytes that a write of a number has just written gives that number, modulo its range, where no live line lies. -/
theorem State.readNat_writeNat {s : State} (pa n x : Nat) (h : Memory.wf s.mem.bytes = true) (hk : ∀ k ∈ rangeFrom pa n, s.lineAt k = none) :
    (s.writeNat pa n x).readNat pa n = x % 256 ^ n := by
  rw [← leNat_leBytes]
  unfold State.readNat State.writeNat State.readBytes State.writeBytes
  congr 1
  have key : ∀ (m a y : Nat) (w : List (Nat × Byte)), a + m = pa + n → pa ≤ a →
      (∀ k ∈ rangeFrom a m, lastWrite w k = lastWrite ((rangeFrom a m).zip (leBytes m y)) k) →
      (rangeFrom a m).map (s.writePairs w).readByte = leBytes m y := by
    intro m
    induction m with
    | zero => intros; rfl
    | succ m ih =>
      intro a y w e hle hw
      have fold_skip : ∀ (l : List (Nat × Byte)) (k : Nat) (r : Option Byte), (∀ x ∈ l, x.1 ≠ k) →
          l.foldl (fun r x => if x.1 = k then some x.2 else r) r = r := by
        intro l k
        induction l with
        | nil => intros; rfl
        | cons z l ihl =>
          intro r hz
          simp only [List.foldl_cons, if_neg (hz z (List.mem_cons_self ..))]
          exact ihl r fun u hu => hz u (List.mem_cons_of_mem _ hu)
      have hrest : ∀ x ∈ (rangeFrom (a + 1) m).zip (leBytes m (y / 256)), a + 1 ≤ x.1 := by
        intro x hx
        have := List.of_mem_zip hx
        exact (mem_rangeFrom.mp this.1).1
      simp only [rangeFrom, List.map_cons, leBytes]
      congr 1
      · rw [State.readByte_writePairs w a h (hk a (mem_rangeFrom.mpr (by omega))), hw a (mem_rangeFrom.mpr (by omega))]
        simp only [rangeFrom, leBytes, List.zip_cons_cons, lastWrite, List.foldl_cons, if_true]
        rw [fold_skip _ a _ fun x hx => by have := hrest x hx; omega]
        rfl
      · refine ih (a + 1) (y / 256) w (by omega) (by omega) fun k hk' => ?_
        have hkr := mem_rangeFrom.mp hk'
        rw [hw k (mem_rangeFrom.mpr (by omega))]
        simp only [rangeFrom, leBytes, List.zip_cons_cons, lastWrite, List.foldl_cons, if_neg (show a ≠ k by omega)]
  exact key n pa x _ rfl (Nat.le_refl _) fun _ _ => rfl

/-! ### Translation looks at pages, homes, dies and clusters alone -/

/-- Two states with the same pages, stale entries, dies and mapped-out clusters translate alike. -/
theorem State.translate_congr {s t : State} (cluster : Nat) (asid : BitVec 12) (level : Nat) (ag : Agent) (m : AccMode) (va : Nat)
    (hp : t.mem.pages = s.mem.pages) (hs : t.mem.stale = s.mem.stale) (hd : t.fab.dies = s.fab.dies) (hm : t.mgmt.mapped = s.mgmt.mapped) :
    t.translate cluster asid level ag m va = s.translate cluster asid level ag m va := by
  have hc : ∀ c, t.clusterGone c = s.clusterGone c := fun c => by simp only [State.clusterGone, State.dieGone, State.die, hd, hm]
  have ha : ∀ p pa, t.attrCheck p cluster pa ag = s.attrCheck p cluster pa ag := fun p pa => by simp only [State.attrCheck, hc]
  have hf : t.findPage cluster asid va = s.findPage cluster asid va := by simp only [State.findPage, hp, hs]
  simp only [State.translate, hf, ha]

theorem State.transBytes_congr {s t : State} (cluster : Nat) (asid : BitVec 12) (level : Nat) (ag : Agent) (m : AccMode)
    (hp : t.mem.pages = s.mem.pages) (hs : t.mem.stale = s.mem.stale) (hd : t.fab.dies = s.fab.dies) (hm : t.mgmt.mapped = s.mgmt.mapped) :
    ∀ (n va : Nat), t.transBytes cluster asid level ag m va n = s.transBytes cluster asid level ag m va n
  | 0, _ => rfl
  | n + 1, va => by
    simp only [State.transBytes, State.translate_congr cluster asid level ag m _ hp hs hd hm,
      State.transBytes_congr cluster asid level ag m hp hs hd hm n]

@[simp] theorem State.transBytes_nextSeq (s : State) (cluster : Nat) (asid : BitVec 12) (level : Nat) (ag : Agent) (m : AccMode) (va n : Nat) :
    s.nextSeq.transBytes cluster asid level ag m va n = s.transBytes cluster asid level ag m va n :=
  State.transBytes_congr (s := s) (t := s.nextSeq) cluster asid level ag m rfl rfl rfl rfl n va

/-- A setting of a line leaves translation as it was. -/
@[simp] theorem State.transBytes_setLine (s : State) (k : Nat) (l : Line) (cluster : Nat) (asid : BitVec 12) (level : Nat) (ag : Agent) (m : AccMode)
    (va n : Nat) : (s.setLine k l).transBytes cluster asid level ag m va n = s.transBytes cluster asid level ag m va n :=
  State.transBytes_congr (s := s) (t := s.setLine k l) cluster asid level ag m rfl rfl rfl rfl n va

/-- What translation gives has as many addresses as bytes were asked for. -/
theorem State.transBytes_length (s : State) (cluster : Nat) (asid : BitVec 12) (level : Nat) (ag : Agent) (m : AccMode) :
    ∀ (n va : Nat) (l : List Nat) (b : List Bool), s.transBytes cluster asid level ag m va n = .ok (l, b) → l.length = n
  | 0, _, l, b, h => by simp only [State.transBytes, Except.ok.injEq, Prod.mk.injEq] at h; rw [← h.1]; rfl
  | n + 1, va, l, b, h => by
    simp only [State.transBytes] at h
    split at h
    · simp at h
    · split at h
      · simp at h
      · rename_i _ _ _ _ l' b' e
        simp only [Except.ok.injEq, Prod.mk.injEq] at h
        rw [← h.1, List.length_cons, State.transBytes_length s cluster asid level ag m n _ l' b' e]

end Sys2Proof.Machine
end

