-- ==== Sys2Proof/Laws/Network.lean ====
section
/-! SUPPORT. What the fabric does to a step: it may hold it back, and it changes its own books alone (R357, R377 to R384, R402). -/

set_option Elab.async false

namespace Sys2Proof.Machine

/-- Flits that pass change the fabric alone. -/
theorem State.pathUsed_only (s : State) (net plane src dst : Nat) (way : List Nat) :
    s.pathUsed net plane src dst way = { s with fab := (s.pathUsed net plane src dst way).fab } := rfl

/-- So does the end of the books of requests that are gone. -/
theorem State.tidy_only (s : State) : s.tidy = { s with fab := s.tidy.fab } := by
  unfold State.tidy
  split <;> rfl

theorem State.drawn_only (s : State) (id : Nat) : s.drawn id = { s with fab := (s.drawn id).fab } := by
  unfold State.drawn
  rw [State.tidy_only]

/-- Taking a token changes the fabric alone. -/
theorem State.takeToken_only (s : State) (p : Nat) (asid : BitVec 12) : s.takeToken p asid = { s with fab := (s.takeToken p asid).fab } := rfl

theorem State.charged_only (s : State) (x : Crossing) (l : List Request) : s.charged x l = { s with fab := (s.charged x l).fab } := by
  unfold State.charged
  split <;> rfl

theorem State.crossed_only (s : State) (x : Crossing) (l : List Request) : s.crossed x l = { s with fab := (s.crossed x l).fab } := by
  unfold State.crossed
  split
  · rfl
  · rw [State.pathUsed_only, State.pathUsed_only _ 0, State.charged_only]

theorem State.crossed_all_only (f : Crossing → List Request) (l : List Crossing) :
    ∀ s : State, l.foldl (fun u y => u.crossed y (f y)) s = { s with fab := (l.foldl (fun u y => u.crossed y (f y)) s).fab } := by
  induction l with
  | nil => exact fun _ => rfl
  | cons x l ih =>
    intro s
    rw [List.foldl_cons, ih (s.crossed x (f x)), State.crossed_only s x]

theorem State.spend_only {s t : State} {p : Nat} {asid : BitVec 12} (h : s.spend p asid = some t) : t = { s with fab := t.fab } := by
  unfold State.spend at h
  split at h <;> cases h
  rfl

/-- What the fabric lets happen is the step itself, with the fabric's books changed. -/
theorem overFabric_next {s u : State} {x : Choice} {o : Out} (h : overFabric s x o = .next u) : ∃ t, o = .next t ∧ u = { t with fab := u.fab } := by
  have pass {t v : State} (e : v = { t with fab := v.fab }) (g : (Host.Outcome.next v : Out) = .next u) : u = { t with fab := u.fab } := by
    cases g
    exact e
  unfold overFabric at h
  split at h
  · rename_i t
    refine ⟨t, rfl, ?_⟩
    split at h
    · split at h
      · exact pass (State.tidy_only t) h
      · cases h
    · cases h
    · split at h
      · rename_i r _
        dsimp only at h
        split at h
        · exact pass (State.drawn_only t _) h
        · split at h
          · refine pass ?_ h
            rw [State.crossed_all_only (fun _ => []), State.pathUsed_only, State.drawn_only t]
          · cases h
      · dsimp only at h
        split at h
        · refine pass ?_ h
          rw [State.tidy_only, State.crossed_all_only s.passedBy _ t]
        · cases h
  · cases h
  · cases h

/-- What the windows let happen is the step itself, with its landings noted; a loss of dies or a step of the management plane is not held. -/
theorem inWindow_next {s u : State} {x : Choice} {o : Out} (h : inWindow s x o = .next u) :
    ∃ t, o = .next t ∧ (unheld x = true ∨ s.mayLand t = true) ∧ u = s.landings t := by
  unfold inWindow at h
  split at h
  · rename_i t
    split at h
    · rename_i m
      exact ⟨t, rfl, m, by cases h; rfl⟩
    · cases h
  · cases h
  · cases h

/-- A request that is injected is one that may be, and has taken a token. -/
theorem injects_next {s t : State} {id : Nat} (h : injects id s = .next t) :
    ∃ r u, s.requests.find? (fun q => q.id == id) = some r ∧ s.mayInject r = true ∧ s.spend r.src r.asid = some u ∧ t = u.injected r := by
  unfold injects at h
  split at h
  · cases h
  · rename_i r e
    split at h
    · rename_i m
      split at h
      · rename_i u w
        exact ⟨r, u, e, m, w, by cases h; rfl⟩
      · cases h
    · cases h

/-- A request that arrives was on its way, first of its path, and its path is up. -/
theorem arrives_next {s t : State} {id : Nat} (h : arrives id s = .next t) :
    ∃ r f, s.requests.find? (fun q => q.id == id) = some r ∧ s.flit r = some f ∧ f.arrived = false ∧ s.behind r f = false ∧
      s.pathUp 0 r.plane r.src r.dst f.way = true ∧ t = { s with fab := t.fab } := by
  unfold arrives at h
  split at h
  · cases h
  · rename_i r e
    split at h
    · cases h
    · rename_i f w
      split at h
      · rename_i m
        simp only [Bool.not_eq_true'] at m
        exact ⟨r, f, e, w, m.1, m.2.1, m.2.2, by cases h; rfl⟩
      · cases h

/-- A command of Neriup happens once MGMT is set: it is refused with a code and has no effect, or has its effect and is answered. -/
theorem neriup_next {what : String} {no : Option NeriupRefusal} {r : Reply} {s t : State} {f : State → State} (h : neriup what no r s f = .next t) :
    s.mgmtUp = true ∧ ((no = none ∧ t = (f s).reply r) ∨ ∃ why, no = some why ∧ t = s.reply (.refused (Config.neriupCode why.num))) := by
  unfold neriup at h
  split at h
  · cases h
  · rename_i u
    refine ⟨by simpa using u, ?_⟩
    cases no with
    | none => exact .inl ⟨rfl, by cases h; rfl⟩
    | some why => exact .inr ⟨why, rfl, by cases h; rfl⟩

end Sys2Proof.Machine
end

