-- ==== Sys2Proof/Laws/PerInstr.lean ====
section
/-! SUPPORT. Statements about every instruction, constructor by constructor: an encoded instruction decodes to itself. -/

set_option Elab.async false

namespace Sys2Proof.Laws.RoundTrip

/-- A well-formed instruction is what its own encoding decodes to. -/
def Statement (i : Instr) : Prop :=
  wellFormed i = true → (∀ w, encodeWord i = some w → decodeWord w = i) ∧ (∀ w, encodeCommand i = some w → decodeCommand w = some i)

end Sys2Proof.Laws.RoundTrip

namespace Sys2Proof

/-! ### The codes of sub-operations -/

theorem ExtWidth.ofCode_code (x : ExtWidth) : ExtWidth.ofCode x.code = some x := by cases x <;> rfl
theorem Combine.ofCode_code (x : Combine) : Combine.ofCode x.code = some x := by cases x <;> rfl
theorem IntCond.ofCode_code (x : IntCond) : IntCond.ofCode x.code = some x := by cases x <;> rfl
theorem FloatCond.ofCode_code (x : FloatCond) : FloatCond.ofCode x.code = some x := by cases x <;> rfl
theorem FScalar.ofCode_code (x : FScalar) : FScalar.ofCode x.code = some x := by cases x <;> rfl
theorem PMovForm.ofCode_code (x : PMovForm) : PMovForm.ofCode x.code = some x := by cases x <;> rfl
theorem ElemSize.ofCode_code (x : ElemSize) : ElemSize.ofCode x.code = some x := by cases x <;> rfl
theorem SatOp.ofCode_code (x : SatOp) : SatOp.ofCode x.code = some x := by cases x <;> rfl
theorem MulPart.ofCode_code (x : MulPart) : MulPart.ofCode x.code = some x := by cases x <;> rfl
theorem PermOp.ofCode_code (x : PermOp) : PermOp.ofCode x.code = some x := by cases x <;> rfl
theorem VCvtOp.ofCode_code (x : VCvtOp) : VCvtOp.ofCode x.code = some x := by cases x <;> rfl
theorem FCvtOp.ofCode_code (x : FCvtOp) : FCvtOp.ofCode x.code = some x := by cases x <;> rfl
theorem Rounding.ofCode_code (x : Rounding) : Rounding.ofCode x.code = some x := by cases x <;> rfl
theorem LoadWidth.ofCode_code (x : LoadWidth) : LoadWidth.ofCode x.code = some x := by cases x <;> rfl
theorem StoreWidth.ofCode_code (x : StoreWidth) : StoreWidth.ofCode x.code = some x := by cases x <;> rfl
theorem AmoOp.ofCode_code (x : AmoOp) : AmoOp.ofCode x.code = some x := by cases x <;> rfl
theorem Order.ofCode_code (x : Order) : Order.ofCode x.code = some x := by cases x <;> rfl
theorem Scope.ofCode_code (x : Scope) : Scope.ofCode x.code = some x := by cases x <;> rfl
theorem RedKind.ofCode_code (x : RedKind) : RedKind.ofCode x.code = some x := by cases x <;> rfl
theorem SelfFact.ofCode_code (x : SelfFact) : SelfFact.ofCode x.code = some x := by cases x <;> rfl
theorem VFloat.ofCodes_codes (x : VFloat) : VFloat.ofCodes x.szCode x.fnCode = some x := by cases x <;> rfl
theorem VCmpKind.ofCodes_codes (x : VCmpKind) : VCmpKind.ofCodes x.fkCode x.szCode x.ccCode = some x := by
  cases x with
  | int sz cc => cases sz <;> cases cc <;> rfl
  | flt f cc => cases f <;> cases cc <;> rfl
theorem flagCode_bits (b : Bool) : flagCode (flagBits 4 b) = some b := by cases b <;> rfl
theorem relCode_bits (b : Bool) : relCode (relBits b) = some b := by cases b <;> rfl
theorem fnReg_bits (m : Fin 8) : fnReg (fnRegBits m) = some m := by revert m; decide
theorem amoWide_bits (b : Bool) : amoWide ((if b then 3 else 2 : BitVec 2) ++ (0 : BitVec 13)) = some b := by cases b <;> rfl
theorem setWidth_low {n m : Nat} (x : BitVec n) (h : n ≤ m) : (x.setWidth m).extractLsb' 0 n = x := by
  apply BitVec.eq_of_toNat_eq
  have h2 : x.toNat < 2 ^ m := Nat.lt_of_lt_of_le x.isLt (Nat.pow_le_pow_right (by omega) h)
  simp [BitVec.extractLsb'_toNat, Nat.mod_eq_of_lt h2]

theorem maskBits_low (m : BitVec 8) : ((0 : BitVec 12) ++ m ++ (0 : BitVec 12) : BitVec 32).extractLsb' 12 8 = m :=
  extract_mid (m := 12) (k := 8) (n := 12) _ _ _

theorem need3_of {b : Bool} {i : Instr} (h : wellFormed i = true) (e : wfCond i = need3 b := by rfl) : b = true := by
  cases b
  · simp [wellFormed, e, need3] at h
  · rfl

theorem need3_of_or {b : Bool} {o : Option (BitVec 3)} {i : Instr} (h : wellFormed i = true) (e : wfCond i = (need3 b).or o := by rfl) :
    b = true ∧ o = none := by
  cases b
  · simp [wellFormed, e, need3] at h
  · simpa [wellFormed, e, need3] using h

theorem tlb_code {sc : Scope} (x : BitVec 1) (h : sc ≠ .ctx) : tlbScope ((x ++ sc.code : BitVec 4).extractLsb' 0 3) = some sc := by
  have e : (x ++ sc.code : BitVec 4).extractLsb' 0 3 = sc.code := by rw [extract_low _ _ _ _ (by omega)]; simp
  rw [e]; cases sc <;> first | rfl | exact absurd rfl h

theorem tlb_range {g : Guard} {sc : Scope} {a b : Src} (F : Fields) (hs : sc ≠ .ctx) (h : F.fn = (0 : BitVec 1) ++ sc.code) (hg : F.g = g)
    (ha : F.a = a) (hb : F.b = b) : decodeFields (BitVec.toNat (0xF6 : BitVec 8)) F = .ok (.tlbinvRange g sc a b) := by
  show sub1 (tlbScope (F.fn.extractLsb' 0 3)) (fun s => if F.fn.getLsbD 3 then Instr.tlbinvAll F.g s else .tlbinvRange F.g s F.a F.b) = _
  rw [h, tlb_code _ hs, hg, ha, hb]; cases sc <;> rfl

theorem tlb_all {g : Guard} {sc : Scope} (F : Fields) (hs : sc ≠ .ctx) (h : F.fn = (1 : BitVec 1) ++ sc.code) (hg : F.g = g) :
    decodeFields (BitVec.toNat (0xF6 : BitVec 8)) F = .ok (.tlbinvAll g sc) := by
  show sub1 (tlbScope (F.fn.extractLsb' 0 3)) (fun s => if F.fn.getLsbD 3 then Instr.tlbinvAll F.g s else .tlbinvRange F.g s F.a F.b) = _
  rw [h, tlb_code _ hs, hg]; cases sc <;> rfl

theorem perm_noSrc {g : Guard} {op : PermOp} {sz : ElemSize} {d : Reg} {a b : Src} (h : wellFormed (.vperm g op sz d a b) = true)
    (hu : op.usesB = false) : b = Src.zero := by
  have := (need3_of_or h).1
  obtain ⟨r, t⟩ := b
  simpa [hu, isNoSrc, Src.zero] using this

theorem rounds_code {o : Bool} {rm : Rounding} (h : o = true ∨ rm = .rne) : (if o = true then rm.code else 0) = rm.code := by
  rcases h with h | h
  · simp [h]
  · subst h; cases o <;> rfl

/-! ### From the fields to the instruction -/

theorem or_and_same (w m : Word) : w ||| (w &&& m) = w := by ext i; simp; tauto

theorem roundTrip_word {i : Instr} {w : Word} (he : encodeWord i = some w) (hc : encodeCommand i = none)
    (hd : wellFormed i = true → decodeFields (opcAt w).toNat (Fields.ofWord w) = .ok i) : Laws.RoundTrip.Statement i := by
  intro hw
  refine ⟨fun v hv => ?_, fun v hv => by simp [hc] at hv⟩
  obtain rfl : w = v := by simpa [he] using hv
  have hn : wfCond i = none := by simpa [wellFormed] using hw
  simp only [decodeWord, hd hw, hn, he, Option.getD_some]
  simp [or_and_same]

theorem roundTrip_none {i : Instr} (he : encodeWord i = none) (hc : encodeCommand i = none) : Laws.RoundTrip.Statement i :=
  fun _ => ⟨fun v hv => by simp [he] at hv, fun v hv => by simp [hc] at hv⟩

theorem packCommand_cop (cop : BitVec 8) (c : CmdArgs) : (packCommand cop c).extractLsb' 248 8 = cop := by
  exact Eq.trans (extract_high (m := 176) (n := 80) _ _ 248 8 (by omega)) (Eq.trans (extract_high (m := 144) (n := 32) _ _ 168 8 (by omega)) (Eq.trans (extract_high (m := 112) (n := 32) _ _ 136 8 (by omega)) (Eq.trans (extract_high (m := 80) (n := 32) _ _ 104 8 (by omega)) (Eq.trans (extract_high (m := 16) (n := 64) _ _ 72 8 (by omega)) (Eq.trans (extract_high (m := 15) (n := 1) _ _ 8 8 (by omega)) (Eq.trans (extract_high (m := 12) (n := 3) _ _ 7 8 (by omega)) (Eq.trans (extract_high (m := 10) (n := 2) _ _ 4 8 (by omega)) (Eq.trans (extract_high (m := 9) (n := 1) _ _ 2 8 (by omega)) (Eq.trans (extract_high (m := 8) (n := 1) _ _ 1 8 (by omega)) (extract_all _))))))))))

theorem packCommand_args (cop : BitVec 8) (c : CmdArgs) : cmdArgsOf (packCommand cop c) = c := by
  have h_rel : (packCommand cop c).getLsbD 247 = c.rel := getLsbD_of_extract _ _ _ (Eq.trans (extract_high (m := 176) (n := 80) _ _ 247 1 (by omega)) (Eq.trans (extract_high (m := 144) (n := 32) _ _ 167 1 (by omega)) (Eq.trans (extract_high (m := 112) (n := 32) _ _ 135 1 (by omega)) (Eq.trans (extract_high (m := 80) (n := 32) _ _ 103 1 (by omega)) (Eq.trans (extract_high (m := 16) (n := 64) _ _ 71 1 (by omega)) (Eq.trans (extract_high (m := 15) (n := 1) _ _ 7 1 (by omega)) (Eq.trans (extract_high (m := 12) (n := 3) _ _ 6 1 (by omega)) (Eq.trans (extract_high (m := 10) (n := 2) _ _ 3 1 (by omega)) (Eq.trans (extract_high (m := 9) (n := 1) _ _ 1 1 (by omega)) (Eq.trans (extract_low (m := 8) (n := 1) _ _ 0 1 (by omega)) (extract_all _)))))))))))
  have h_qbar : (packCommand cop c).getLsbD 246 = c.qbar := getLsbD_of_extract _ _ _ (Eq.trans (extract_high (m := 176) (n := 80) _ _ 246 1 (by omega)) (Eq.trans (extract_high (m := 144) (n := 32) _ _ 166 1 (by omega)) (Eq.trans (extract_high (m := 112) (n := 32) _ _ 134 1 (by omega)) (Eq.trans (extract_high (m := 80) (n := 32) _ _ 102 1 (by omega)) (Eq.trans (extract_high (m := 16) (n := 64) _ _ 70 1 (by omega)) (Eq.trans (extract_high (m := 15) (n := 1) _ _ 6 1 (by omega)) (Eq.trans (extract_high (m := 12) (n := 3) _ _ 5 1 (by omega)) (Eq.trans (extract_high (m := 10) (n := 2) _ _ 2 1 (by omega)) (Eq.trans (extract_low (m := 9) (n := 1) _ _ 0 1 (by omega)) (extract_all _))))))))))
  have h_ckind : (packCommand cop c).extractLsb' 244 2 = c.ckind := Eq.trans (extract_high (m := 176) (n := 80) _ _ 244 2 (by omega)) (Eq.trans (extract_high (m := 144) (n := 32) _ _ 164 2 (by omega)) (Eq.trans (extract_high (m := 112) (n := 32) _ _ 132 2 (by omega)) (Eq.trans (extract_high (m := 80) (n := 32) _ _ 100 2 (by omega)) (Eq.trans (extract_high (m := 16) (n := 64) _ _ 68 2 (by omega)) (Eq.trans (extract_high (m := 15) (n := 1) _ _ 4 2 (by omega)) (Eq.trans (extract_high (m := 12) (n := 3) _ _ 3 2 (by omega)) (Eq.trans (extract_low (m := 10) (n := 2) _ _ 0 2 (by omega)) (extract_all _))))))))
  have h_csc : (packCommand cop c).extractLsb' 241 3 = c.csc := Eq.trans (extract_high (m := 176) (n := 80) _ _ 241 3 (by omega)) (Eq.trans (extract_high (m := 144) (n := 32) _ _ 161 3 (by omega)) (Eq.trans (extract_high (m := 112) (n := 32) _ _ 129 3 (by omega)) (Eq.trans (extract_high (m := 80) (n := 32) _ _ 97 3 (by omega)) (Eq.trans (extract_high (m := 16) (n := 64) _ _ 65 3 (by omega)) (Eq.trans (extract_high (m := 15) (n := 1) _ _ 1 3 (by omega)) (Eq.trans (extract_low (m := 12) (n := 3) _ _ 0 3 (by omega)) (extract_all _)))))))
  have h_bit240 : (packCommand cop c).getLsbD 240 = c.bit240 := getLsbD_of_extract _ _ _ (Eq.trans (extract_high (m := 176) (n := 80) _ _ 240 1 (by omega)) (Eq.trans (extract_high (m := 144) (n := 32) _ _ 160 1 (by omega)) (Eq.trans (extract_high (m := 112) (n := 32) _ _ 128 1 (by omega)) (Eq.trans (extract_high (m := 80) (n := 32) _ _ 96 1 (by omega)) (Eq.trans (extract_high (m := 16) (n := 64) _ _ 64 1 (by omega)) (Eq.trans (extract_low (m := 15) (n := 1) _ _ 0 1 (by omega)) (extract_all _)))))))
  have h_ctgt : (packCommand cop c).extractLsb' 176 64 = c.ctgt := Eq.trans (extract_high (m := 176) (n := 80) _ _ 176 64 (by omega)) (Eq.trans (extract_high (m := 144) (n := 32) _ _ 96 64 (by omega)) (Eq.trans (extract_high (m := 112) (n := 32) _ _ 64 64 (by omega)) (Eq.trans (extract_high (m := 80) (n := 32) _ _ 32 64 (by omega)) (Eq.trans (extract_low (m := 16) (n := 64) _ _ 0 64 (by omega)) (extract_all _)))))
  have h_ha : (packCommand cop c).extractLsb' 144 32 = c.ha := Eq.trans (extract_high (m := 176) (n := 80) _ _ 144 32 (by omega)) (Eq.trans (extract_high (m := 144) (n := 32) _ _ 64 32 (by omega)) (Eq.trans (extract_high (m := 112) (n := 32) _ _ 32 32 (by omega)) (Eq.trans (extract_low (m := 80) (n := 32) _ _ 0 32 (by omega)) (extract_all _))))
  have h_hb : (packCommand cop c).extractLsb' 112 32 = c.hb := Eq.trans (extract_high (m := 176) (n := 80) _ _ 112 32 (by omega)) (Eq.trans (extract_high (m := 144) (n := 32) _ _ 32 32 (by omega)) (Eq.trans (extract_low (m := 112) (n := 32) _ _ 0 32 (by omega)) (extract_all _)))
  have h_hc : (packCommand cop c).extractLsb' 80 32 = c.hc := Eq.trans (extract_high (m := 176) (n := 80) _ _ 80 32 (by omega)) (Eq.trans (extract_low (m := 144) (n := 32) _ _ 0 32 (by omega)) (extract_all _))
  have h_ops : (packCommand cop c).extractLsb' 0 80 = c.ops := Eq.trans (extract_low (m := 176) (n := 80) _ _ 0 80 (by omega)) (extract_all _)
  simp only [cmdArgsOf, h_rel, h_qbar, h_ckind, h_csc, h_bit240, h_ctgt, h_ha, h_hb, h_hc, h_ops]

theorem roundTrip_command {i : Instr} {cop : BitVec 8} {c : CmdArgs} (he : encodeWord i = none) (hc : encodeCommand i = some (packCommand cop c))
    (hw : wfCond i = needCmd c) (hd : commandOf cop.toNat c = some i) : Laws.RoundTrip.Statement i := by
  intro hwf
  refine ⟨fun v hv => by simp [he] at hv, fun v hv => ?_⟩
  obtain rfl : packCommand cop c = v := by simpa [hc] using hv
  have hl : c.legal = true := by
    by_contra h
    simp [wellFormed, hw, needCmd, h] at hwf
  simp [decodeCommand, packCommand_args, packCommand_cop, hl, hd]

end Sys2Proof

namespace Sys2Proof.Laws.RoundTrip


theorem add (g : Guard) (d : Reg) (a b : Src) : Statement (.add g d a b) :=
  roundTrip_word rfl rfl (by
    intro hw
    simp only [Fields.ofWord, encR_g, encR_la, encR_opc, encR_d, encR_a, encR_b, encR_c, encR_fn, encR_sz, encR_rm]
    rfl)
theorem sub (g : Guard) (d : Reg) (a b : Src) : Statement (.sub g d a b) :=
  roundTrip_word rfl rfl (by
    intro hw
    simp only [Fields.ofWord, encR_g, encR_la, encR_opc, encR_d, encR_a, encR_b, encR_c, encR_fn, encR_sz, encR_rm]
    rfl)
theorem addi (g : Guard) (d : Reg) (a : Src) (imm : BitVec 28) : Statement (.addi g d a imm) :=
  roundTrip_word rfl rfl (by
    intro hw
    simp only [Fields.ofWord, encI_g, encI_la, encI_opc, encI_d, encI_a, encI_imm]
    rfl)
theorem mul (g : Guard) (d : Reg) (a b : Src) : Statement (.mul g d a b) :=
  roundTrip_word rfl rfl (by
    intro hw
    simp only [Fields.ofWord, encR_g, encR_la, encR_opc, encR_d, encR_a, encR_b, encR_c, encR_fn, encR_sz, encR_rm]
    rfl)
theorem mulh (g : Guard) (d : Reg) (a b : Src) : Statement (.mulh g d a b) :=
  roundTrip_word rfl rfl (by
    intro hw
    simp only [Fields.ofWord, encR_g, encR_la, encR_opc, encR_d, encR_a, encR_b, encR_c, encR_fn, encR_sz, encR_rm]
    rfl)
theorem mulhu (g : Guard) (d : Reg) (a b : Src) : Statement (.mulhu g d a b) :=
  roundTrip_word rfl rfl (by
    intro hw
    simp only [Fields.ofWord, encR_g, encR_la, encR_opc, encR_d, encR_a, encR_b, encR_c, encR_fn, encR_sz, encR_rm]
    rfl)
theorem div (g : Guard) (d : Reg) (a b : Src) : Statement (.div g d a b) :=
  roundTrip_word rfl rfl (by
    intro hw
    simp only [Fields.ofWord, encR_g, encR_la, encR_opc, encR_d, encR_a, encR_b, encR_c, encR_fn, encR_sz, encR_rm]
    rfl)
theorem divu (g : Guard) (d : Reg) (a b : Src) : Statement (.divu g d a b) :=
  roundTrip_word rfl rfl (by
    intro hw
    simp only [Fields.ofWord, encR_g, encR_la, encR_opc, encR_d, encR_a, encR_b, encR_c, encR_fn, encR_sz, encR_rm]
    rfl)
theorem rem (g : Guard) (d : Reg) (a b : Src) : Statement (.rem g d a b) :=
  roundTrip_word rfl rfl (by
    intro hw
    simp only [Fields.ofWord, encR_g, encR_la, encR_opc, encR_d, encR_a, encR_b, encR_c, encR_fn, encR_sz, encR_rm]
    rfl)
theorem remu (g : Guard) (d : Reg) (a b : Src) : Statement (.remu g d a b) :=
  roundTrip_word rfl rfl (by
    intro hw
    simp only [Fields.ofWord, encR_g, encR_la, encR_opc, encR_d, encR_a, encR_b, encR_c, encR_fn, encR_sz, encR_rm]
    rfl)
theorem and (g : Guard) (d : Reg) (a b : Src) : Statement (.and g d a b) :=
  roundTrip_word rfl rfl (by
    intro hw
    simp only [Fields.ofWord, encR_g, encR_la, encR_opc, encR_d, encR_a, encR_b, encR_c, encR_fn, encR_sz, encR_rm]
    rfl)
theorem or (g : Guard) (d : Reg) (a b : Src) : Statement (.or g d a b) :=
  roundTrip_word rfl rfl (by
    intro hw
    simp only [Fields.ofWord, encR_g, encR_la, encR_opc, encR_d, encR_a, encR_b, encR_c, encR_fn, encR_sz, encR_rm]
    rfl)
theorem xor (g : Guard) (d : Reg) (a b : Src) : Statement (.xor g d a b) :=
  roundTrip_word rfl rfl (by
    intro hw
    simp only [Fields.ofWord, encR_g, encR_la, encR_opc, encR_d, encR_a, encR_b, encR_c, encR_fn, encR_sz, encR_rm]
    rfl)
theorem andn (g : Guard) (d : Reg) (a b : Src) : Statement (.andn g d a b) :=
  roundTrip_word rfl rfl (by
    intro hw
    simp only [Fields.ofWord, encR_g, encR_la, encR_opc, encR_d, encR_a, encR_b, encR_c, encR_fn, encR_sz, encR_rm]
    rfl)
theorem shl (g : Guard) (d : Reg) (a b : Src) : Statement (.shl g d a b) :=
  roundTrip_word rfl rfl (by
    intro hw
    simp only [Fields.ofWord, encR_g, encR_la, encR_opc, encR_d, encR_a, encR_b, encR_c, encR_fn, encR_sz, encR_rm]
    rfl)
theorem shr (g : Guard) (d : Reg) (a b : Src) : Statement (.shr g d a b) :=
  roundTrip_word rfl rfl (by
    intro hw
    simp only [Fields.ofWord, encR_g, encR_la, encR_opc, encR_d, encR_a, encR_b, encR_c, encR_fn, encR_sz, encR_rm]
    rfl)
theorem sar (g : Guard) (d : Reg) (a b : Src) : Statement (.sar g d a b) :=
  roundTrip_word rfl rfl (by
    intro hw
    simp only [Fields.ofWord, encR_g, encR_la, encR_opc, encR_d, encR_a, encR_b, encR_c, encR_fn, encR_sz, encR_rm]
    rfl)
theorem rot (g : Guard) (d : Reg) (a b : Src) : Statement (.rot g d a b) :=
  roundTrip_word rfl rfl (by
    intro hw
    simp only [Fields.ofWord, encR_g, encR_la, encR_opc, encR_d, encR_a, encR_b, encR_c, encR_fn, encR_sz, encR_rm]
    rfl)
theorem min (g : Guard) (d : Reg) (a b : Src) : Statement (.min g d a b) :=
  roundTrip_word rfl rfl (by
    intro hw
    simp only [Fields.ofWord, encR_g, encR_la, encR_opc, encR_d, encR_a, encR_b, encR_c, encR_fn, encR_sz, encR_rm]
    rfl)
theorem max (g : Guard) (d : Reg) (a b : Src) : Statement (.max g d a b) :=
  roundTrip_word rfl rfl (by
    intro hw
    simp only [Fields.ofWord, encR_g, encR_la, encR_opc, encR_d, encR_a, encR_b, encR_c, encR_fn, encR_sz, encR_rm]
    rfl)
theorem minu (g : Guard) (d : Reg) (a b : Src) : Statement (.minu g d a b) :=
  roundTrip_word rfl rfl (by
    intro hw
    simp only [Fields.ofWord, encR_g, encR_la, encR_opc, encR_d, encR_a, encR_b, encR_c, encR_fn, encR_sz, encR_rm]
    rfl)
theorem maxu (g : Guard) (d : Reg) (a b : Src) : Statement (.maxu g d a b) :=
  roundTrip_word rfl rfl (by
    intro hw
    simp only [Fields.ofWord, encR_g, encR_la, encR_opc, encR_d, encR_a, encR_b, encR_c, encR_fn, encR_sz, encR_rm]
    rfl)
theorem abs (g : Guard) (d : Reg) (a : Src) : Statement (.abs g d a) :=
  roundTrip_word rfl rfl (by
    intro hw
    simp only [Fields.ofWord, encR_g, encR_la, encR_opc, encR_d, encR_a, encR_b, encR_c, encR_fn, encR_sz, encR_rm]
    rfl)
theorem clz (g : Guard) (d : Reg) (a : Src) : Statement (.clz g d a) :=
  roundTrip_word rfl rfl (by
    intro hw
    simp only [Fields.ofWord, encR_g, encR_la, encR_opc, encR_d, encR_a, encR_b, encR_c, encR_fn, encR_sz, encR_rm]
    rfl)
theorem ctz (g : Guard) (d : Reg) (a : Src) : Statement (.ctz g d a) :=
  roundTrip_word rfl rfl (by
    intro hw
    simp only [Fields.ofWord, encR_g, encR_la, encR_opc, encR_d, encR_a, encR_b, encR_c, encR_fn, encR_sz, encR_rm]
    rfl)
theorem popc (g : Guard) (d : Reg) (a : Src) : Statement (.popc g d a) :=
  roundTrip_word rfl rfl (by
    intro hw
    simp only [Fields.ofWord, encR_g, encR_la, encR_opc, encR_d, encR_a, encR_b, encR_c, encR_fn, encR_sz, encR_rm]
    rfl)
theorem bext (g : Guard) (d : Reg) (a b : Src) : Statement (.bext g d a b) :=
  roundTrip_word rfl rfl (by
    intro hw
    simp only [Fields.ofWord, encR_g, encR_la, encR_opc, encR_d, encR_a, encR_b, encR_c, encR_fn, encR_sz, encR_rm]
    rfl)
theorem bins (g : Guard) (d : Reg) (a b cc : Src) : Statement (.bins g d a b cc) :=
  roundTrip_word rfl rfl (by
    intro hw
    simp only [Fields.ofWord, encR_g, encR_la, encR_opc, encR_d, encR_a, encR_b, encR_c, encR_fn, encR_sz, encR_rm]
    rfl)
theorem sext (g : Guard) (w : ExtWidth) (d : Reg) (a : Src) : Statement (.sext g w d a) :=
  roundTrip_word rfl rfl (by
    intro hw
    simp only [Fields.ofWord, encR_g, encR_la, encR_opc, encR_d, encR_a, encR_b, encR_c, encR_fn, encR_sz, encR_rm]
    simp [decodeFields, decodeInteger, sub1, ExtWidth.ofCode_code])
theorem zext (g : Guard) (w : ExtWidth) (d : Reg) (a : Src) : Statement (.zext g w d a) :=
  roundTrip_word rfl rfl (by
    intro hw
    simp only [Fields.ofWord, encR_g, encR_la, encR_opc, encR_d, encR_a, encR_b, encR_c, encR_fn, encR_sz, encR_rm]
    simp [decodeFields, decodeInteger, sub1, ExtWidth.ofCode_code])
theorem sel (g : Guard) (k : PReg) (d : Reg) (a b : Src) : Statement (.sel g k d a b) :=
  roundTrip_word rfl rfl (by
    intro hw
    simp only [Fields.ofWord, encR_g, encR_la, encR_opc, encR_d, encR_a, encR_b, encR_c, encR_fn, encR_sz, encR_rm]
    simp [decodeFields, decodeInteger, sub1, fnReg_bits])
theorem ldi (g : Guard) (d : Reg) (imm : BitVec 32) : Statement (.ldi g d imm) :=
  roundTrip_word rfl rfl (by
    intro hw
    simp only [Fields.ofWord, encL_g, encL_la, encL_opc, encL_d, encL_imm]
    rfl)
theorem ldih (g : Guard) (d : Reg) (imm : BitVec 32) : Statement (.ldih g d imm) :=
  roundTrip_word rfl rfl (by
    intro hw
    simp only [Fields.ofWord, encL_g, encL_la, encL_opc, encL_d, encL_imm]
    rfl)
theorem addpc (g : Guard) (d : Reg) (off : BitVec 32) : Statement (.addpc g d off) :=
  roundTrip_word rfl rfl (by
    intro hw
    simp only [Fields.ofWord, encL_g, encL_la, encL_opc, encL_d, encL_imm]
    rfl)
theorem fatset (g : Guard) (d : Reg) (a b : Src) : Statement (.fatset g d a b) :=
  roundTrip_word rfl rfl (by
    intro hw
    simp only [Fields.ofWord, encR_g, encR_la, encR_opc, encR_d, encR_a, encR_b, encR_c, encR_fn, encR_sz, encR_rm]
    rfl)
theorem fatget (g : Guard) (d : Reg) (a : Src) : Statement (.fatget g d a) :=
  roundTrip_word rfl rfl (by
    intro hw
    simp only [Fields.ofWord, encR_g, encR_la, encR_opc, encR_d, encR_a, encR_b, encR_c, encR_fn, encR_sz, encR_rm]
    rfl)
theorem andi (g : Guard) (d : Reg) (a : Src) (imm : BitVec 28) : Statement (.andi g d a imm) :=
  roundTrip_word rfl rfl (by
    intro hw
    simp only [Fields.ofWord, encI_g, encI_la, encI_opc, encI_d, encI_a, encI_imm]
    rfl)
theorem ori (g : Guard) (d : Reg) (a : Src) (imm : BitVec 28) : Statement (.ori g d a imm) :=
  roundTrip_word rfl rfl (by
    intro hw
    simp only [Fields.ofWord, encI_g, encI_la, encI_opc, encI_d, encI_a, encI_imm]
    rfl)
theorem xori (g : Guard) (d : Reg) (a : Src) (imm : BitVec 28) : Statement (.xori g d a imm) :=
  roundTrip_word rfl rfl (by
    intro hw
    simp only [Fields.ofWord, encI_g, encI_la, encI_opc, encI_d, encI_a, encI_imm]
    rfl)
theorem shli (g : Guard) (d : Reg) (a : Src) (n : BitVec 6) : Statement (.shli g d a n) :=
  roundTrip_word rfl rfl (by
    intro hw
    simp only [Fields.ofWord, encI_g, encI_la, encI_opc, encI_d, encI_a, encI_imm]
    exact congrArg (fun n => Except.ok (Instr.shli g d a n)) (setWidth_low n (by omega)))
theorem shri (g : Guard) (d : Reg) (a : Src) (n : BitVec 6) : Statement (.shri g d a n) :=
  roundTrip_word rfl rfl (by
    intro hw
    simp only [Fields.ofWord, encI_g, encI_la, encI_opc, encI_d, encI_a, encI_imm]
    exact congrArg (fun n => Except.ok (Instr.shri g d a n)) (setWidth_low n (by omega)))
theorem sari (g : Guard) (d : Reg) (a : Src) (n : BitVec 6) : Statement (.sari g d a n) :=
  roundTrip_word rfl rfl (by
    intro hw
    simp only [Fields.ofWord, encI_g, encI_la, encI_opc, encI_d, encI_a, encI_imm]
    exact congrArg (fun n => Except.ok (Instr.sari g d a n)) (setWidth_low n (by omega)))
theorem cmp (g : Guard) (pk : BitVec 2) (cm : Combine) (cc : IntCond) (a b : Src) : Statement (.cmp g pk cm cc a b) :=
  roundTrip_word rfl rfl (by
    intro hw
    simp only [Fields.ofWord, encP_g, encP_la, encP_opc, encP_pk, encP_cm, encP_a, encP_b, encP_cc, encP_sz, encP_fk]
    simp [decodeFields, decodeInteger, sub2, Combine.ofCode_code, IntCond.ofCode_code])
theorem cmpi (g : Guard) (pk : BitVec 2) (cm : Combine) (cc : IntCond) (a : Src) (imm : BitVec 23) : Statement (.cmpi g pk cm cc a imm) :=
  roundTrip_word rfl rfl (by
    intro hw
    simp only [Fields.ofWord, encPI_g, encPI_la, encPI_opc, encPI_pk, encPI_cm, encPI_a, encPI_cc, encPI_imm]
    simp [decodeFields, decodeInteger, sub2, Combine.ofCode_code, IntCond.ofCode_code])
theorem tst (g : Guard) (pk : BitVec 2) (cm : Combine) (nz : Bool) (a b : Src) : Statement (.tst g pk cm nz a b) :=
  roundTrip_word rfl rfl (by
    intro hw
    simp only [Fields.ofWord, encP_g, encP_la, encP_opc, encP_pk, encP_cm, encP_a, encP_b, encP_cc, encP_sz, encP_fk]
    simp [decodeFields, decodeInteger, sub2, Combine.ofCode_code, flagCode_bits])
theorem fcmp (g : Guard) (pk : BitVec 2) (cm : Combine) (fmt : FScalar) (cc : FloatCond) (a b : Src) : Statement (.fcmp g pk cm fmt cc a b) :=
  roundTrip_word rfl rfl (by
    intro hw
    simp only [Fields.ofWord, encP_g, encP_la, encP_opc, encP_pk, encP_cm, encP_a, encP_b, encP_cc, encP_sz, encP_fk]
    simp [decodeFields, decodeInteger, sub3, Combine.ofCode_code, FScalar.ofCode_code, FloatCond.ofCode_code])
theorem pset (g : Guard) (x y z w : PReg) (tbl : BitVec 8) : Statement (.pset g x y z w tbl) :=
  roundTrip_word rfl rfl (by
    intro hw
    simp only [Fields.ofWord, encPL_g, encPL_la, encPL_opc, encPL_x, encPL_y, encPL_z, encPL_v, encPL_tbl, encPL_fn]
    rfl)
theorem pmov (g : Guard) (f : PMovForm) (x y : Reg) : Statement (.pmov g f x y) :=
  roundTrip_word rfl rfl (by
    intro hw
    simp only [Fields.ofWord, encPL_g, encPL_la, encPL_opc, encPL_x, encPL_y, encPL_z, encPL_v, encPL_tbl, encPL_fn]
    simp [decodeFields, decodeInteger, sub1, PMovForm.ofCode_code])
theorem pcnt (g : Guard) (x : Reg) (y : PReg) : Statement (.pcnt g x y) :=
  roundTrip_word rfl rfl (by
    intro hw
    simp only [Fields.ofWord, encPL_g, encPL_la, encPL_opc, encPL_x, encPL_y, encPL_z, encPL_v, encPL_tbl, encPL_fn]
    rfl)
theorem br (g : Guard) (off : BitVec 32) : Statement (.br g off) :=
  roundTrip_word rfl rfl (by
    intro hw
    simp only [Fields.ofWord, encL_g, encL_la, encL_opc, encL_d, encL_imm]
    rfl)
theorem brl (g : Guard) (d : Reg) (off : BitVec 32) : Statement (.brl g d off) :=
  roundTrip_word rfl rfl (by
    intro hw
    simp only [Fields.ofWord, encL_g, encL_la, encL_opc, encL_d, encL_imm]
    rfl)
theorem jr (g : Guard) (a : Src) : Statement (.jr g a) :=
  roundTrip_word rfl rfl (by
    intro hw
    simp only [Fields.ofWord, encR_g, encR_la, encR_opc, encR_d, encR_a, encR_b, encR_c, encR_fn, encR_sz, encR_rm]
    rfl)
theorem jrl (g : Guard) (d : Reg) (a : Src) : Statement (.jrl g d a) :=
  roundTrip_word rfl rfl (by
    intro hw
    simp only [Fields.ofWord, encR_g, encR_la, encR_opc, encR_d, encR_a, encR_b, encR_c, encR_fn, encR_sz, encR_rm]
    rfl)
theorem loop (g : Guard) (d : Reg) (off : BitVec 32) : Statement (.loop g d off) :=
  roundTrip_word rfl rfl (by
    intro hw
    simp only [Fields.ofWord, encL_g, encL_la, encL_opc, encL_d, encL_imm]
    rfl)
theorem waitInbox (g : Guard) : Statement (.waitInbox g) :=
  roundTrip_word rfl rfl (by
    intro hw
    simp only [Fields.ofWord, encR_g, encR_la, encR_opc, encR_d, encR_a, encR_b, encR_c, encR_fn, encR_sz, encR_rm]
    rfl)
theorem waitFull (g : Guard) (a : Src) : Statement (.waitFull g a) :=
  roundTrip_word rfl rfl (by
    intro hw
    simp only [Fields.ofWord, encR_g, encR_la, encR_opc, encR_d, encR_a, encR_b, encR_c, encR_fn, encR_sz, encR_rm]
    rfl)
theorem waitTime (g : Guard) (a : Src) : Statement (.waitTime g a) :=
  roundTrip_word rfl rfl (by
    intro hw
    simp only [Fields.ofWord, encR_g, encR_la, encR_opc, encR_d, encR_a, encR_b, encR_c, encR_fn, encR_sz, encR_rm]
    rfl)
theorem yield (g : Guard) : Statement (.yield g) :=
  roundTrip_word rfl rfl (by
    intro hw
    simp only [Fields.ofWord, encR_g, encR_la, encR_opc, encR_d, encR_a, encR_b, encR_c, encR_fn, encR_sz, encR_rm]
    rfl)
theorem nop (g : Guard) : Statement (.nop g) :=
  roundTrip_word rfl rfl (by
    intro hw
    simp only [Fields.ofWord, encR_g, encR_la, encR_opc, encR_d, encR_a, encR_b, encR_c, encR_fn, encR_sz, encR_rm]
    rfl)
theorem illegalOpcode (word : Word) (cond : BitVec 3) : Statement (.illegalOpcode word cond) := fun h => by simp [wellFormed, wfCond] at h
theorem vadd (g : Guard) (op : SatOp) (sz : ElemSize) (d : Reg) (a b : Src) : Statement (.vadd g op sz d a b) :=
  roundTrip_word rfl rfl (by
    intro hw
    simp only [Fields.ofWord, encR_g, encR_la, encR_opc, encR_d, encR_a, encR_b, encR_c, encR_fn, encR_sz, encR_rm]
    simp [decodeFields, decodeVector, sub2, SatOp.ofCode_code, ElemSize.ofCode_code])
theorem vsub (g : Guard) (op : SatOp) (sz : ElemSize) (d : Reg) (a b : Src) : Statement (.vsub g op sz d a b) :=
  roundTrip_word rfl rfl (by
    intro hw
    simp only [Fields.ofWord, encR_g, encR_la, encR_opc, encR_d, encR_a, encR_b, encR_c, encR_fn, encR_sz, encR_rm]
    simp [decodeFields, decodeVector, sub2, SatOp.ofCode_code, ElemSize.ofCode_code])
theorem vmul (g : Guard) (op : MulPart) (sz : ElemSize) (d : Reg) (a b : Src) : Statement (.vmul g op sz d a b) :=
  roundTrip_word rfl rfl (by
    intro hw
    simp only [Fields.ofWord, encR_g, encR_la, encR_opc, encR_d, encR_a, encR_b, encR_c, encR_fn, encR_sz, encR_rm]
    simp [decodeFields, decodeVector, sub2, MulPart.ofCode_code, ElemSize.ofCode_code])
theorem vmin (g : Guard) (unsigned : Bool) (sz : ElemSize) (d : Reg) (a b : Src) : Statement (.vmin g unsigned sz d a b) :=
  roundTrip_word rfl rfl (by
    intro hw
    simp only [Fields.ofWord, encR_g, encR_la, encR_opc, encR_d, encR_a, encR_b, encR_c, encR_fn, encR_sz, encR_rm]
    simp [decodeFields, decodeVector, sub2, ElemSize.ofCode_code, flagCode_bits])
theorem vmax (g : Guard) (unsigned : Bool) (sz : ElemSize) (d : Reg) (a b : Src) : Statement (.vmax g unsigned sz d a b) :=
  roundTrip_word rfl rfl (by
    intro hw
    simp only [Fields.ofWord, encR_g, encR_la, encR_opc, encR_d, encR_a, encR_b, encR_c, encR_fn, encR_sz, encR_rm]
    simp [decodeFields, decodeVector, sub2, ElemSize.ofCode_code, flagCode_bits])
theorem vand (g : Guard) (sz : ElemSize) (d : Reg) (a b : Src) : Statement (.vand g sz d a b) :=
  roundTrip_word rfl rfl (by
    intro hw
    simp only [Fields.ofWord, encR_g, encR_la, encR_opc, encR_d, encR_a, encR_b, encR_c, encR_fn, encR_sz, encR_rm]
    simp [decodeFields, decodeVector, sub1, ElemSize.ofCode_code])
theorem vor (g : Guard) (sz : ElemSize) (d : Reg) (a b : Src) : Statement (.vor g sz d a b) :=
  roundTrip_word rfl rfl (by
    intro hw
    simp only [Fields.ofWord, encR_g, encR_la, encR_opc, encR_d, encR_a, encR_b, encR_c, encR_fn, encR_sz, encR_rm]
    simp [decodeFields, decodeVector, sub1, ElemSize.ofCode_code])
theorem vxor (g : Guard) (sz : ElemSize) (d : Reg) (a b : Src) : Statement (.vxor g sz d a b) :=
  roundTrip_word rfl rfl (by
    intro hw
    simp only [Fields.ofWord, encR_g, encR_la, encR_opc, encR_d, encR_a, encR_b, encR_c, encR_fn, encR_sz, encR_rm]
    simp [decodeFields, decodeVector, sub1, ElemSize.ofCode_code])
theorem vandn (g : Guard) (sz : ElemSize) (d : Reg) (a b : Src) : Statement (.vandn g sz d a b) :=
  roundTrip_word rfl rfl (by
    intro hw
    simp only [Fields.ofWord, encR_g, encR_la, encR_opc, encR_d, encR_a, encR_b, encR_c, encR_fn, encR_sz, encR_rm]
    simp [decodeFields, decodeVector, sub1, ElemSize.ofCode_code])
theorem vshl (g : Guard) (sz : ElemSize) (d : Reg) (a b : Src) : Statement (.vshl g sz d a b) :=
  roundTrip_word rfl rfl (by
    intro hw
    simp only [Fields.ofWord, encR_g, encR_la, encR_opc, encR_d, encR_a, encR_b, encR_c, encR_fn, encR_sz, encR_rm]
    simp [decodeFields, decodeVector, sub1, ElemSize.ofCode_code])
theorem vshr (g : Guard) (sz : ElemSize) (d : Reg) (a b : Src) : Statement (.vshr g sz d a b) :=
  roundTrip_word rfl rfl (by
    intro hw
    simp only [Fields.ofWord, encR_g, encR_la, encR_opc, encR_d, encR_a, encR_b, encR_c, encR_fn, encR_sz, encR_rm]
    simp [decodeFields, decodeVector, sub1, ElemSize.ofCode_code])
theorem vsar (g : Guard) (sz : ElemSize) (d : Reg) (a b : Src) : Statement (.vsar g sz d a b) :=
  roundTrip_word rfl rfl (by
    intro hw
    simp only [Fields.ofWord, encR_g, encR_la, encR_opc, encR_d, encR_a, encR_b, encR_c, encR_fn, encR_sz, encR_rm]
    simp [decodeFields, decodeVector, sub1, ElemSize.ofCode_code])
theorem vshuf (g : Guard) (sz : ElemSize) (d : Reg) (a b cc : Src) : Statement (.vshuf g sz d a b cc) :=
  roundTrip_word rfl rfl (by
    intro hw
    simp only [Fields.ofWord, encR_g, encR_la, encR_opc, encR_d, encR_a, encR_b, encR_c, encR_fn, encR_sz, encR_rm]
    simp [decodeFields, decodeVector, sub1, ElemSize.ofCode_code])
theorem vperm (g : Guard) (op : PermOp) (sz : ElemSize) (d : Reg) (a b : Src) : Statement (.vperm g op sz d a b) :=
  roundTrip_word rfl rfl (by
    intro hw
    simp only [Fields.ofWord, encR_g, encR_la, encR_opc, encR_d, encR_a, encR_b, encR_c, encR_fn, encR_sz, encR_rm]
    simp [decodeFields, decodeVector, sub2, PermOp.ofCode_code, ElemSize.ofCode_code]
    exact fun h => (perm_noSrc hw h).symm)
theorem vsplat (g : Guard) (sz : ElemSize) (d : Reg) (a : Src) : Statement (.vsplat g sz d a) :=
  roundTrip_word rfl rfl (by
    intro hw
    simp only [Fields.ofWord, encR_g, encR_la, encR_opc, encR_d, encR_a, encR_b, encR_c, encR_fn, encR_sz, encR_rm]
    simp [decodeFields, decodeVector, sub1, ElemSize.ofCode_code])
theorem vext (g : Guard) (signed : Bool) (sz : ElemSize) (d : Reg) (a b : Src) : Statement (.vext g signed sz d a b) :=
  roundTrip_word rfl rfl (by
    intro hw
    simp only [Fields.ofWord, encR_g, encR_la, encR_opc, encR_d, encR_a, encR_b, encR_c, encR_fn, encR_sz, encR_rm]
    simp [decodeFields, decodeVector, sub2, ElemSize.ofCode_code, flagCode_bits])
theorem vins (g : Guard) (sz : ElemSize) (d : Reg) (a b : Src) : Statement (.vins g sz d a b) :=
  roundTrip_word rfl rfl (by
    intro hw
    simp only [Fields.ofWord, encR_g, encR_la, encR_opc, encR_d, encR_a, encR_b, encR_c, encR_fn, encR_sz, encR_rm]
    simp [decodeFields, decodeVector, sub1, ElemSize.ofCode_code])
theorem vcmp (g : Guard) (pk : BitVec 2) (cm : Combine) (k : VCmpKind) (a b : Src) : Statement (.vcmp g pk cm k a b) :=
  roundTrip_word rfl rfl (by
    intro hw
    simp only [Fields.ofWord, encP_g, encP_la, encP_opc, encP_pk, encP_cm, encP_a, encP_b, encP_cc, encP_sz, encP_fk]
    simp [decodeFields, decodeVector, sub2, Combine.ofCode_code, VCmpKind.ofCodes_codes])
theorem vfadd (g : Guard) (fmt : VFloat) (rm : Rounding) (d : Reg) (a b : Src) : Statement (.vfadd g fmt rm d a b) :=
  roundTrip_word rfl rfl (by
    intro hw
    simp only [Fields.ofWord, encR_g, encR_la, encR_opc, encR_d, encR_a, encR_b, encR_c, encR_fn, encR_sz, encR_rm]
    simp [decodeFields, decodeVector, sub2, VFloat.ofCodes_codes, Rounding.ofCode_code])
theorem vfsub (g : Guard) (fmt : VFloat) (rm : Rounding) (d : Reg) (a b : Src) : Statement (.vfsub g fmt rm d a b) :=
  roundTrip_word rfl rfl (by
    intro hw
    simp only [Fields.ofWord, encR_g, encR_la, encR_opc, encR_d, encR_a, encR_b, encR_c, encR_fn, encR_sz, encR_rm]
    simp [decodeFields, decodeVector, sub2, VFloat.ofCodes_codes, Rounding.ofCode_code])
theorem vfmul (g : Guard) (fmt : VFloat) (rm : Rounding) (d : Reg) (a b : Src) : Statement (.vfmul g fmt rm d a b) :=
  roundTrip_word rfl rfl (by
    intro hw
    simp only [Fields.ofWord, encR_g, encR_la, encR_opc, encR_d, encR_a, encR_b, encR_c, encR_fn, encR_sz, encR_rm]
    simp [decodeFields, decodeVector, sub2, VFloat.ofCodes_codes, Rounding.ofCode_code])
theorem vfma (g : Guard) (fmt : VFloat) (rm : Rounding) (d : Reg) (a b cc : Src) : Statement (.vfma g fmt rm d a b cc) :=
  roundTrip_word rfl rfl (by
    intro hw
    simp only [Fields.ofWord, encR_g, encR_la, encR_opc, encR_d, encR_a, encR_b, encR_c, encR_fn, encR_sz, encR_rm]
    simp [decodeFields, decodeVector, sub2, VFloat.ofCodes_codes, Rounding.ofCode_code])
theorem vfmin (g : Guard) (fmt : VFloat) (d : Reg) (a b : Src) : Statement (.vfmin g fmt d a b) :=
  roundTrip_word rfl rfl (by
    intro hw
    simp only [Fields.ofWord, encR_g, encR_la, encR_opc, encR_d, encR_a, encR_b, encR_c, encR_fn, encR_sz, encR_rm]
    simp [decodeFields, decodeVector, sub1, VFloat.ofCodes_codes])
theorem vfmax (g : Guard) (fmt : VFloat) (d : Reg) (a b : Src) : Statement (.vfmax g fmt d a b) :=
  roundTrip_word rfl rfl (by
    intro hw
    simp only [Fields.ofWord, encR_g, encR_la, encR_opc, encR_d, encR_a, encR_b, encR_c, encR_fn, encR_sz, encR_rm]
    simp [decodeFields, decodeVector, sub1, VFloat.ofCodes_codes])
theorem vdot (g : Guard) (rm : Rounding) (d : Reg) (a b cc : Src) : Statement (.vdot g rm d a b cc) :=
  roundTrip_word rfl rfl (by
    intro hw
    simp only [Fields.ofWord, encR_g, encR_la, encR_opc, encR_d, encR_a, encR_b, encR_c, encR_fn, encR_sz, encR_rm]
    simp [decodeFields, decodeVector, sub2, Rounding.ofCode_code])
theorem vcvt (g : Guard) (op : VCvtOp) (rm : Rounding) (d : Reg) (a : Src) : Statement (.vcvt g op rm d a) :=
  roundTrip_word rfl rfl (by
    intro hw
    simp only [Fields.ofWord, encR_g, encR_la, encR_opc, encR_d, encR_a, encR_b, encR_c, encR_fn, encR_sz, encR_rm]
    have h := rounds_code (o := op.rounds) (rm := rm) (by have h := (need3_of_or (b := op.rounds || rm == .rne) hw).1; simpa using h)
    simp only [h]
    simp [decodeFields, decodeVector, sub3, VCvtOp.ofCode_code, Rounding.ofCode_code])
theorem fadd (g : Guard) (fmt : FScalar) (rm : Rounding) (d : Reg) (a b : Src) : Statement (.fadd g fmt rm d a b) :=
  roundTrip_word rfl rfl (by
    intro hw
    simp only [Fields.ofWord, encR_g, encR_la, encR_opc, encR_d, encR_a, encR_b, encR_c, encR_fn, encR_sz, encR_rm]
    simp [decodeFields, decodeFloat, sub2, FScalar.ofCode_code, Rounding.ofCode_code])
theorem fsub (g : Guard) (fmt : FScalar) (rm : Rounding) (d : Reg) (a b : Src) : Statement (.fsub g fmt rm d a b) :=
  roundTrip_word rfl rfl (by
    intro hw
    simp only [Fields.ofWord, encR_g, encR_la, encR_opc, encR_d, encR_a, encR_b, encR_c, encR_fn, encR_sz, encR_rm]
    simp [decodeFields, decodeFloat, sub2, FScalar.ofCode_code, Rounding.ofCode_code])
theorem fmul (g : Guard) (fmt : FScalar) (rm : Rounding) (d : Reg) (a b : Src) : Statement (.fmul g fmt rm d a b) :=
  roundTrip_word rfl rfl (by
    intro hw
    simp only [Fields.ofWord, encR_g, encR_la, encR_opc, encR_d, encR_a, encR_b, encR_c, encR_fn, encR_sz, encR_rm]
    simp [decodeFields, decodeFloat, sub2, FScalar.ofCode_code, Rounding.ofCode_code])
theorem ffma (g : Guard) (fmt : FScalar) (rm : Rounding) (d : Reg) (a b cc : Src) : Statement (.ffma g fmt rm d a b cc) :=
  roundTrip_word rfl rfl (by
    intro hw
    simp only [Fields.ofWord, encR_g, encR_la, encR_opc, encR_d, encR_a, encR_b, encR_c, encR_fn, encR_sz, encR_rm]
    simp [decodeFields, decodeFloat, sub2, FScalar.ofCode_code, Rounding.ofCode_code])
theorem fdiv (g : Guard) (la : BitVec 4) (fmt : FScalar) (rm : Rounding) (d : Reg) (a b : Src) : Statement (.fdiv g la fmt rm d a b) :=
  roundTrip_word rfl rfl (by
    intro hw
    simp only [Fields.ofWord, encR_g, encR_la, encR_opc, encR_d, encR_a, encR_b, encR_c, encR_fn, encR_sz, encR_rm]
    simp [decodeFields, decodeFloat, sub2, FScalar.ofCode_code, Rounding.ofCode_code])
theorem fsqrt (g : Guard) (la : BitVec 4) (fmt : FScalar) (rm : Rounding) (d : Reg) (a : Src) : Statement (.fsqrt g la fmt rm d a) :=
  roundTrip_word rfl rfl (by
    intro hw
    simp only [Fields.ofWord, encR_g, encR_la, encR_opc, encR_d, encR_a, encR_b, encR_c, encR_fn, encR_sz, encR_rm]
    simp [decodeFields, decodeFloat, sub2, FScalar.ofCode_code, Rounding.ofCode_code])
theorem fmin (g : Guard) (fmt : FScalar) (d : Reg) (a b : Src) : Statement (.fmin g fmt d a b) :=
  roundTrip_word rfl rfl (by
    intro hw
    simp only [Fields.ofWord, encR_g, encR_la, encR_opc, encR_d, encR_a, encR_b, encR_c, encR_fn, encR_sz, encR_rm]
    simp [decodeFields, decodeFloat, sub1, FScalar.ofCode_code])
theorem fmax (g : Guard) (fmt : FScalar) (d : Reg) (a b : Src) : Statement (.fmax g fmt d a b) :=
  roundTrip_word rfl rfl (by
    intro hw
    simp only [Fields.ofWord, encR_g, encR_la, encR_opc, encR_d, encR_a, encR_b, encR_c, encR_fn, encR_sz, encR_rm]
    simp [decodeFields, decodeFloat, sub1, FScalar.ofCode_code])
theorem fcvt (g : Guard) (op : FCvtOp) (rm : Rounding) (d : Reg) (a : Src) : Statement (.fcvt g op rm d a) :=
  roundTrip_word rfl rfl (by
    intro hw
    simp only [Fields.ofWord, encR_g, encR_la, encR_opc, encR_d, encR_a, encR_b, encR_c, encR_fn, encR_sz, encR_rm]
    have h := rounds_code (o := op.rounds) (rm := rm) (by have h := need3_of (b := op.rounds || rm == .rne) hw; simpa using h)
    simp only [h]
    simp [decodeFields, decodeFloat, sub2, FCvtOp.ofCode_code, Rounding.ofCode_code])
theorem fclass (g : Guard) (fmt : FScalar) (d : Reg) (a : Src) : Statement (.fclass g fmt d a) :=
  roundTrip_word rfl rfl (by
    intro hw
    simp only [Fields.ofWord, encR_g, encR_la, encR_opc, encR_d, encR_a, encR_b, encR_c, encR_fn, encR_sz, encR_rm]
    simp [decodeFields, decodeFloat, sub1, FScalar.ofCode_code])
theorem rcp (g : Guard) (la : BitVec 4) (vec : Bool) (d : Reg) (a : Src) : Statement (.rcp g la vec d a) :=
  roundTrip_word rfl rfl (by
    intro hw
    simp only [Fields.ofWord, encR_g, encR_la, encR_opc, encR_d, encR_a, encR_b, encR_c, encR_fn, encR_sz, encR_rm]
    simp [decodeFields, decodeFloat, sub1, flagCode_bits])
theorem rsq (g : Guard) (la : BitVec 4) (vec : Bool) (d : Reg) (a : Src) : Statement (.rsq g la vec d a) :=
  roundTrip_word rfl rfl (by
    intro hw
    simp only [Fields.ofWord, encR_g, encR_la, encR_opc, encR_d, encR_a, encR_b, encR_c, encR_fn, encR_sz, encR_rm]
    simp [decodeFields, decodeFloat, sub1, flagCode_bits])
theorem exp2 (g : Guard) (la : BitVec 4) (vec : Bool) (d : Reg) (a : Src) : Statement (.exp2 g la vec d a) :=
  roundTrip_word rfl rfl (by
    intro hw
    simp only [Fields.ofWord, encR_g, encR_la, encR_opc, encR_d, encR_a, encR_b, encR_c, encR_fn, encR_sz, encR_rm]
    simp [decodeFields, decodeFloat, sub1, flagCode_bits])
theorem log2 (g : Guard) (la : BitVec 4) (vec : Bool) (d : Reg) (a : Src) : Statement (.log2 g la vec d a) :=
  roundTrip_word rfl rfl (by
    intro hw
    simp only [Fields.ofWord, encR_g, encR_la, encR_opc, encR_d, encR_a, encR_b, encR_c, encR_fn, encR_sz, encR_rm]
    simp [decodeFields, decodeFloat, sub1, flagCode_bits])
theorem sin (g : Guard) (la : BitVec 4) (vec : Bool) (d : Reg) (a : Src) : Statement (.sin g la vec d a) :=
  roundTrip_word rfl rfl (by
    intro hw
    simp only [Fields.ofWord, encR_g, encR_la, encR_opc, encR_d, encR_a, encR_b, encR_c, encR_fn, encR_sz, encR_rm]
    simp [decodeFields, decodeFloat, sub1, flagCode_bits])
theorem cos (g : Guard) (la : BitVec 4) (vec : Bool) (d : Reg) (a : Src) : Statement (.cos g la vec d a) :=
  roundTrip_word rfl rfl (by
    intro hw
    simp only [Fields.ofWord, encR_g, encR_la, encR_opc, encR_d, encR_a, encR_b, encR_c, encR_fn, encR_sz, encR_rm]
    simp [decodeFields, decodeFloat, sub1, flagCode_bits])
theorem tanh (g : Guard) (la : BitVec 4) (vec : Bool) (d : Reg) (a : Src) : Statement (.tanh g la vec d a) :=
  roundTrip_word rfl rfl (by
    intro hw
    simp only [Fields.ofWord, encR_g, encR_la, encR_opc, encR_d, encR_a, encR_b, encR_c, encR_fn, encR_sz, encR_rm]
    simp [decodeFields, decodeFloat, sub1, flagCode_bits])
theorem ld (g : Guard) (la : BitVec 4) (w : LoadWidth) (d : Reg) (a : Src) (off : BitVec 15) : Statement (.ld g la w d a off) :=
  roundTrip_word rfl rfl (by
    intro hw
    simp only [Fields.ofWord, encM_g, encM_la, encM_opc, encM_d, encM_a, encM_b, encM_fn, encM_ord, encM_scope, encM_off]
    simp [decodeFields, decodeMemory, sub1, LoadWidth.ofCode_code])
theorem st (g : Guard) (w : StoreWidth) (a b : Src) (off : BitVec 15) : Statement (.st g w a b off) :=
  roundTrip_word rfl rfl (by
    intro hw
    simp only [Fields.ofWord, encM_g, encM_la, encM_opc, encM_d, encM_a, encM_b, encM_fn, encM_ord, encM_scope, encM_off]
    simp [decodeFields, decodeMemory, sub1, StoreWidth.ofCode_code])
theorem ldv (g : Guard) (la : BitVec 4) (d : Reg) (a : Src) (off : BitVec 15) : Statement (.ldv g la d a off) :=
  roundTrip_word rfl rfl (by
    intro hw
    simp only [Fields.ofWord, encM_g, encM_la, encM_opc, encM_d, encM_a, encM_b, encM_fn, encM_ord, encM_scope, encM_off]
    rfl)
theorem stv (g : Guard) (a b : Src) (off : BitVec 15) : Statement (.stv g a b off) :=
  roundTrip_word rfl rfl (by
    intro hw
    simp only [Fields.ofWord, encM_g, encM_la, encM_opc, encM_d, encM_a, encM_b, encM_fn, encM_ord, encM_scope, encM_off]
    rfl)
theorem ldt (g : Guard) (la : BitVec 4) (d : Reg) (a b : Src) (off : BitVec 15) : Statement (.ldt g la d a b off) :=
  roundTrip_word rfl rfl (by
    intro hw
    simp only [Fields.ofWord, encM_g, encM_la, encM_opc, encM_d, encM_a, encM_b, encM_fn, encM_ord, encM_scope, encM_off]
    rfl)
theorem stt (g : Guard) (d : Reg) (a b : Src) (off : BitVec 15) : Statement (.stt g d a b off) :=
  roundTrip_word rfl rfl (by
    intro hw
    simp only [Fields.ofWord, encM_g, encM_la, encM_opc, encM_d, encM_a, encM_b, encM_fn, encM_ord, encM_scope, encM_off]
    rfl)
theorem ldAcq (g : Guard) (w : LoadWidth) (sc : Scope) (d : Reg) (a : Src) (off : BitVec 15) : Statement (.ldAcq g w sc d a off) :=
  roundTrip_word rfl rfl (by
    intro hw
    simp only [Fields.ofWord, encM_g, encM_la, encM_opc, encM_d, encM_a, encM_b, encM_fn, encM_ord, encM_scope, encM_off]
    simp [decodeFields, decodeMemory, sub2, LoadWidth.ofCode_code, Scope.ofCode_code])
theorem stRel (g : Guard) (w : StoreWidth) (sc : Scope) (a b : Src) (off : BitVec 15) : Statement (.stRel g w sc a b off) :=
  roundTrip_word rfl rfl (by
    intro hw
    simp only [Fields.ofWord, encM_g, encM_la, encM_opc, encM_d, encM_a, encM_b, encM_fn, encM_ord, encM_scope, encM_off]
    simp [decodeFields, decodeMemory, sub2, StoreWidth.ofCode_code, Scope.ofCode_code])
theorem amo (g : Guard) (la : BitVec 4) (op : AmoOp) (wide : Bool) (ord : Order) (sc : Scope) (d : Reg) (a b : Src) : Statement (.amo g la op wide ord sc d a b) :=
  roundTrip_word rfl rfl (by
    intro hw
    simp only [Fields.ofWord, encM_g, encM_la, encM_opc, encM_d, encM_a, encM_b, encM_fn, encM_ord, encM_scope, encM_off]
    show sub4 (AmoOp.ofCode op.code) (amoWide ((if wide then 3 else 2 : BitVec 2) ++ (0 : BitVec 13))) (Order.ofCode ord.code)
      (Scope.ofCode sc.code) (fun p w r s => .amo g la p w r s d a b) = _
    rw [AmoOp.ofCode_code, amoWide_bits, Order.ofCode_code, Scope.ofCode_code]; rfl)
theorem fence (g : Guard) (ord : Order) (sc : Scope) : Statement (.fence g ord sc) :=
  roundTrip_word rfl rfl (by
    intro hw
    simp only [Fields.ofWord, encM_g, encM_la, encM_opc, encM_d, encM_a, encM_b, encM_fn, encM_ord, encM_scope, encM_off]
    simp [decodeFields, decodeMemory, sub2, Order.ofCode_code, Scope.ofCode_code])
theorem pref (g : Guard) (wr : Bool) (a : Src) (off : BitVec 15) : Statement (.pref g wr a off) :=
  roundTrip_word rfl rfl (by
    intro hw
    simp only [Fields.ofWord, encM_g, encM_la, encM_opc, encM_d, encM_a, encM_b, encM_fn, encM_ord, encM_scope, encM_off]
    simp [decodeFields, decodeMemory, sub1, flagCode_bits])
theorem clean (g : Guard) (sc : Scope) (a b : Reg) : Statement (.clean g sc a b) :=
  roundTrip_word rfl rfl (by
    intro hw
    simp only [Fields.ofWord, encM_g, encM_la, encM_opc, encM_d, encM_a, encM_b, encM_fn, encM_ord, encM_scope, encM_off]
    simp [decodeFields, decodeMemory, sub1, Scope.ofCode_code])
theorem inv (g : Guard) (sc : Scope) (a b : Reg) : Statement (.inv g sc a b) :=
  roundTrip_word rfl rfl (by
    intro hw
    simp only [Fields.ofWord, encM_g, encM_la, encM_opc, encM_d, encM_a, encM_b, encM_fn, encM_ord, encM_scope, encM_off]
    simp [decodeFields, decodeMemory, sub1, Scope.ofCode_code])
theorem discard (g : Guard) (sc : Scope) (a b : Reg) : Statement (.discard g sc a b) :=
  roundTrip_word rfl rfl (by
    intro hw
    simp only [Fields.ofWord, encM_g, encM_la, encM_opc, encM_d, encM_a, encM_b, encM_fn, encM_ord, encM_scope, encM_off]
    simp [decodeFields, decodeMemory, sub1, Scope.ofCode_code])
theorem send (g : Guard) (n : BitVec 2) (a b : Src) : Statement (.send g n a b) :=
  roundTrip_word rfl rfl (by
    intro hw
    simp only [Fields.ofWord, encR_g, encR_la, encR_opc, encR_d, encR_a, encR_b, encR_c, encR_fn, encR_sz, encR_rm]
    show (if (n.setWidth 4).toNat < 4 then Except.ok (Instr.send g ((n.setWidth 4).extractLsb' 0 2) a b) else .error 2) = _
    have := n.isLt
    rw [if_pos (by simp; omega), setWidth_low n (by omega)])
theorem dep (g : Guard) (m : Reg) (a b : Src) : Statement (.dep g m a b) :=
  roundTrip_word rfl rfl (by
    intro hw
    simp only [Fields.ofWord, encR_g, encR_la, encR_opc, encR_d, encR_a, encR_b, encR_c, encR_fn, encR_sz, encR_rm]
    simp [decodeFields, decodeMessage, sub1, fnReg_bits])
theorem recv (g : Guard) (d : Reg) : Statement (.recv g d) :=
  roundTrip_word rfl rfl (by
    intro hw
    simp only [Fields.ofWord, encR_g, encR_la, encR_opc, encR_d, encR_a, encR_b, encR_c, encR_fn, encR_sz, encR_rm]
    rfl)
theorem qred (g : Guard) (la : BitVec 4) (t : RedKind) (d a : Reg) : Statement (.qred g la t d a) :=
  roundTrip_word rfl rfl (by
    intro hw
    simp only [Fields.ofWord, encR_g, encR_la, encR_opc, encR_d, encR_a, encR_b, encR_c, encR_fn, encR_sz, encR_rm]
    simp [decodeFields, decodeMessage, sub1, RedKind.ofCode_code])
theorem rget (g : Guard) (la : BitVec 4) (m : Reg) (pk : BitVec 2) (d : Reg) (a b : Src) : Statement (.rget g la m pk d a b) :=
  roundTrip_word rfl rfl (by
    intro hw
    simp only [Fields.ofWord, encR_g, encR_la, encR_opc, encR_d, encR_a, encR_b, encR_c, encR_fn, encR_sz, encR_rm]
    simp [decodeFields, decodeMessage, sub1, fnReg_bits])
theorem spawn (g : Guard) (d : Reg) (a b : Src) : Statement (.spawn g d a b) :=
  roundTrip_word rfl rfl (by
    intro hw
    simp only [Fields.ofWord, encR_g, encR_la, encR_opc, encR_d, encR_a, encR_b, encR_c, encR_fn, encR_sz, encR_rm]
    rfl)
theorem quit (g : Guard) : Statement (.quit g) :=
  roundTrip_word rfl rfl (by
    intro hw
    simp only [Fields.ofWord, encR_g, encR_la, encR_opc, encR_d, encR_a, encR_b, encR_c, encR_fn, encR_sz, encR_rm]
    rfl)
theorem quitDone (g : Guard) : Statement (.quitDone g) :=
  roundTrip_word rfl rfl (by
    intro hw
    simp only [Fields.ofWord, encR_g, encR_la, encR_opc, encR_d, encR_a, encR_b, encR_c, encR_fn, encR_sz, encR_rm]
    rfl)
theorem mig (g : Guard) (a : Src) : Statement (.mig g a) :=
  roundTrip_word rfl rfl (by
    intro hw
    simp only [Fields.ofWord, encR_g, encR_la, encR_opc, encR_d, encR_a, encR_b, encR_c, encR_fn, encR_sz, encR_rm]
    rfl)
theorem self (g : Guard) (f : SelfFact) (d : Reg) : Statement (.self g f d) :=
  roundTrip_word rfl rfl (by
    intro hw
    simp only [Fields.ofWord, encR_g, encR_la, encR_opc, encR_d, encR_a, encR_b, encR_c, encR_fn, encR_sz, encR_rm]
    simp [decodeFields, decodeMessage, sub1, SelfFact.ofCode_code])
theorem fset (g : Guard) (m : BitVec 8) : Statement (.fset g m) :=
  roundTrip_word rfl rfl (by
    intro hw
    simp only [Fields.ofWord, encL_g, encL_la, encL_opc, encL_d, encL_imm]
    exact congrArg (fun n => Except.ok (Instr.fset g n)) (maskBits_low m))
theorem fclr (g : Guard) (m : BitVec 8) : Statement (.fclr g m) :=
  roundTrip_word rfl rfl (by
    intro hw
    simp only [Fields.ofWord, encL_g, encL_la, encL_opc, encL_d, encL_imm]
    exact congrArg (fun n => Except.ok (Instr.fclr g n)) (maskBits_low m))
theorem evsnd (g : Guard) (rel : Bool) (a b cc : Src) : Statement (.evsnd g rel a b cc) :=
  roundTrip_word rfl rfl (by
    intro hw
    simp only [Fields.ofWord, encR_g, encR_la, encR_opc, encR_d, encR_a, encR_b, encR_c, encR_fn, encR_sz, encR_rm]
    simp [decodeFields, decodeEvent, sub1, flagCode_bits])
theorem evarm (g : Guard) (rel : Bool) (a b cc : Src) : Statement (.evarm g rel a b cc) :=
  roundTrip_word rfl rfl (by
    intro hw
    simp only [Fields.ofWord, encR_g, encR_la, encR_opc, encR_d, encR_a, encR_b, encR_c, encR_fn, encR_sz, encR_rm]
    simp [decodeFields, decodeEvent, sub1, flagCode_bits])
theorem evstep (g : Guard) (d : Reg) (a b : Src) : Statement (.evstep g d a b) :=
  roundTrip_word rfl rfl (by
    intro hw
    simp only [Fields.ofWord, encR_g, encR_la, encR_opc, encR_d, encR_a, encR_b, encR_c, encR_fn, encR_sz, encR_rm]
    rfl)
theorem evrdMem (g : Guard) (d : Reg) (a : Src) : Statement (.evrdMem g d a) :=
  roundTrip_word rfl rfl (by
    intro hw
    simp only [Fields.ofWord, encR_g, encR_la, encR_opc, encR_d, encR_a, encR_b, encR_c, encR_fn, encR_sz, encR_rm]
    rfl)
theorem evrdStep (g : Guard) (d : Reg) (a : Src) : Statement (.evrdStep g d a) :=
  roundTrip_word rfl rfl (by
    intro hw
    simp only [Fields.ofWord, encR_g, encR_la, encR_opc, encR_d, encR_a, encR_b, encR_c, encR_fn, encR_sz, encR_rm]
    rfl)
theorem evrdLate (g : Guard) (d : Reg) (a : Src) : Statement (.evrdLate g d a) :=
  roundTrip_word rfl rfl (by
    intro hw
    simp only [Fields.ofWord, encR_g, encR_la, encR_opc, encR_d, encR_a, encR_b, encR_c, encR_fn, encR_sz, encR_rm]
    rfl)
theorem evwr (g : Guard) (d : Reg) (a b : Src) : Statement (.evwr g d a b) :=
  roundTrip_word rfl rfl (by
    intro hw
    simp only [Fields.ofWord, encR_g, encR_la, encR_opc, encR_d, encR_a, encR_b, encR_c, encR_fn, encR_sz, encR_rm]
    rfl)
theorem evcfg (g : Guard) (d : Reg) (a b : Src) : Statement (.evcfg g d a b) :=
  roundTrip_word rfl rfl (by
    intro hw
    simp only [Fields.ofWord, encR_g, encR_la, encR_opc, encR_d, encR_a, encR_b, encR_c, encR_fn, encR_sz, encR_rm]
    rfl)
theorem evcfgClr (g : Guard) (d : Reg) (a b : Src) : Statement (.evcfgClr g d a b) :=
  roundTrip_word rfl rfl (by
    intro hw
    simp only [Fields.ofWord, encR_g, encR_la, encR_opc, encR_d, encR_a, encR_b, encR_c, encR_fn, encR_sz, encR_rm]
    rfl)
theorem fenceEv (g : Guard) : Statement (.fenceEv g) :=
  roundTrip_word rfl rfl (by
    intro hw
    simp only [Fields.ofWord, encR_g, encR_la, encR_opc, encR_d, encR_a, encR_b, encR_c, encR_fn, encR_sz, encR_rm]
    rfl)
theorem post (g : Guard) (la : BitVec 4) (rel : Bool) (d : Reg) (a : Src) : Statement (.post g la rel d a) :=
  roundTrip_word rfl rfl (by
    intro hw
    simp only [Fields.ofWord, encR_g, encR_la, encR_opc, encR_d, encR_a, encR_b, encR_c, encR_fn, encR_sz, encR_rm]
    simp [decodeFields, decodeEvent, sub1, relCode_bits])
theorem postw (g : Guard) (rel : Bool) (d : Reg) (a : Src) : Statement (.postw g rel d a) :=
  roundTrip_word rfl rfl (by
    intro hw
    simp only [Fields.ofWord, encR_g, encR_la, encR_opc, encR_d, encR_a, encR_b, encR_c, encR_fn, encR_sz, encR_rm]
    simp [decodeFields, decodeEvent, sub1, relCode_bits])
theorem talloc (g : Guard) (d : Reg) (a b : Src) : Statement (.talloc g d a b) :=
  roundTrip_word rfl rfl (by
    intro hw
    simp only [Fields.ofWord, encR_g, encR_la, encR_opc, encR_d, encR_a, encR_b, encR_c, encR_fn, encR_sz, encR_rm]
    rfl)
theorem tfree (g : Guard) (d : Reg) (a : Src) : Statement (.tfree g d a) :=
  roundTrip_word rfl rfl (by
    intro hw
    simp only [Fields.ofWord, encR_g, encR_la, encR_opc, encR_d, encR_a, encR_b, encR_c, encR_fn, encR_sz, encR_rm]
    rfl)
theorem tinfo (g : Guard) (d : Reg) (a : Src) : Statement (.tinfo g d a) :=
  roundTrip_word rfl rfl (by
    intro hw
    simp only [Fields.ofWord, encR_g, encR_la, encR_opc, encR_d, encR_a, encR_b, encR_c, encR_fn, encR_sz, encR_rm]
    rfl)
theorem trap (g : Guard) (n : BitVec 4) (a : Src) : Statement (.trap g n a) :=
  roundTrip_word rfl rfl (by
    intro hw
    simp only [Fields.ofWord, encR_g, encR_la, encR_opc, encR_d, encR_a, encR_b, encR_c, encR_fn, encR_sz, encR_rm]
    rfl)
theorem resume (g : Guard) (d : Reg) (a : Src) : Statement (.resume g d a) :=
  roundTrip_word rfl rfl (by
    intro hw
    simp only [Fields.ofWord, encR_g, encR_la, encR_opc, encR_d, encR_a, encR_b, encR_c, encR_fn, encR_sz, encR_rm]
    rfl)
theorem csrr (g : Guard) (d : Reg) (num : BitVec 12) : Statement (.csrr g d num) :=
  roundTrip_word rfl rfl (by
    intro hw
    simp only [Fields.ofWord, encI_g, encI_la, encI_opc, encI_d, encI_a, encI_imm]
    exact congrArg (fun n => Except.ok (Instr.csrr g d n)) (setWidth_low num (by omega)))
theorem csrw (g : Guard) (d : Reg) (a : Src) (num : BitVec 12) : Statement (.csrw g d a num) :=
  roundTrip_word rfl rfl (by
    intro hw
    simp only [Fields.ofWord, encI_g, encI_la, encI_opc, encI_d, encI_a, encI_imm]
    exact congrArg (fun n => Except.ok (Instr.csrw g d a n)) (setWidth_low num (by omega)))
theorem csrs (g : Guard) (d : Reg) (a : Src) (num : BitVec 12) : Statement (.csrs g d a num) :=
  roundTrip_word rfl rfl (by
    intro hw
    simp only [Fields.ofWord, encI_g, encI_la, encI_opc, encI_d, encI_a, encI_imm]
    exact congrArg (fun n => Except.ok (Instr.csrs g d a n)) (setWidth_low num (by omega)))
theorem csrc (g : Guard) (d : Reg) (a : Src) (num : BitVec 12) : Statement (.csrc g d a num) :=
  roundTrip_word rfl rfl (by
    intro hw
    simp only [Fields.ofWord, encI_g, encI_la, encI_opc, encI_d, encI_a, encI_imm]
    exact congrArg (fun n => Except.ok (Instr.csrc g d a n)) (setWidth_low num (by omega)))
theorem tlbinvRange (g : Guard) (sc : Scope) (a b : Src) : Statement (.tlbinvRange g sc a b) :=
  roundTrip_word rfl rfl (by
    intro hw
    simp only [Fields.ofWord, encR_g, encR_la, encR_opc, encR_d, encR_a, encR_b, encR_c, encR_fn, encR_sz, encR_rm]
    have hs : sc ≠ .ctx := by rintro rfl; simp [wellFormed, wfCond, need2] at hw
    exact tlb_range _ hs rfl rfl rfl rfl)
theorem tlbinvAll (g : Guard) (sc : Scope) : Statement (.tlbinvAll g sc) :=
  roundTrip_word rfl rfl (by
    intro hw
    simp only [Fields.ofWord, encR_g, encR_la, encR_opc, encR_d, encR_a, encR_b, encR_c, encR_fn, encR_sz, encR_rm]
    have hs : sc ≠ .ctx := by rintro rfl; simp [wellFormed, wfCond, need2] at hw
    exact tlb_all _ hs rfl rfl)
theorem evictL2 (g : Guard) (d : Reg) (a : Src) : Statement (.evictL2 g d a) :=
  roundTrip_word rfl rfl (by
    intro hw
    simp only [Fields.ofWord, encR_g, encR_la, encR_opc, encR_d, encR_a, encR_b, encR_c, encR_fn, encR_sz, encR_rm]
    rfl)
theorem evictMem (g : Guard) (d : Reg) (a : Src) : Statement (.evictMem g d a) :=
  roundTrip_word rfl rfl (by
    intro hw
    simp only [Fields.ofWord, encR_g, encR_la, encR_opc, encR_d, encR_a, encR_b, encR_c, encR_fn, encR_sz, encR_rm]
    rfl)
theorem time (g : Guard) (d : Reg) : Statement (.time g d) :=
  roundTrip_word rfl rfl (by
    intro hw
    simp only [Fields.ofWord, encR_g, encR_la, encR_opc, encR_d, encR_a, encR_b, encR_c, encR_fn, encR_sz, encR_rm]
    rfl)
theorem bkpt (g : Guard) : Statement (.bkpt g) :=
  roundTrip_word rfl rfl (by
    intro hw
    simp only [Fields.ofWord, encR_g, encR_la, encR_opc, encR_d, encR_a, encR_b, encR_c, encR_fn, encR_sz, encR_rm]
    rfl)
theorem launch (g : Guard) (d : Reg) (a : Src) : Statement (.launch g d a) :=
  roundTrip_word rfl rfl (by
    intro hw
    simp only [Fields.ofWord, encR_g, encR_la, encR_opc, encR_d, encR_a, encR_b, encR_c, encR_fn, encR_sz, encR_rm]
    rfl)
theorem cancelLaunch (g : Guard) (d : Reg) (a : Src) : Statement (.cancelLaunch g d a) :=
  roundTrip_word rfl rfl (by
    intro hw
    simp only [Fields.ofWord, encR_g, encR_la, encR_opc, encR_d, encR_a, encR_b, encR_c, encR_fn, encR_sz, encR_rm]
    rfl)
theorem cancelJob (g : Guard) (d : Reg) (a : Src) : Statement (.cancelJob g d a) :=
  roundTrip_word rfl rfl (by
    intro hw
    simp only [Fields.ofWord, encR_g, encR_la, encR_opc, encR_d, encR_a, encR_b, encR_c, encR_fn, encR_sz, encR_rm]
    rfl)
theorem maskclr (g : Guard) : Statement (.maskclr g) :=
  roundTrip_word rfl rfl (by
    intro hw
    simp only [Fields.ofWord, encR_g, encR_la, encR_opc, encR_d, encR_a, encR_b, encR_c, encR_fn, encR_sz, encR_rm]
    rfl)
theorem tload (c : CmdArgs) : Statement (.tload c) := roundTrip_command rfl rfl rfl rfl
theorem tstore (c : CmdArgs) : Statement (.tstore c) := roundTrip_command rfl rfl rfl rfl
theorem tcopy (c : CmdArgs) : Statement (.tcopy c) := roundTrip_command rfl rfl rfl rfl
theorem tgather (c : CmdArgs) : Statement (.tgather c) := roundTrip_command rfl rfl rfl rfl
theorem tscadd (c : CmdArgs) : Statement (.tscadd c) := roundTrip_command rfl rfl rfl rfl
theorem tfill (c : CmdArgs) : Statement (.tfill c) := roundTrip_command rfl rfl rfl rfl
theorem ttrans (c : CmdArgs) : Statement (.ttrans c) := roundTrip_command rfl rfl rfl rfl
theorem pool (c : CmdArgs) : Statement (.pool c) := roundTrip_command rfl rfl rfl rfl
theorem rowadd (c : CmdArgs) : Statement (.rowadd c) := roundTrip_command rfl rfl rfl rfl
theorem evstream (c : CmdArgs) : Statement (.evstream c) := roundTrip_command rfl rfl rfl rfl
theorem mma (c : CmdArgs) : Statement (.mma c) := roundTrip_command rfl rfl rfl rfl
theorem mmag (c : CmdArgs) : Statement (.mmag c) := roundTrip_command rfl rfl rfl rfl
theorem quant (c : CmdArgs) : Statement (.quant c) := roundTrip_command rfl rfl rfl rfl
theorem dequant (c : CmdArgs) : Statement (.dequant c) := roundTrip_command rfl rfl rfl rfl
theorem tadd (c : CmdArgs) : Statement (.tadd c) := roundTrip_command rfl rfl rfl rfl
theorem tsub (c : CmdArgs) : Statement (.tsub c) := roundTrip_command rfl rfl rfl rfl
theorem tmul (c : CmdArgs) : Statement (.tmul c) := roundTrip_command rfl rfl rfl rfl
theorem tmax (c : CmdArgs) : Statement (.tmax c) := roundTrip_command rfl rfl rfl rfl
theorem tscale (c : CmdArgs) : Statement (.tscale c) := roundTrip_command rfl rfl rfl rfl
theorem tact (c : CmdArgs) : Statement (.tact c) := roundTrip_command rfl rfl rfl rfl
theorem trowred (c : CmdArgs) : Statement (.trowred c) := roundTrip_command rfl rfl rfl rfl
theorem tsoftmax (c : CmdArgs) : Statement (.tsoftmax c) := roundTrip_command rfl rfl rfl rfl
theorem engineCommandEnd (c q k : Nat) : Statement (.engineCommandEnd c q k) := roundTrip_none rfl rfl
theorem groupRequestAtBank (k : Nat) : Statement (.groupRequestAtBank k) := roundTrip_none rfl rfl
theorem handleTableRequest (k pick : Nat) : Statement (.handleTableRequest k pick) := roundTrip_none rfl rfl
theorem requestAtLineOwner (k : Nat) : Statement (.requestAtLineOwner k) := roundTrip_none rfl rfl
theorem rangeOperationEnd (k : Nat) : Statement (.rangeOperationEnd k) := roundTrip_none rfl rfl
theorem contextL1Fill (c u sl : Nat) : Statement (.contextL1Fill c u sl) := roundTrip_none rfl rfl
theorem bulkLaneWake (ln : Nat) : Statement (.bulkLaneWake ln) := roundTrip_none rfl rfl
theorem bulkLanePowerUp (ln : Nat) : Statement (.bulkLanePowerUp ln) := roundTrip_none rfl rfl
theorem linkPlaneDown (b pl : Nat) : Statement (.linkPlaneDown b pl) := roundTrip_none rfl rfl
theorem commandAccept (buf k : Nat) : Statement (.commandAccept buf k) := roundTrip_none rfl rfl
theorem postRetry (buf k : Nat) : Statement (.postRetry buf k) := roundTrip_none rfl rfl
theorem gangTicketGrant (die k : Nat) : Statement (.gangTicketGrant die k) := roundTrip_none rfl rfl
theorem gangSliceStart (c k : Nat) : Statement (.gangSliceStart c k) := roundTrip_none rfl rfl
theorem gangSliceEnd (c k : Nat) : Statement (.gangSliceEnd c k) := roundTrip_none rfl rfl
theorem rowCacheHalving (die : Nat) : Statement (.rowCacheHalving die) := roundTrip_none rfl rfl
theorem lineWrite (k : Nat) : Statement (.lineWrite k) := roundTrip_none rfl rfl
theorem deferredFault (k : Nat) : Statement (.deferredFault k) := roundTrip_none rfl rfl
theorem loadRemoteHome (k : Nat) : Statement (.loadRemoteHome k) := roundTrip_none rfl rfl
theorem poisonedData (k : Nat) : Statement (.poisonedData k) := roundTrip_none rfl rfl
theorem replayReissue : Statement .replayReissue := roundTrip_none rfl rfl
theorem sfuComplete (c : Nat) : Statement (.sfuComplete c) := roundTrip_none rfl rfl
theorem sfuHoldExpire (c k : Nat) : Statement (.sfuHoldExpire c k) := roundTrip_none rfl rfl
theorem divideComplete (k : Nat) : Statement (.divideComplete k) := roundTrip_none rfl rfl
theorem reducerPop (k : Nat) : Statement (.reducerPop k) := roundTrip_none rfl rfl
theorem qredRestart : Statement .qredRestart := roundTrip_none rfl rfl
theorem fetchFault : Statement .fetchFault := roundTrip_none rfl rfl
theorem fetchArrive (key : Nat) : Statement (.fetchArrive key) := roundTrip_none rfl rfl
theorem orderingComplete (k : Nat) : Statement (.orderingComplete k) := roundTrip_none rfl rfl
theorem messageDelivery (buf k : Nat) : Statement (.messageDelivery buf k) := roundTrip_none rfl rfl
theorem depositDelivery (buf k : Nat) : Statement (.depositDelivery buf k) := roundTrip_none rfl rfl
theorem sendRetry (buf k : Nat) : Statement (.sendRetry buf k) := roundTrip_none rfl rfl
theorem timeWaitExpire (key : Nat) : Statement (.timeWaitExpire key) := roundTrip_none rfl rfl
theorem rgetTimeout (k : Nat) : Statement (.rgetTimeout k) := roundTrip_none rfl rfl
theorem slotSelect (c u sl : Nat) : Statement (.slotSelect c u sl) := roundTrip_none rfl rfl
theorem claim (key c u sl : Nat) : Statement (.claim key c u sl) := roundTrip_none rfl rfl
theorem swapLoad (c u sl : Nat) : Statement (.swapLoad c u sl) := roundTrip_none rfl rfl
theorem backlogFill (c : Nat) : Statement (.backlogFill c) := roundTrip_none rfl rfl
theorem arrivalAccept (key : Nat) : Statement (.arrivalAccept key) := roundTrip_none rfl rfl
theorem agingStep (c cls k : Nat) : Statement (.agingStep c cls k) := roundTrip_none rfl rfl
theorem spawnRequest (k : Nat) : Statement (.spawnRequest k) := roundTrip_none rfl rfl
theorem eventAccept (buf k : Nat) : Statement (.eventAccept buf k) := roundTrip_none rfl rfl
theorem stepClose (k : Nat) : Statement (.stepClose k) := roundTrip_none rfl rfl
theorem groupClear (gk : Nat) : Statement (.groupClear gk) := roundTrip_none rfl rfl
theorem eventMerge (buf1 k1 buf2 k2 : Nat) : Statement (.eventMerge buf1 k1 buf2 k2) := roundTrip_none rfl rfl
theorem amoMerge (k1 k2 : Nat) : Statement (.amoMerge k1 k2) := roundTrip_none rfl rfl
theorem tokenRefill (die port : Nat) : Statement (.tokenRefill die port) := roundTrip_none rfl rfl
theorem switchPowerDown (sw : Nat) : Statement (.switchPowerDown sw) := roundTrip_none rfl rfl
theorem switchWake (sw : Nat) : Statement (.switchWake sw) := roundTrip_none rfl rfl
theorem switchPowerUp (sw : Nat) : Statement (.switchPowerUp sw) := roundTrip_none rfl rfl
theorem bulkLanePowerDown (ln : Nat) : Statement (.bulkLanePowerDown ln) := roundTrip_none rfl rfl
theorem linkCrcError (ln : Nat) : Statement (.linkCrcError ln) := roundTrip_none rfl rfl
theorem laneRetire (ln : Nat) : Statement (.laneRetire ln) := roundTrip_none rfl rfl
theorem allLinksDown (die : Nat) : Statement (.allLinksDown die) := roundTrip_none rfl rfl
theorem dusetLinkLoss (die port : Nat) : Statement (.dusetLinkLoss die port) := roundTrip_none rfl rfl
theorem dieReset (die deadline : Nat) : Statement (.dieReset die deadline) := roundTrip_none rfl rfl
theorem dieDrainEnd (die : Nat) : Statement (.dieDrainEnd die) := roundTrip_none rfl rfl
theorem dieDrainDeadline (die : Nat) : Statement (.dieDrainDeadline die) := roundTrip_none rfl rfl
theorem dieRejoin (die : Nat) (ready : BitVec 7) : Statement (.dieRejoin die ready) := roundTrip_none rfl rfl
theorem mapOutCluster (c : Nat) : Statement (.mapOutCluster c) := roundTrip_none rfl rfl
theorem retireHbmChannel (die ch : Nat) : Statement (.retireHbmChannel die ch) := roundTrip_none rfl rfl
theorem readCounters (asid : BitVec 12) : Statement (.readCounters asid) := roundTrip_none rfl rfl
theorem readErrorRecords : Statement .readErrorRecords := roundTrip_none rfl rfl
theorem readBringupParameters : Statement .readBringupParameters := roundTrip_none rfl rfl
theorem setPowerLimit (w : BitVec 12) : Statement (.setPowerLimit w) := roundTrip_none rfl rfl
theorem enrolKeyPair (pair : KeyPair) (signed : Signed) : Statement (.enrolKeyPair pair signed) := roundTrip_none rfl rfl
theorem withdrawKeyPair (pair : KeyPair) (signed : Signed) : Statement (.withdrawKeyPair pair signed) := roundTrip_none rfl rfl
theorem attest (nonce : BitVec 256) : Statement (.attest nonce) := roundTrip_none rfl rfl
theorem submissionWrite (port : Nat) (asid : BitVec 12) (data : BitVec 512) : Statement (.submissionWrite port asid data) := roundTrip_none rfl rfl
theorem startRequest (port : Nat) (asid : BitVec 12) (data : BitVec 512) : Statement (.startRequest port asid data) := roundTrip_none rfl rfl
theorem hostHdmAccess (pa : Nat) (w : Option (List Byte)) : Statement (.hostHdmAccess pa w) := roundTrip_none rfl rfl
theorem trapRingWrite (asid : BitVec 12) (v : Word) : Statement (.trapRingWrite asid v) := roundTrip_none rfl rfl
theorem secverFuseWrite (v : Word) : Statement (.secverFuseWrite v) := roundTrip_none rfl rfl
theorem arrivalLimitWrite (c : Nat) (v : Word) : Statement (.arrivalLimitWrite c v) := roundTrip_none rfl rfl
theorem tenantWeightWrite (asid : BitVec 12) (v : Word) : Statement (.tenantWeightWrite asid v) := roundTrip_none rfl rfl
theorem correctedError (die st loc : Nat) : Statement (.correctedError die st loc) := roundTrip_none rfl rfl
theorem recurringCorrectedError (die st loc : Nat) : Statement (.recurringCorrectedError die st loc) := roundTrip_none rfl rfl
theorem scrubUncorrectable (pa : Nat) : Statement (.scrubUncorrectable pa) := roundTrip_none rfl rfl
theorem powerAlarmRise (power : BitVec 16) : Statement (.powerAlarmRise power) := roundTrip_none rfl rfl
theorem powerAlarmClear (power : BitVec 16) : Statement (.powerAlarmClear power) := roundTrip_none rfl rfl
theorem coldReset : Statement .coldReset := roundTrip_none rfl rfl
theorem timeBaseTick : Statement .timeBaseTick := roundTrip_none rfl rfl
theorem bootStage0 (img : Image) : Statement (.bootStage0 img) := roundTrip_none rfl rfl
theorem bootStage1 (imgs : List Image) (cxl : BitVec 2) : Statement (.bootStage1 imgs cxl) := roundTrip_none rfl rfl
theorem bootStage2 (die : Nat) (ready : BitVec 7) (boot : DieBoot) (duset : Bool) : Statement (.bootStage2 die ready boot duset) := roundTrip_none rfl rfl

end Sys2Proof.Laws.RoundTrip
end

