-- ==== Sys2Proof/Tests/Base.lean ====
section
/-! SUPPORT. The small states of the tests and witnesses, and a test that a word issues. -/

set_option Elab.async false

open Sys2Proof Sys2Proof.Machine

namespace Sys2Proof.Tests

/-- The guard that is always true. -/
def g0 : Guard := ⟨0xFF, 0, 0, 0⟩
/-- Register r, not taken. -/
def rg (r : Fin 8) : Src := ⟨r, false⟩
/-- Register r, taken. -/
def tk (r : Fin 8) : Src := ⟨r, true⟩

/-- The SWC flags of n bytes of a COH page. -/
abbrev coh (n : Nat) : List Bool := List.replicate n false

/-- Memory that translates for ASID 0: the 64 KiB pages at 0 and 0x10000 to themselves, 0x30000 to the TRV page there of cluster 1, and 0x50000 to a page
that only its supervisor may write. -/
def testPages : List Page :=
  [placedPage, { placedPage with va := 0x10000, pa := 0x10000 }, { placedPage with va := 0x30000, pa := 0x30000, attr := .trv, home := 1 },
   { placedPage with va := 0x50000, pa := 0x50000, w := false, sw := false, r := false, x := false }]

/-- A package whose every function is ready, with one context: the line of `placedLine` changed by f, RUNNING in slot 0 of cluster 0, at its issue
cycle; its ASID 0 has every profile. -/
def issuing (f : Line → Line) : State :=
  let s := State.reset.withFetchWord 64 0
  { s with
    sched := { s.sched with agenda := [], cur := some (0, 0, 0), seq := 9 }
    mgmt := { s.mgmt with ready := 0xF_7F7F_7F7F, subBase := 0x40000, ptBase := 0x80000, based := true }
    mem := { s.mem with pages := testPages }
    ctx := { s.ctx with lines := [(placedKey, f placedLine)] } }

/-- The context's register r holds v. -/
def setR (r : Fin 8) (v : Word) (l : Line) : Line := Line.onCtx (fun c => c.setReg r v) l
/-- The context's status changed. -/
def setSt (f : Status → Status) (l : Line) : Line := Line.onCtx (fun c => { c with st := f c.st }) l
/-- The placed line, WAITING with a kind. -/
def waiter (k : BitVec 4) : Line := setSt (fun t => { t with state := .waiting }) (Line.onCtx (fun c => { c with waitKind := k }) placedLine)

/-- Every hypothesis of `Issues` as one test. -/
def issuesB (h : Head) (s : State) (l : Line) : Bool :=
  decide (s.issuing = some (placedKey, l)) && l.lost &&& l.c.st.dies == 0 && !s.parentBusy l.after && l.goTo.isNone && l.fault.isNone && !l.cancelled && l.c.st.qkind == 0 &&
    !l.redo && !l.c.marker && (l.reissue.isSome || l.c.st.larem != 0 || l.c.st.pend == 0) && h.bad.isNone && (s.asidRegs l.c.asid).has h.profile &&
    decide (h.level ≤ l.c.level) && (l.c.st.larem == 0 || h.namesNow l &&& l.c.st.pend == 0) && l.c.anyActive h &&
    l.c.st.full &&& h.takesNow l == h.takesNow l

theorem issues_of {h : Head} {s : State} {l : Line} (b : issuesB h s l = true) : Issues h s placedKey l := by
  simp only [issuesB, Bool.and_eq_true, Bool.not_eq_true', Bool.or_eq_true, decide_eq_true_eq, beq_iff_eq, bne_iff_ne, Option.isNone_iff_eq_none,
    Option.isSome_iff_ne_none] at b
  obtain ⟨⟨⟨⟨⟨⟨⟨⟨⟨⟨⟨⟨⟨⟨⟨h1, h2⟩, h3⟩, h4⟩, h5⟩, h6⟩, h7⟩, h8⟩, h9⟩, h10⟩, h11⟩, h12⟩, h13⟩, h14⟩, h15⟩, h16⟩ := b
  exact ⟨h1, h2, h3, h4, h5, by simp [h6], h7, h8, h9, by tauto, h11, h12, h13, by tauto, h15, h16⟩

/-- A word issues, and more holds. -/
theorem wit {h : Head} {s : State} {l : Line} {P : Prop} (b : issuesB h s l = true) (p : P) : Issues h s placedKey l ∧ P := ⟨issues_of b, p⟩

/-- Every word of a list of heads issues in a state. -/
theorem all_issue {hs : List Head} {s : State} {l : Line} (b : (hs.all fun h => issuesB h s l) = true) : ∀ h ∈ hs, Issues h s placedKey l :=
  fun h m => issues_of (List.all_eq_true.1 b h m)

/-- The port of a slice is of the slice's die. -/
theorem slice_die (d x : Nat) : (d * 64 + x % 64) / 64 = d := by omega

/-- With no switch that has slept or lately carried a flit, at cycle 0, a path within a die is up. -/
theorem pathUp_still {s : State} (sw : s.fab.switches = []) (c : s.sched.cycle = 0) (n p a b d : Nat) : s.pathUp n p a b [d] = true := by
  simp [State.pathUp, State.wayUp, wayBoundaries, State.switch, SMap.getD, SMap.get?, PowerState.passes, sw, c]

/-- A request that has come to its slice within its die is performed. -/
theorem performs {s : State} {r : Request} {f : Flit} {d : Nat} (h : s.flit r = some f) (a : f.arrived = true) (b : s.lineBusy r f = false)
    (e : s.releaseLate r = false) (t : s.tableLate r f = false) (u : s.hostUp r.lines = true) (w : s.portWay r.dst r.src = [d]) (sw : s.fab.switches = []) (c : s.sched.cycle = 0) : s.mayPerform r = true := by
  simp [State.mayPerform, h, a, b, e, t, u, w, pathUp_still sw c]

end Sys2Proof.Tests
end

