-- ==== Sys2Proof/Tests/Slice0.lean ====
section
/-! SUPPORT. Small tests: words of the spec decode to what they stand for, ill-formed terms are refused, and single instructions give the
results of the spec's worked examples. -/

set_option Elab.async false

open Sys2Proof Sys2Proof.Machine

namespace Sys2Proof.Tests

/-! ### Decoding: every word below is written in the spec beside its assembly -/

theorem test_decode_integer :
    decodeWord 0x3030_000B_1A00_0000 = .add ⟨0x30, 1, 4, 0⟩ 3 (rg 1) (tk 2) ∧
    decodeWord 0x7D57_8009_1200_0000 = .add ⟨0x7D, 2, 5, 7⟩ 1 (rg 1) (rg 2) ∧
    decodeWord 0xFF00_001C_4FFF_FFFF = .addi g0 4 (rg 4) (-1) ∧
    decodeWord 0xFF00_0026_2200_0000 = .mul g0 6 (rg 2) (rg 2) ∧
    decodeWord 0xFF00_0062_2500_0000 = .or g0 2 (rg 2) (rg 5) ∧
    decodeWord 0xFF00_00FD_1202_0000 = .sel g0 2 5 (rg 1) (rg 2) ∧
    decodeWord 0xFF00_0109_9600_0200 = .ldih g0 1 0x96000200 ∧
    decodeWord 0xFF00_0122_1000_0000 = .fatget g0 2 (rg 1) ∧
    decodeWord 0xFF00_011B_1400_0000 = .fatset g0 3 (rg 1) (rg 4) ∧
    decodeWord 0xFF00_0113_0000_1FDF = .addpc g0 3 0x1FDF ∧
    decodeWord 0xFF00_0147_0000_0003 = .shli g0 7 (rg 0) 3 ∧
    decodeWord 0xFF00_0129_1000_00FF = .andi g0 1 (rg 1) 0xFF := by decide

theorem test_decode_predicate :
    decodeWord 0xFF00_0202_0A90_0000 = .cmp g0 1 .replace .lt (rg 1) (rg 5) ∧
    decodeWord 0xFF00_0200_8990_0000 = .cmp g0 0 .and .lt (rg 1) (rg 3) ∧
    decodeWord 0xFF00_0208_207F_FFFF = .cmpi g0 0 .replace .eq (rg 4) (-1) ∧
    decodeWord 0xFF00_0221_0007_8000 = .pset g0 1 0 0 0 0x0F ∧
    decodeWord 0xFF00_0224_0574_0000 = .pset g0 4 0 1 2 0xE8 ∧
    decodeWord 0xF0A0_0236_6000_0000 = .pcnt ⟨0xF0, 5, 0, 0⟩ 6 3 := by decide

theorem test_decode_control :
    decodeWord 0xFF00_0280_0000_0003 = .br g0 3 ∧
    decodeWord 0xFF00_028F_0000_0003 = .brl g0 7 3 ∧
    decodeWord 0xFF00_0290_7000_0000 = .jr g0 (rg 7) ∧
    decodeWord 0xFF00_029F_B000_0000 = .jrl g0 7 (tk 3) ∧
    decodeWord 0xFF00_02A4_FFFF_FFFC = .loop g0 4 (-4) ∧
    decodeWord 0xFF00_02A8_0000_0000 = .waitInbox g0 ∧
    decodeWord 0xFF00_02A8_2001_0000 = .waitFull g0 (rg 2) ∧
    decodeWord 0xFF00_02A8_3002_0000 = .waitTime g0 (rg 3) ∧
    decodeWord 0xFF00_02B0_0000_0000 = .yield g0 ∧
    decodeWord 0xFF00_02B8_0000_0000 = .nop g0 := by decide

theorem test_decode_vector :
    decodeWord 0xF040_0300_2400_4000 = .vadd ⟨0xF0, 2, 0, 0⟩ .wrap .i16 0 (rg 2) (rg 4) ∧
    decodeWord 0xFF00_038A_0115_8000 = .vcmp g0 1 .replace (.flt .f32 .lt) (rg 0) (rg 2) ∧
    decodeWord 0xFF00_03A8_2460_9000 = .vfma g0 .f32 .rtz 0 (rg 2) (rg 4) (rg 6) ∧
    decodeWord 0xFF00_03C0_2400_8000 = .vdot g0 .rne 0 (rg 2) (rg 4) (rg 0) := by decide

theorem test_decode_float :
    decodeWord 0xFF00_0481_2300_8000 = .fadd g0 .f32 .rne 1 (rg 2) (rg 3) ∧
    decodeWord 0xFF00_1CA4_1200_C000 = .fdiv g0 3 .f64 .rne 4 (rg 1) (rg 2) ∧
    decodeWord 0xFF00_0D03_1000_0000 = .rcp g0 1 false 3 (rg 1) ∧
    decodeWord 0xFF00_0534_2001_0000 = .tanh g0 0 true 4 (rg 2) := by decide

theorem test_decode_memory :
    decodeWord 0xFF00_1584_1030_0000 = .ld g0 2 .u64 4 (rg 1) 0 ∧
    decodeWord 0xFF00_0D85_4020_0028 = .ld g0 1 .u32 5 (rg 4) 40 ∧
    decodeWord 0xFF00_0588_1230_0010 = .st g0 .b64 (rg 1) (rg 2) 16 ∧
    decodeWord 0xFF00_0592_4000_0010 = .ldv g0 0 2 (rg 4) 16 ∧
    decodeWord 0xFF00_05B5_2031_8008 = .ldAcq g0 .u64 .pkg 5 (rg 2) 8 ∧
    decodeWord 0xFF00_05B8_1230_8000 = .stRel g0 .b64 .cl (rg 1) (rg 2) 0 ∧
    decodeWord 0xFF00_05C4_120D_E000 = .amo g0 0 .add true .acqRel .pkg 4 (rg 1) (rg 2) ∧
    decodeWord 0xFF00_05C8_0009_8000 = .fence g0 .release .pkg ∧
    decodeWord 0xFF00_05E8_1201_8000 = .discard g0 .pkg 1 2 := by decide

theorem test_decode_message :
    decodeWord 0xFF00_0680_1401_0000 = .send g0 1 (rg 1) (rg 4) ∧
    decodeWord 0xFF00_0688_1203_0000 = .dep g0 3 (rg 1) (rg 2) ∧
    decodeWord 0xFF00_0694_0000_0000 = .recv g0 4 ∧
    decodeWord 0xFF00_0E9E_5000_0000 = .qred g0 1 .i64 6 5 ∧
    decodeWord 0xFF00_16A3_1206_8000 = .rget g0 2 6 2 3 (rg 1) (rg 2) ∧
    decodeWord 0xFF00_06AD_1200_0000 = .spawn g0 5 (rg 1) (rg 2) ∧
    decodeWord 0xFF00_06B0_0000_0000 = .quit g0 ∧
    decodeWord 0xFF00_06B0_0001_0000 = .quitDone g0 ∧
    decodeWord 0xFF00_06B8_1000_0000 = .mig g0 (rg 1) ∧
    decodeWord 0xFF00_06C2_0000_0000 = .self g0 .handle 2 ∧
    decodeWord 0xFF00_06C8_0002_4000 = .fset g0 0x24 := by decide

theorem test_decode_event :
    decodeWord 0xFF00_0700_1231_0000 = .evsnd g0 true (rg 1) (rg 2) (rg 3) ∧
    decodeWord 0xFF00_0708_1230_0000 = .evarm g0 false (rg 1) (rg 2) (rg 3) ∧
    decodeWord 0xFF00_0714_1200_0000 = .evstep g0 4 (rg 1) (rg 2) ∧
    decodeWord 0xFF00_071D_1000_0000 = .evrdMem g0 5 (rg 1) ∧
    decodeWord 0xFF00_071D_1001_0000 = .evrdStep g0 5 (rg 1) ∧
    decodeWord 0xFF00_0723_1200_0000 = .evwr g0 3 (rg 1) (rg 2) ∧
    decodeWord 0xFF00_072B_1201_0000 = .evcfgClr g0 3 (rg 1) (rg 2) ∧
    decodeWord 0xFF00_0730_0000_0000 = .fenceEv g0 := by decide

theorem test_decode_engine_word :
    decodeWord 0xFF00_0741_4000_0000 = .post g0 0 false 1 (rg 4) ∧
    decodeWord 0xFF00_1745_0002_0000 = .post g0 2 true 5 (rg 0) ∧
    decodeWord 0xFF00_074E_0000_0000 = .postw g0 false 6 (rg 0) ∧
    decodeWord 0xFF00_0753_1200_0000 = .talloc g0 3 (rg 1) (rg 2) ∧
    decodeWord 0xFF00_075A_9000_0000 = .tfree g0 2 (tk 1) ∧
    decodeWord 0xFF00_0764_1000_0000 = .tinfo g0 4 (rg 1) := by decide

theorem test_decode_system :
    decodeWord 0xFF00_0780_2003_0000 = .trap g0 3 (rg 2) ∧
    decodeWord 0xFF00_078A_1000_0000 = .resume g0 2 (rg 1) ∧
    decodeWord 0xFF00_0791_0000_0011 = .csrr g0 1 0x011 ∧
    decodeWord 0xFF00_079A_3000_0020 = .csrw g0 2 (rg 3) 0x020 ∧
    decodeWord 0xFF00_07B0_1203_0000 = .tlbinvRange g0 .pkg (rg 1) (rg 2) ∧
    decodeWord 0xFF00_07BB_1001_0000 = .evictMem g0 3 (rg 1) ∧
    decodeWord 0xFF00_07C6_0000_0000 = .time g0 6 ∧
    decodeWord 0xFF00_07C8_0000_0000 = .bkpt g0 ∧
    decodeWord 0xFF00_07D2_1000_0000 = .launch g0 2 (rg 1) ∧
    decodeWord 0xFF00_07DA_1001_0000 = .cancelJob g0 2 (rg 1) ∧
    decodeWord 0xFF00_07E0_0000_0000 = .maskclr g0 := by decide

theorem test_decode_illegal :
    decodeWord 0x0000_0000_0000_0000 = .illegalOpcode 0 1 ∧
    decodeWord 0xFFFF_FFFF_FFFF_FFFF = .illegalOpcode 0xFFFF_FFFF_FFFF_FFFF 1 ∧
    decodeWord 0xFF00_02B8_0000_0001 = .illegalOpcode 0xFF00_02B8_0000_0001 3 ∧
    decodeWord 0xFF00_0300_1200_0000 = .illegalOpcode 0xFF00_0300_1200_0000 5 := by decide

/-- COP 0x06 in bits [255:248], QBAR in bit 246, CKIND 1 in [245:244], CSC 2 in [243:241], HA in [175:144], HB in [143:112], HC in [111:80] and OPS
in [79:0], by R78. -/
theorem test_decode_command :
    decodeCommand (BitVec.ofNat 256 (0x06 * 2 ^ 248 + 2 ^ 246 + 1 * 2 ^ 244 + 2 * 2 ^ 241 + 7 * 2 ^ 176 + 1 * 2 ^ 144 + 2 * 2 ^ 112 + 3 * 2 ^ 80 + 5)) =
      some (.tfill { rel := false, qbar := true, ckind := 1, csc := 2, bit240 := false, ctgt := 7, ha := 1, hb := 2, hc := 3, ops := 5 }) := by decide

/-- A command opcode that R79 does not assign is no command. -/
theorem test_decode_no_command : decodeCommand (BitVec.ofNat 256 (0xFF * 2 ^ 248)) = none := by decide

/-! ### Ill-formed terms, one for each check -/

theorem witness_DecodeOfEncode : wellFormed (.vadd g0 .wrap .i8 0 (rg 2) (rg 4)) = true ∧ (encodeWord (.vadd g0 .wrap .i8 0 (rg 2) (rg 4))).isSome = true := by
  decide
theorem test_refuses_odd_pair : wellFormed (.vadd g0 .wrap .i8 1 (rg 2) (rg 4)) = false ∧ wfCond (.vadd g0 .wrap .i8 1 (rg 2) (rg 4)) = some 5 := by decide
theorem test_refuses_odd_sources : wellFormed (.vshuf g0 .i8 0 (rg 2) (rg 4) (rg 7)) = false ∧ wellFormed (.stv g0 (rg 0) (rg 3) 0) = false ∧
    wellFormed (.vext g0 false .i8 0 (rg 1) (rg 2)) = false ∧ wellFormed (.ldv g0 0 5 (rg 0) 0) = false := by decide
theorem test_refuses_quads : wellFormed (.recv g0 2) = false ∧ wellFormed (.post g0 0 false 1 (rg 6)) = false ∧
    wellFormed (.postw g0 false 1 (rg 1)) = false := by decide
theorem test_refuses_unused_source : wfCond (.vperm g0 .rev .i8 0 (rg 2) (rg 4)) = some 3 := by decide
theorem test_refuses_unused_rounding : wfCond (.vcvt g0 .bf16f32 .rup 0 (rg 2)) = some 3 ∧ wfCond (.fcvt g0 .f32f64 .rtz 0 (rg 2)) = some 3 := by decide
theorem test_refuses_sfu_pairs : wfCond (.rcp g0 0 true 1 (rg 2)) = some 5 ∧ wfCond (.rcp g0 0 false 1 (rg 2)) = none := by decide
theorem test_refuses_values : wfCond (.send g0 3 (rg 0) (rg 5)) = some 2 ∧ wfCond (.fset g0 0) = some 2 ∧ wfCond (.fclr g0 0) = some 2 ∧
    wfCond (.tlbinvAll g0 .ctx) = some 2 ∧ wfCond (.tlbinvRange g0 .ctx (rg 0) (rg 1)) = some 2 := by decide
theorem test_refuses_commands : wellFormed (.mma { rel := false, qbar := false, ckind := 3, csc := 0, bit240 := false, ctgt := 0, ha := 0, hb := 0, hc := 0, ops := 0 }) = false ∧
    wellFormed (.tadd { rel := false, qbar := false, ckind := 0, csc := 5, bit240 := false, ctgt := 0, ha := 0, hb := 0, hc := 0, ops := 0 }) = false ∧
    wellFormed (.pool { rel := false, qbar := false, ckind := 0, csc := 0, bit240 := true, ctgt := 0, ha := 0, hb := 0, hc := 0, ops := 0 }) = false := by decide
theorem test_refuses_illegal : ∀ c : Fin 8, wellFormed (.illegalOpcode 0 (BitVec.ofNat 3 c.val)) = false := by decide

/-! ### Single instructions -/

/-- What p gives of the line after an instruction that goes on, from the placed line changed by f. -/
def gives {α : Type} (i : Instr) (f : Line → Line) (p : Line → α) : Option α :=
  match exec i (issuing f) with
  | .next t => (SMap.get? t.ctx.lines placedKey).map p
  | .fault _ => none
  | .refused _ => none

/-- The value of a register after an instruction. -/
def regOut (i : Instr) (f : Line → Line) (r : Fin 8) : Option Word := gives i f fun l => l.c.reg r

/-- g1 and g2. -/
def ab (x y : Word) : Line → Line := setR 2 y ∘ setR 1 x

/-- R100's table of borderline cases. -/
theorem test_divide_table :
    ([(7, 0), (-7, 2), (7, -2), (0x8000000000000000, -1)].map fun x => regOut (.div g0 3 (rg 1) (rg 2)) (ab x.1 x.2) 3) =
      [some 0xFFFFFFFFFFFFFFFF, some (-3), some (-3), some 0x8000000000000000] ∧
    ([(7, 0), (-7, 2), (7, -2), (0x8000000000000000, -1)].map fun x => regOut (.rem g0 3 (rg 1) (rg 2)) (ab x.1 x.2) 3) =
      [some 7, some (-1), some 1, some 0] := by decide
theorem test_divide_unsigned_table :
    ([(7, 0), (-7, 2), (7, -2), (0x8000000000000000, -1)].map fun x => regOut (.divu g0 3 (rg 1) (rg 2)) (ab x.1 x.2) 3) =
      [some 0xFFFFFFFFFFFFFFFF, some 0x7FFFFFFFFFFFFFFC, some 0, some 0] ∧
    ([(7, 0), (-7, 2), (7, -2), (0x8000000000000000, -1)].map fun x => regOut (.remu g0 3 (rg 1) (rg 2)) (ab x.1 x.2) 3) =
      [some 7, some 1, some 7, some 0x8000000000000000] := by decide
/-- R100: -1 times -1. -/
theorem test_multiply_high : regOut (.mul g0 3 (rg 1) (rg 2)) (ab (-1) (-1)) 3 = some 1 ∧ regOut (.mulh g0 3 (rg 1) (rg 2)) (ab (-1) (-1)) 3 = some 0 ∧
    regOut (.mulhu g0 3 (rg 1) (rg 2)) (ab (-1) (-1)) 3 = some 0xFFFFFFFFFFFFFFFE := by decide
/-- R99: the magnitude of the most negative number. -/
theorem test_abs_wraps : regOut (.abs g0 3 (rg 1)) (ab 0x8000000000000000 0) 3 = some 0x8000000000000000 := by decide
/-- R103: a field that runs past bit 63 is clipped, and a length of 0 copies gc. -/
theorem test_bit_fields : regOut (.bext g0 3 (rg 1) (rg 2)) (ab 0xF000000000000000 0x083C) 3 = some 0xF ∧
    regOut (.bins g0 3 (rg 1) (rg 2) (rg 4)) (setR 4 5 ∘ ab 0xFF 0x0008) 3 = some 5 := by decide
/-- R108's example. -/
theorem test_fat_pointer : regOut (.fatget g0 2 (rg 1)) (setR 1 0x9600020000100000) 2 = some 0x4B ∧
    regOut (.fatset g0 3 (rg 1) (rg 4)) (setR 4 0x30 ∘ setR 1 0x9600020000100000) 3 = some 0x6000020000100000 := by decide
/-- R61's example: g1 = -3 and g5 = 2. -/
theorem test_compare_pair : gives (.cmp g0 1 .replace .lt (rg 1) (rg 5)) (setR 5 2 ∘ setR 1 (-3)) (fun l => (l.c.pred 2, l.c.pred 3)) = some (0xFFFF, 0) := by
  decide
/-- The count of R114's example. -/
theorem test_predicate_count : regOut (.pcnt ⟨0xF0, 5, 0, 0⟩ 6 3) (Line.onCtx fun c => (c.setPred 5 0x0F0F).setPred 3 0x00F3) 6 = some 2 := by decide
/-- R136's example: 1.0 < 2.0, a NaN, equal values and two zeros. -/
theorem test_vector_compare : gives (.vcmp g0 1 .replace (.flt .f32 .lt) (rg 0) (rg 2))
    (setR 0 0x7FC000003F800000 ∘ setR 1 0x00000000C0000000 ∘ setR 2 0x3F80000040000000 ∘ setR 3 0x80000000C0000000)
    (fun l => (l.c.pred 2, l.c.pred 3)) = some (0x1111, 0xEEEE) := by decide
/-- R139's example: one rounding. -/
theorem test_dot_rounds_once : (regOut (.vdot g0 .rne 0 (rg 2) (rg 4) (rg 0)) (setR 0 0x3F800000 ∘ setR 2 0x3F804580 ∘ setR 4 0x30804580) 0).map (·.setWidth 32) =
    some (0x4B800001 : BitVec 32) := by decide
/-- The vector add of R57's example: lanes 4 to 7 alone. -/
theorem test_vector_guard : regOut (.vadd ⟨0xF0, 2, 0, 0⟩ .wrap .i16 0 (rg 2) (rg 4))
    ((Line.onCtx fun c => c.setPred 2 0x00F0) ∘ setR 2 0x0001000100010001 ∘ setR 3 0xFFFF000100020003 ∘ setR 5 0x0001000200030004) 1 = some 0x0000000300050007 ∧
    regOut (.vadd ⟨0xF0, 2, 0, 0⟩ .wrap .i16 0 (rg 2) (rg 4)) ((Line.onCtx fun c => c.setPred 2 0x00F0) ∘ setR 0 9 ∘ setR 2 1) 0 = some 9 := by decide
/-- The worked conversions of R38. -/
theorem test_taper : encodeTaper 8 (fp32.decode 0x40400000) = 0x58 ∧ encodeTaper 8 (fp32.decode 0x42C80000) = 0x79 ∧
    encodeTaper 8 (fp32.decode 0x3F840000) = 0x40 ∧ encodeTaper 8 (fp32.decode 0x3F8C0000) = 0x42 ∧ encodeTaper 8 (fp32.decode 0x461C4000) = 0x7F ∧
    encodeTaper 8 (fp32.decode 0xFF800000) = 0x80 ∧ encodeTaper 6 (fp32.decode 0x40400000) = 0x16 := by decide
/-- R119: a count of 0 stays and falls through; a count of 1 ends the loop. -/
theorem test_loop : regOut (.loop g0 4 (-4)) (setR 4 0) 4 = some 0 ∧ gives (.loop g0 4 (-4)) (setR 4 2) (fun l => (l.c.pc, l.c.reg 4)) = some (0xFE0, 1) ∧
    gives (.loop g0 4 (-4)) (setR 4 1) (fun l => (l.c.pc, l.c.reg 4)) = some (0x1008, 0) := by decide
/-- R118: a jump to an address that is no multiple of 8 traps with code 0x05. -/
theorem test_jump_misaligned : gives (.jr g0 (rg 7)) (setR 7 0x2004) (fun l => (l.c.st.state, l.c.st.trapcode, l.c.pc)) = some (.trapped, 0x05, 0x1000) ∧
    gives (.jr g0 (rg 7)) (setR 7 0x2008) (fun l => l.c.pc) = some 0x2008 := by decide
/-- R62: a take of an empty register waits; of a full one it clears the bit. -/
theorem test_take : gives (.add g0 3 (rg 1) (tk 2)) id (fun l => (l.c.st.state, l.c.waitKind, l.c.waitObj)) = some (.waiting, 1, 2) ∧
    gives (.add g0 3 (rg 1) (tk 2)) (setSt fun t => { t with full := 0x0C }) (fun l => (l.c.st.full, l.c.pc)) = some (0x08, 0x1008) := by decide
/-- R223: TRAP 3 has code 0x43 and a PC word past itself; BKPT code 0x30 at its own address. -/
theorem test_traps : gives (.trap g0 3 (rg 2)) id (fun l => (l.c.st.state, l.c.st.trapcode, l.c.pc)) = some (.trapped, 0x43, 0x1008) ∧
    gives (.bkpt g0) id (fun l => (l.c.st.trapcode, l.c.pc)) = some (0x30, 0x1000) := by decide
/-- R225: a write of ARRIVAL_LIMIT gives the old value, 64 at reset; a register that is not listed is an illegal encoding. -/
theorem test_csr : regOut (.csrw g0 2 (rg 3) 0x020) (setR 3 2) 2 = some 64 ∧
    gives (.csrr g0 1 0x999) id (fun l => (l.c.st.state, l.c.st.trapcode)) = some (.trapped, 0x01) := by decide
/-- R222: a context of user privilege may not RESUME: code 0x02. -/
theorem test_privilege : gives (.resume g0 2 (rg 1)) (setSt fun t => { t with priv := 0 }) (fun l => (l.c.st.state, l.c.st.trapcode)) = some (.trapped, 0x02) := by
  decide

/-- An AMO on the doubleword at 0x10000, in flight. -/
def amoInFlight (op : AmoOp) (b cmp : Word) : Pending :=
  let a : Access := { kind := .amo op true b cmp, va := 0x10000, pc := 0x1000, word := 0, asid := 0, priv := 3, cluster := 0, acq := false, rel := false,
                      scope := .ctx, pas := some (rangeFrom 0x10000 8), swc := coh 8, tags := [], merged := [] }
  { line := placedKey, clear := 8, what := .access a, wake := false, tag := none, seq := 3 }

/-- Memory and g3 after an AMO on a doubleword that holds 5. -/
def amoOut (op : AmoOp) (b cmp : Word) : Option (Nat × Word) :=
  let s := issuing id
  match exec (.lineWrite 0) { s with mem := { s.mem with bytes := [(0x10000, 5)] }, fl := { s.fl with pend := [amoInFlight op b cmp] } } with
  | .next t => (SMap.get? t.ctx.lines placedKey).map fun l => (leNat (t.readBytes (rangeFrom 0x10000 8)), l.c.reg 3)
  | .fault _ => none
  | .refused _ => none

/-- R159: a compare-and-swap that matches writes and one that does not leaves memory; MIN compares as signed numbers and MAXU as unsigned. -/
theorem test_amo : amoOut .cas 9 5 = some (9, 5) ∧ amoOut .cas 9 6 = some (5, 5) ∧ amoOut .min (-1) 0 = some (2 ^ 64 - 1, 5) ∧
    amoOut .minu (-1) 0 = some (5, 5) := by decide +kernel

/-- R14: a tick adds one to every live die's counter. -/
theorem test_tick : (match exec .timeBaseTick { State.reset with sched := { State.reset.sched with cycle := 2 } } with
    | .next t => t.time.toList
    | _ => []) = [1, 1, 1, 1] := by decide

/-- The first step from a placed NOP leaves the context past it. -/
theorem test_step_nop : (match step (State.reset.withFetchWord 64 0xFF0002B800000000) with
    | .next t => (SMap.get? t.ctx.lines placedKey).map fun l => l.c.pc
    | _ => none) = some 0x1008 := by decide

end Sys2Proof.Tests
end

