-- ==== Sys2Proof/Tests/Witness1.lean ====
section
/-! SUPPORT. States that meet the hypotheses of the statements about a step, about issue, and about the words whose effect is on their own
context. -/

set_option Elab.async false

open Sys2Proof Sys2Proof.Machine

namespace Sys2Proof.Tests

/-- The shapes of scalar words. -/
abbrev Two := Guard → Reg → Src → Src → Instr
abbrev One := Guard → Reg → Src → Instr

/-- g3 from g1 and a take of g2. -/
def twoHead (i : Two) : Head := head2 (i g0 3 (rg 1) (tk 2)) g0 3 (rg 1) (tk 2)
/-- g3 from g1. -/
def oneHead (i : One) : Head := head1 (i g0 3 (rg 1)) g0 3 (rg 1)
/-- Every full bit set. -/
def allFull : Line → Line := setSt fun t => { t with full := 0xFF }
/-- The head of NOP. -/
def nopHead : Head := headOf (.nop g0) g0 0 0
/-- The head of a load with a lookahead count. -/
def ldHead (la : BitVec 4) : Head := { headLong (.ld g0 la .u64 3 (rg 1) 0) g0 la 0x0A 0 with again := some 0x08 }

/-! ### A step -/

theorem witness_step_word :
    let s := State.reset.withFetchWord 64 0xFF0002B800000000
    let r := { s with sched := { s.sched with agenda := [] } }
    let t := r.atSlot 0 0 0
    ((List.range 4).any fun d => (s.die d).present) = true ∧ s.sched.agenda = [.issue 0 0 0] ∧ r.mayIssue 0 0 0 = true ∧
      t.issuing = some (placedKey, placedLine) ∧ boundary t placedKey placedLine = none ∧
      t.transBytes 0 0 3 .fetch .exec 0x1000 8 = .ok (rangeFrom 0x1000 8, coh 8) ∧ t.fetchReaches placedLine = true ∧
      t.poisonedAt placedLine.c.dieNum (coh 8) (rangeFrom 0x1000 8) = false ∧ (∀ a ∈ rangeFrom 0x1000 8, t.homeGone a = false) ∧
      decodeWord (BitVec.ofNat 64 (leNat (t.seenBytes placedLine.c.dieNum (coh 8) (rangeFrom 0x1000 8)))) = .nop g0 := by decide

theorem witness_step_command :
    let s := State.reset.withFetchWord 256 (0x06 * 2 ^ 248)
    s.sched.agenda = [.start 0 (queueOfCop 0x06)] ∧ s.crossings (.start 0 (queueOfCop 0x06)) = [] ∧ ((s.queue 0 (queueOfCop 0x06)).map fun e => (decodeCommand e.cmd).isSome) = [true] := by decide

theorem witness_step_event :
    let s := { State.reset with sched := { State.reset.sched with cycle := State.reset.sched.tickAt } }
    encodeWord .timeBaseTick = none ∧ encodeCommand .timeBaseTick = none ∧ s.automatic = .event .timeBaseTick ∧ s.ctx.lines = [] ∧
    s.mergePair s.automatic = none ∧ s.requestOf s.automatic = none ∧ s.crossings s.automatic = [] ∧
    (match exec .timeBaseTick s with | .next _ => true | _ => false) = true := by decide

theorem witness_EveryWordIssues : encodeWord (.csrr g0 1 0x999) = some 0xFF00079100000999 ∧ ¬ namesCsr (.csrr g0 1 0x999) ∧
    namesCsr (.csrr g0 1 0x011) := by
  unfold namesCsr
  decide

/-! ### Issue -/

theorem witness_ContextAdvances_window : (Issues (ldHead 3) (issuing id) placedKey placedLine ∧ placedLine.c.st.larem = 0) ∧
    (Issues (ldHead 3) (issuing (setSt fun t => { t with larem := 2 })) placedKey (setSt (fun t => { t with larem := 2 }) placedLine) ∧
      (2 : BitVec 4) ≠ 0) ∧
    Issues nopHead (issuing (setSt fun t => { t with larem := 15 })) placedKey (setSt (fun t => { t with larem := 15 }) placedLine) :=
  ⟨wit (by decide) (by decide), wit (by decide) (by decide), issues_of (by decide)⟩

/-- A replay marker has been taken. -/
def again : Line → Line := fun l => { l with reissue := some 0x1000 }

theorem witness_ContextAdvances_again : Issues (ldHead 0) (issuing again) placedKey (again placedLine) ∧ (again placedLine).reissue ≠ none :=
  wit (by decide) (by decide)

/-- The hypotheses of the checks hold of a line. -/
def atCheck (f : Line → Line) : Prop := (issuing f).issuing = some (placedKey, f placedLine) ∧ boundary (issuing f) placedKey (f placedLine) = none

theorem witness_ContextAdvances_suppressed :
    let f := setSt fun t => { t with larem := 3 }
    let g : Guard := ⟨0, 0, 0, 0⟩
    let h := headLong (.ld g 1 .u64 3 (rg 1) 0) g 1 0x0A 0
    atCheck f ∧ checks h ((issuing f).asidRegs (f placedLine).c.asid) (f placedLine) = none ∧ (f placedLine).c.anyActive h = false := by
  unfold atCheck
  decide

theorem witness_checks_bad : atCheck id ∧ (headCsr (.csrr g0 1 0x999) g0 0x999 false 2 0).bad = some 8 := by
  unfold atCheck
  decide
theorem witness_checks_profile : atCheck (Line.onCtx fun c => { c with asid := 5 }) ∧ (twoHead .add).bad = none ∧
    ((issuing (Line.onCtx fun c => { c with asid := 5 })).asidRegs 5).has .v1 = false := by
  unfold atCheck
  decide
theorem witness_checks_level : atCheck (setSt fun t => { t with priv := 0 }) ∧ (headSuper (.tlbinvAll g0 .pkg) g0 0 0).bad = none ∧
    (setSt (fun t => { t with priv := 0 }) placedLine).c.level < (headSuper (.tlbinvAll g0 .pkg) g0 0 0).level := by
  unfold atCheck
  decide
theorem witness_checks_window : atCheck (setSt fun t => { t with larem := 1, pend := 0x02 }) ∧ (twoHead .add).bad = none ∧
    (twoHead .add).namesNow placedLine &&& 0x02 ≠ 0 ∧ (twoHead .add).level ≤ 3 := by
  unfold atCheck
  decide
theorem witness_checks_take : atCheck id ∧ checks (twoHead .add) ((issuing id).asidRegs 0) placedLine = none ∧ placedLine.c.anyActive (twoHead .add) = true ∧
    ((twoHead .add).takesNow placedLine).getLsbD 2 = true ∧ placedLine.c.st.full.getLsbD 2 = false ∧
    (∀ q < 2, ((twoHead .add).takesNow placedLine).getLsbD q = true → placedLine.c.st.full.getLsbD q = true) := by
  unfold atCheck
  decide

theorem witness_SuppressedWordOnlyAdvances : atCheck id ∧ wellFormed (.quit ⟨0, 0, 0, 0⟩) = true ∧ namesCsr (.quit ⟨0, 0, 0, 0⟩) ∧ placedLine.c.level = 3 ∧
    ((issuing id).asidRegs 0).profile = 15 ∧ placedLine.c.st.larem = 0 ∧ (encodeWord (.quit ⟨0, 0, 0, 0⟩)).map guardAt = some ⟨0, 0, 0, 0⟩ := by
  unfold atCheck namesCsr
  decide
theorem witness_suppressed_lanes : ∀ k, placedLine.c.active ⟨0, 0, 0, 0⟩ k = false := by intro k; simp [Ctx.active]

/-! ### Words whose effect is on their own context -/

theorem witness_IntegerResults : (∀ h ∈ ([Instr.add, .sub, .and, .or, .xor, .andn, .min, .max, .minu, .maxu, .mul, .mulh, .mulhu, .div, .divu, .rem, .remu,
      .shl, .shr, .sar, .rot] : List Two).map twoHead, Issues h (issuing allFull) placedKey (allFull placedLine)) ∧
    (∀ h ∈ ([Instr.abs, fun g d a => .addi g d a 5, fun g d a => .andi g d a 5, fun g d a => .ori g d a (-1), fun g d a => .xori g d a 0,
      fun g d a => .shli g d a 63, fun g d a => .shri g d a 63, fun g d a => .sari g d a 0] : List One).map oneHead, Issues h (issuing id) placedKey placedLine) :=
  ⟨all_issue (by decide), all_issue (by decide)⟩

theorem witness_BitResults : (∀ h ∈ ([Instr.bext, fun g d a b => .sel g 7 d a b, .fatset] : List Two).map twoHead,
      Issues h (issuing allFull) placedKey (allFull placedLine)) ∧
    (∀ h ∈ (([Instr.clz, .ctz, .popc, fun g d a => .sext g .i8 d a, fun g d a => .zext g .i32 d a, .fatget] : List One)).map oneHead,
      Issues h (issuing id) placedKey placedLine) ∧
    ∀ h ∈ [headOf (.bins g0 3 (rg 1) (rg 2) (rg 4)) g0 (names3 3 (rg 1) (rg 2) ||| (rg 4).nameMask) 0, headOf (.ldi g0 3 5) g0 (regMask 3) 0,
      headOf (.ldih g0 3 5) g0 (regMask 3) 0, headOf (.addpc g0 3 5) g0 (regMask 3) 0], Issues h (issuing id) placedKey placedLine :=
  ⟨all_issue (by decide), all_issue (by decide), all_issue (by decide)⟩

theorem witness_PredicateResults : ∀ h ∈ [headOf (.cmp g0 3 .replace .lt (rg 1) (rg 2)) g0 6 0, headOf (.cmpi g0 3 .and .ltu (rg 1) (-1)) g0 2 0,
      headOf (.tst g0 0 .or true (rg 1) (rg 2)) g0 6 0, headOf (.fcmp g0 0 .xor .f64 .un (rg 1) (rg 2)) g0 6 0, headPred (.pset g0 4 0 1 2 0xE8) g0 0,
      headPred (.pmov g0 .predFromPred 4 5) g0 0, headPred (.pmov g0 .predFromReg 4 5) g0 (regMask 5), headPred (.pmov g0 .regFromPred 4 5) g0 (regMask 4),
      headPred (.pcnt g0 4 5) g0 (regMask 4)], Issues h (issuing id) placedKey placedLine := all_issue (by decide)

/-- g7 holds a value. -/
def jumpTo (v : Word) : Line → Line := setR 7 v
theorem witness_ControlTransfers_branch : ∀ h ∈ [headOf (.br g0 (-1)) g0 0 0, headOf (.brl g0 7 3) g0 (regMask 7) 0, headOf (.loop g0 4 (-4)) g0 (regMask 4) 0],
    Issues h (issuing id) placedKey placedLine := all_issue (by decide)
theorem witness_ControlTransfers_jump :
    (Issues (headOf (.jr g0 (rg 7)) g0 (rg 7).nameMask 0) (issuing (jumpTo 8)) placedKey (jumpTo 8 placedLine) ∧ (8 : Word).toNat % 8 = 0) ∧
    (Issues (headOf (.jr g0 (rg 7)) g0 (rg 7).nameMask 0) (issuing (jumpTo 7)) placedKey (jumpTo 7 placedLine) ∧ (7 : Word).toNat % 8 ≠ 0) ∧
    (Issues (head1 (.jrl g0 7 (rg 7)) g0 7 (rg 7)) (issuing (jumpTo 8)) placedKey (jumpTo 8 placedLine) ∧ (8 : Word).toNat % 8 = 0) ∧
    (Issues (head1 (.jrl g0 7 (rg 7)) g0 7 (rg 7)) (issuing (jumpTo 1)) placedKey (jumpTo 1 placedLine) ∧ (1 : Word).toNat % 8 ≠ 0) :=
  ⟨wit (by decide) (by decide), wit (by decide) (by decide), wit (by decide) (by decide), wit (by decide) (by decide)⟩
theorem witness_ControlTransfers_count : (Issues (headOf (.loop g0 4 (-4)) g0 (regMask 4) 0) (issuing (setR 4 1)) placedKey (setR 4 1 placedLine) ∧
      ((setR 4 1 placedLine).c.reg 4).toNat ≤ 1) ∧
    (Issues (headOf (.loop g0 4 (-4)) g0 (regMask 4) 0) (issuing (setR 4 2)) placedKey (setR 4 2 placedLine) ∧ ((setR 4 2 placedLine).c.reg 4).toNat = 0 + 2) :=
  ⟨wit (by decide) (by decide), wit (by decide) (by decide)⟩

theorem witness_WaitsAndYield_waits : (∀ h ∈ [headWait (.waitInbox g0) g0 0 0, headWait (.waitFull g0 (rg 2)) g0 (rg 2).nameMask 0,
      headWait (.waitTime g0 (rg 2)) g0 (rg 2).nameMask 0], Issues h (issuing id) placedKey placedLine) ∧
    ¬ placedLine.c.inboxCount ≠ 0 ∧ min ((placedLine.c.src (rg 2)).toNat) (2 ^ 60 - 1) ≤ ((issuing id).timeOf placedLine.c).toNat :=
  ⟨all_issue (by decide), by decide, by decide⟩
theorem witness_WaitsAndYield_waits_else :
    (Issues (headWait (.waitInbox g0) g0 0 0) (issuing (Line.onCtx fun c => { c with inboxCount := 1 })) placedKey
      (Line.onCtx (fun c => { c with inboxCount := 1 }) placedLine) ∧ (1 : BitVec 5) ≠ 0) ∧
    (Issues (headWait (.waitFull g0 (rg 2)) g0 (rg 2).nameMask 0) (issuing (setR 2 0x80)) placedKey (setR 2 0x80 placedLine) ∧
      (0x80 : Word).getLsbD 7 = true ∧ placedLine.c.st.full.getLsbD 7 = false) ∧
    (Issues (headWait (.waitTime g0 (rg 2)) g0 (rg 2).nameMask 0) (issuing (setR 2 (-1))) placedKey (setR 2 (-1) placedLine) ∧
      ¬ min ((setR 2 (-1) placedLine).c.src (rg 2)).toNat (2 ^ 60 - 1) ≤ ((issuing id).timeOf placedLine.c).toNat) :=
  ⟨wit (by decide) (by decide), wit (by decide) (by decide), wit (by decide) (by decide)⟩
theorem witness_WaitsAndYield_yield : Issues (headWait (.yield g0) g0 0 0) (issuing id) placedKey placedLine ∧ placedLine.place = .slot 0 0 0 ∧
    ((issuing id).fl.reds.any fun r => r.line == placedKey) = false := wit (by decide) (by decide)

theorem witness_NopAndTime : (∀ h ∈ [nopHead, headOf (.time g0 6) g0 (regMask 6) 0], Issues h (issuing id) placedKey placedLine) ∧
    (0xFF0002B800000000 : Word).toNat % 2 ^ 47 = 0x02B800000000 ∧ (0xFF0007C600000000 : Word).toNat % 2 ^ 47 = 0xF8 * 2 ^ 35 + 6 * 2 ^ 32 ∧
    (opcAt 0xFF0002B800000001).toNat = 0x57 ∧ (0xFF0002B800000001 : Word).toNat % 2 ^ 47 ≠ 0x02B800000000 ∧ atCheck id := by
  refine ⟨all_issue (by decide), by decide, by decide, by decide, by decide, ?_⟩
  unfold atCheck
  decide

theorem witness_TrapsOnPurpose : Issues (headWait (.bkpt g0) g0 0 0) (issuing id) placedKey placedLine ∧
    Issues (headWait (.trap g0 15 (rg 2)) g0 (rg 2).nameMask 0) (issuing id) placedKey placedLine ∧ (15 : Nat) < 16 ∧ placedLine.reissue = none :=
  ⟨issues_of (by decide), wit (by decide) (by decide)⟩

/-! ### Taking a trap: the ring has room, or is full; there is a handler, or none -/

/-- The test machine whose ASID 0 has a trap ring of 64 records at 0x10000 with this head, and this handler. -/
def ringed (head : BitVec 32) (handler : Word) : State :=
  { issuing id with asids := [(0, { (issuing id).asidRegs 0 with ringBase := 0x10, ringSize := 6, ringHead := head, handler := handler })] }
/-- A trap of the test machine. -/
def oneTrap : TrapInfo := { code := 0x10, pc := 0x1000, obj := none, at_ := 0x1000, src := 0x1000, va := 0, word := 0, detail := 0 }

theorem witness_TrapEntry_record : ((ringed 63 5).fl.reds.any fun r => r.line == placedKey) = false ∧ placedLine.c.marker = false ∧ placedLine.reissue = none ∧
    Memory.wf (ringed 63 5).mem.bytes = true ∧ recordBytes (ringed 63 5) placedLine = some (rangeFrom 0x10FC0 64) ∧ (rangeFrom 0x10FC0 64).Nodup ∧
    (∀ a ∈ rangeFrom 0x10FC0 64, a / 128 ≠ placedKey ∧ (ringed 63 5).lineAt a = none) ∧ ((ringed 63 5).asidRegs 0).handler ≠ 0 := by decide +kernel
theorem witness_TrapEntry_full : recordBytes (ringed 64 0) placedLine = none ∧ ((ringed 64 0).asidRegs 0).handler = 0 ∧
    ((ringed 64 0).fl.reds.any fun r => r.line == placedKey) = false := by decide +kernel

/-! ### Vectors, floating point, special functions -/

/-- A pair word of two pairs. -/
def pairHead (i : Two) : Head := headPairs (i g0 0 (rg 2) (tk 4)) g0 16 0 (rg 2) (tk 4)
theorem witness_VectorInteger : ∀ h ∈ ([fun g d a b => .vadd g .wrap .i16 d a b, fun g d a b => .vadd g .sat .i16 d a b, fun g d a b => .vadd g .usat .i16 d a b,
      fun g d a b => .vsub g .wrap .i16 d a b, fun g d a b => .vsub g .sat .i16 d a b, fun g d a b => .vsub g .usat .i16 d a b,
      fun g d a b => .vmul g .lo .i16 d a b, fun g d a b => .vmul g .hi .i16 d a b, fun g d a b => .vmul g .hiu .i16 d a b,
      fun g d a b => .vmin g false .i16 d a b, fun g d a b => .vmin g true .i16 d a b, fun g d a b => .vmax g false .i16 d a b,
      fun g d a b => .vmax g true .i16 d a b, fun g d a b => .vand g .i16 d a b, fun g d a b => .vor g .i16 d a b, fun g d a b => .vxor g .i16 d a b,
      fun g d a b => .vandn g .i16 d a b, fun g d a b => .vshl g .i16 d a b, fun g d a b => .vshr g .i16 d a b, fun g d a b => .vsar g .i16 d a b] : List Two).map
      pairHead, Issues h (issuing allFull) placedKey (allFull placedLine) := all_issue (by decide)

theorem witness_VectorMovementAndCompare : ∀ h ∈ [headPairs3 (.vshuf g0 .i8 0 (rg 2) (rg 4) (rg 6)) g0 8 0 (rg 2) (rg 4) (rg 6),
      headVec (.vperm g0 .rev .i8 0 (rg 2) (rg 0)) g0 16 (pairMask 0 ||| pairName (rg 2) ||| permNames .rev (rg 0)) 0,
      headVec (.vperm g0 .ziplo .i64 0 (rg 2) (rg 4)) g0 2 (pairMask 0 ||| pairName (rg 2) ||| permNames .ziplo (rg 4)) 0,
      headVec (.vsplat g0 .i32 0 (rg 3)) g0 4 (pairMask 0 ||| (rg 3).nameMask) 0,
      headLane (.vext g0 false .i8 1 (rg 2) (rg 3)) g0 16 (rg 3) (regMask 1 ||| pairName (rg 2) ||| (rg 3).nameMask) 0,
      headLane (.vext g0 true .i64 1 (rg 2) (rg 3)) g0 2 (rg 3) (regMask 1 ||| pairName (rg 2) ||| (rg 3).nameMask) 0,
      headLane (.vins g0 .i16 0 (rg 2) (rg 3)) g0 8 (rg 3) (pairMask 0 ||| (rg 2).nameMask ||| (rg 3).nameMask) 0,
      headVec (.vcmp g0 1 .replace (.int .i8 .geu) (rg 0) (rg 2)) g0 16 (pairName (rg 0) ||| pairName (rg 2)) 0,
      headVec (.vcmp g0 1 .replace (.flt .bf16 .un) (rg 0) (rg 2)) g0 8 (pairName (rg 0) ||| pairName (rg 2)) 0],
    Issues h (issuing id) placedKey placedLine := all_issue (by decide)

theorem witness_VectorFloatAndConvert : ∀ h ∈ ([fun g d a b => .vfadd g .f16 .rne d a b, fun g d a b => .vfsub g .f16 .rup d a b,
        fun g d a b => .vfmul g .bf16 .rdn d a b, fun g d a b => .vfmin g .f16 d a b, fun g d a b => .vfmax g .f16 d a b] : List Two).map pairHead ++
      [headPairs3 (.vfma g0 .f32 .rtz 0 (rg 2) (rg 4) (rg 6)) g0 32 0 (rg 2) (rg 4) (rg 6), headPairs3 (.vdot g0 .rne 0 (rg 2) (rg 4) (rg 0)) g0 32 0 (rg 2) (rg 4) (rg 0),
       headVec (.vcvt g0 .f32i8 .rne 0 (rg 2)) g0 4 (pairMask 0 ||| pairName (rg 2)) 0],
    Issues h (issuing allFull) placedKey (allFull placedLine) := all_issue (by decide)

theorem witness_ScalarFloatResults : (∀ h ∈ ([fun g d a b => .fadd g .f32 .rne d a b, fun g d a b => .fsub g .f64 .rup d a b, fun g d a b => .fmul g .f32 .rdn d a b,
        fun g d a b => .fmin g .f64 d a b, fun g d a b => .fmax g .f32 d a b] : List Two).map twoHead, Issues h (issuing allFull) placedKey (allFull placedLine)) ∧
    (∀ h ∈ ([fun g d a => .fclass g .f64 d a, fun g d a => .fcvt g .f64i32 .rtz d a] : List One).map oneHead ++
      [headOf (.ffma g0 .f32 .rne 3 (rg 1) (rg 2) (rg 4)) g0 (names3 3 (rg 1) (rg 2) ||| (rg 4).nameMask) 0], Issues h (issuing id) placedKey placedLine) :=
  ⟨all_issue (by decide), all_issue (by decide)⟩

theorem witness_LongResultsStart : ∀ h ∈ [headLong (.fdiv g0 3 .f64 .rne 4 (rg 1) (rg 2)) g0 3 (names3 4 (rg 1) (rg 2)) 0,
      headLong (.fsqrt g0 0 .f32 .rup 4 (rg 1)) g0 0 (names2 4 (rg 1)) 0] ++
      ([Instr.rcp, .rsq, .exp2, .log2, .sin, .cos, .tanh] : List (Guard → BitVec 4 → Bool → Reg → Src → Instr)).map fun i => headSfu (i g0 1 true 4 (rg 2)) g0 1 true 4 (rg 2),
    Issues h (issuing id) placedKey placedLine := all_issue (by decide)
/-- The test machine with an SFU queue of n requests, one more freed entry held for unit u, and a divide in flight to g4. -/
def busySfu (n : Nat) (u : List (Nat × Nat)) : State :=
  let s := issuing id
  { s with fl := { s.fl with sfu := [(0, { queue := List.replicate n { line := placedKey, writes := [], clear := 0, seq := 1 }, held := u, refused := [] })] } }
theorem witness_LongResultsStart_full : ((busySfu 16 []).sfuOf 0).queue.length + ((busySfu 16 []).sfuOf 0).held.length ≥ 16 ∧
    (((busySfu 16 []).sfuOf 0).held.any fun x => x.1 == 0) = false ∧ (((busySfu 15 [(0, 3)]).sfuOf 0).held.any fun x => x.1 == 0) = true ∧
    (busySfu 16 []).issuing = some (placedKey, placedLine) := by decide
theorem witness_LongResultsStart_lands :
    let r : DivReq := { line := placedKey, d := 4, value := 0, cluster := 0, unit := 0, seq := 1 }
    let s : State := { issuing id with fl := { (issuing id).fl with divs := [r] } }
    nth? s.fl.divs 0 = some r ∧ SMap.get? s.ctx.lines placedKey = some placedLine ∧ placedLine.lost = 0 ∧ placedLine.c.st.state = .running := by decide
theorem witness_FormatsKeepTheirValues : (∀ f ∈ [fp16, bf16, fp32, fp64], f.decode 1 ≠ .nan ∧ 1 < 2 ^ f.width) ∧ fp32.decode (2 ^ 31 - 2 ^ 23) ≠ .nan := by decide

end Sys2Proof.Tests
end

