-- ==== Sys2Proof/Tests/Witness2.lean ====
section
/-! SUPPORT. States that meet the hypotheses of the statements about words that reach memory, other contexts, the Churn, the engines and the system. -/

set_option Elab.async false

open Sys2Proof Sys2Proof.Machine

namespace Sys2Proof.Tests

/-- g1 holds an address. -/
def at1 (v : Word) : Line → Line := setR 1 v
/-- The test machine with another load of its context in flight that is not translated. -/
def blocked (f : Line → Line) : State :=
  let s := issuing f
  let a : Access := { kind := .ld .u64, va := 0, pc := 0x1000, word := 0, asid := 0, priv := 3, cluster := 0, acq := false, rel := false, scope := .ctx,
                      pas := none, swc := [], tags := [], merged := [] }
  { s with fl := { s.fl with pend := [{ line := placedKey, clear := 0x40, what := .access a, wake := false, tag := none, seq := 2 }] } }

/-- The test machine with an acquire of its context in flight. -/
def acquiring (f : Line → Line) : State :=
  let s := blocked f
  { s with fl := { s.fl with pend := s.fl.pend.map fun p => { p with what := match p.what with
      | .access a => .access { a with acq := true, pas := some [] }
      | .value v q => .value v q } } }

/-- A load's head. -/
def loadHead (i : Instr) (d : BitVec 8) : Head := { headLong i g0 0 (d ||| (rg 1).nameMask) 0 with again := some d }

/-! ### Loads, stores, atomics, orderings -/

theorem witness_LoadsStart :
    (Issues (loadHead (.ld g0 0 .u64 3 (rg 1) 0) 8) (issuing (at1 0x1008)) placedKey (at1 0x1008 placedLine) ∧
      (issuing (at1 0x1008)).memBusy placedKey (at1 0x1008 placedLine) = false ∧ (effAddr 0x1008 0).toNat % 8 = 0 ∧
      translatesTo (issuing (at1 0x1008)) (at1 0x1008 placedLine) .read (effAddr 0x1008 0) 8 = .ok (rangeFrom 0x1008 8, coh 8)) ∧
    (Issues (loadHead (.ld g0 0 .u64 3 (rg 1) 0) 8) (issuing (at1 0x1FFC)) placedKey (at1 0x1FFC placedLine) ∧ (effAddr 0x1FFC 0).toNat % 8 ≠ 0) ∧
    (Issues (loadHead (.ldv g0 0 2 (rg 1) 0) 0x0C) (issuing (at1 0x90000)) placedKey (at1 0x90000 placedLine) ∧
      translatesTo (issuing (at1 0x90000)) (at1 0x90000 placedLine) .read 0x90000 16 = .error (.translation, 0x90000)) ∧
    (Issues (loadHead (.ld g0 0 .u64 3 (rg 1) 0) 8) (blocked id) placedKey placedLine ∧ (blocked id).memBusy placedKey placedLine = true) ∧
    (acquiring id).memBusy placedKey placedLine = true :=
  ⟨wit (by decide) (by decide), wit (by decide) (by decide), wit (by decide) (by decide), wit (by decide) (by decide), by decide⟩

/-- The head of LDT. -/
def ldtHead : Head := { headLong (.ldt g0 0 3 (rg 1) (rg 2) 0) g0 0 (names3 3 (rg 1) (rg 2)) 0 with again := some 8 }
theorem witness_LoadsStart_typed :
    (Issues ldtHead (issuing (at1 0xA000000000001000)) placedKey (at1 0xA000000000001000 placedLine) ∧ placedLine.reissue = none ∧
      (issuing id).memBusy placedKey placedLine = false ∧ ¬ refusedFormat 0xA000000000001000 ∧
      (elementAddr 0xA000000000001000 0 0).toNat % elementSize 10 = 0) ∧
    (Issues ldtHead (issuing (at1 0x0000000000001000)) placedKey (at1 0x0000000000001000 placedLine) ∧ refusedFormat 0x1000) ∧
    (Issues ldtHead (issuing (at1 0x2000000000001001)) placedKey (at1 0x2000000000001001 placedLine) ∧ ¬ refusedFormat 0x2000000000001001 ∧
      (elementAddr 0x2000000000001001 0 0).toNat % elementSize 2 ≠ 0) := by
  refine ⟨wit (by decide) ?_, wit (by decide) ?_, wit (by decide) ?_⟩ <;> unfold refusedFormat <;> decide

/-- The heads of STT and of ST.64. -/
def sttHead : Head := headOf (.stt g0 3 (rg 1) (rg 2) 0) g0 0x0E 0
def stHead : Head := headOf (.st g0 .b64 (rg 1) (rg 2) 0) g0 6 0
theorem witness_StoresLeave :
    (Issues stHead (issuing (at1 0x1008)) placedKey (at1 0x1008 placedLine) ∧ (issuing (at1 0x1008)).memBusy placedKey (at1 0x1008 placedLine) = false ∧
      translatesTo (issuing (at1 0x1008)) (at1 0x1008 placedLine) .write (effAddr 0x1008 0) 8 = .ok (rangeFrom 0x1008 8, coh 8)) ∧
    (Issues stHead (issuing (at1 0x1004)) placedKey (at1 0x1004 placedLine) ∧ (effAddr 0x1004 0).toNat % 8 ≠ 0) ∧
    (Issues stHead (blocked (at1 0x1008)) placedKey (at1 0x1008 placedLine) ∧ (blocked (at1 0x1008)).memBusy placedKey (at1 0x1008 placedLine) = true) ∧
    (Issues (headOf (.stRel g0 .b64 .pkg (rg 1) (rg 2) 0) g0 6 0) (issuing (at1 0x90000)) placedKey (at1 0x90000 placedLine) ∧
      translatesTo (issuing (at1 0x90000)) (at1 0x90000 placedLine) .write (effAddr 0x90000 0) 8 = .error (.translation, 0x90000)) ∧
    (Issues (headOf (.stv g0 (rg 1) (rg 2) 0) g0 0x0E 0) (issuing (at1 0x1010)) placedKey (at1 0x1010 placedLine) ∧ (effAddr 0x1010 0).toNat % 16 = 0) ∧
    (Issues sttHead (issuing (at1 0xA000000000001000)) placedKey (at1 0xA000000000001000 placedLine) ∧
      ¬ (0xA000000000001000 : Word).toNat / 2 ^ 60 = 0 ∧
      translatesTo (issuing (at1 0xA000000000001000)) (at1 0xA000000000001000 placedLine) .write 0x1000 3 = .ok (rangeFrom 0x1000 3, coh 3)) :=
  ⟨wit (by decide) (by decide), wit (by decide) (by decide), wit (by decide) (by decide), wit (by decide) (by decide), wit (by decide) (by decide),
    wit (by decide) (by decide)⟩
/-- A supervisor page that a user may not write: a permission fault. -/
theorem witness_StoresLeave_permission :
    let f := setSt (fun t => { t with priv := 0 }) ∘ at1 0x50000
    Issues stHead (issuing f) placedKey (f placedLine) ∧ translatesTo (issuing f) (f placedLine) .write (effAddr 0x50000 0) 8 = .error (.permission, 0x50000) :=
  wit (by decide) (by decide)
/-- A page of another cluster, to which a store moves its context; and an STT on each of the two. -/
theorem witness_StoresLeave_faults :
    (Issues stHead (issuing (at1 0x30000)) placedKey (at1 0x30000 placedLine) ∧
      translatesTo (issuing (at1 0x30000)) (at1 0x30000 placedLine) .write (effAddr 0x30000 0) 8 = .error (.remote 1, 0x30000)) ∧
    (Issues sttHead (issuing (at1 0xA000000000030000)) placedKey (at1 0xA000000000030000 placedLine) ∧
      translatesTo (issuing (at1 0xA000000000030000)) (at1 0xA000000000030000 placedLine) .write 0x30000 3 = .error (.remote 1, 0x30000)) ∧
    (Issues sttHead (issuing (at1 0x2000000000090000)) placedKey (at1 0x2000000000090000 placedLine) ∧
      translatesTo (issuing (at1 0x2000000000090000)) (at1 0x2000000000090000 placedLine) .write 0x90000 2 = .error (.translation, 0x90000)) :=
  ⟨wit (by decide) (by decide), wit (by decide) (by decide), wit (by decide) (by decide)⟩

/-- A store on its way: eight bytes at 0x10000. -/
def oneStore (swc : Bool) : Store :=
  { who := placedKey * 2 ^ 14 + 1, seq := 3, asid := 0, cluster := 0, swc := List.replicate 8 swc, rel := false, scope := .ctx, tags := [], pas := rangeFrom 0x10000 8
    bytes := leBytes 8 0x0102, mask := List.replicate 8 0xFF }
/-- The test machine with stores on their way. -/
def storing (l : List Store) : State := { issuing id with mem := { (issuing id).mem with stores := l } }
/-- The first of them has come to its slice. -/
def arrived (s : State) : State :=
  { s with fab := { s.fab with sent := (s.mem.stores.map fun x => (s.storeRequest x).id).zip [{ left := 0, way := [0], arrived := true }] } }
theorem witness_StorePerformed : (∀ b, let s := storing [oneStore b]
      nth? s.mem.stores 0 = some (oneStore b) ∧ s.canDrain (oneStore b) = true ∧ (arrived s).canDrain (oneStore b) = true ∧
      (∀ pa ∈ (oneStore b).pas, pa < s.mgmt.ptBase) ∧ (s.storeRequest (oneStore b)).src = 0 ∧ s.mayPerform (s.storeRequest (oneStore b)) = false ∧
      (∀ pa ∈ (oneStore b).pas, ((storing [oneStore b]).seenBy 3).homeGone pa = false ∧ (storing [oneStore b]).lineAt pa = none)) ∧
    Memory.wf (storing [oneStore false]).mem.bytes = true ∧ (oneStore true).pas.Nodup ∧ (oneStore true).bytes.length = (oneStore true).pas.length ∧
    (oneStore true).mask.length = (oneStore true).pas.length ∧
    (storing [oneStore false, { oneStore false with seq := 4 }]).canDrain { oneStore false with seq := 4 } = false := by decide +kernel
/-- No store has gone to another die's copy. -/
theorem witness_StorePerformed_here (b : Bool) : StoresHere (storing [oneStore b]) (oneStore b).who 0 (oneStore b).pas := fun _ _ _ h => nomatch h
theorem witness_StorePerformed_fabric : (∀ b, (storing [oneStore b]).portGone 0 ((storing [oneStore b]).storeRequest (oneStore b)).dst = false) ∧
    (arrived (storing [oneStore false])).mayPerform ((arrived (storing [oneStore false])).storeRequest (oneStore false)) = true := by
  refine ⟨fun b => ?_, performs (d := 0) (f := { left := 0, way := [0], arrived := true }) (by decide +kernel) rfl (by decide +kernel) (by decide +kernel) rfl (by decide +kernel) ?_ rfl rfl⟩
  · cases b <;> exact (congrArg (fun x => (storing []).dieGone 0 || (storing []).dieGone x) (slice_die 0 _)).trans (by decide)
  · exact (congrArg (fun x => (storing []).way x 0) (slice_die 0 _)).trans (by decide)

/-- A load or atomic of the placed context in flight at 0x10000. -/
def inFlight (k : AccessKind) (pas : Option (List Nat)) : Access :=
  { kind := k, va := 0x10000, pc := 0x1000, word := 0, asid := 0, priv := 3, cluster := 0, acq := false, rel := false, scope := .ctx, pas := pas, swc := []
    tags := [], merged := [] }
/-- Its place among the results in flight. -/
def pendOf (a : Access) : Pending := { line := placedKey, clear := 8, what := .access a, wake := false, tag := none, seq := 3 }
/-- The test machine with results in flight. -/
def flying (l : List Pending) : State := { issuing id with fl := { (issuing id).fl with pend := l } }
theorem witness_AccessesLand :
    (let a := inFlight (.ld .s8) (some [0x10007])
     let s := flying [pendOf a]
     nth? s.fl.pend 0 = some (pendOf a) ∧ s.canPerform (pendOf a) a = true ∧ (∀ x ∈ s.mem.stores, x.who ≠ s.nameOf placedKey) ∧ (∀ pa ∈ [0x10007], pa / 128 ≠ placedKey) ∧
       SMap.get? s.ctx.lines placedKey = some placedLine ∧ placedLine.lost = 0 ∧ placedLine.c.st.state = .running ∧ (pendOf a).clear = regMask 3) ∧
    (let a := inFlight (.amo .add true 1 0) (some (rangeFrom 0x10000 8))
     let s := flying [pendOf a]
     s.canPerform (pendOf a) a = true ∧ Memory.wf s.mem.bytes = true ∧ (rangeFrom 0x10000 8).Nodup ∧ (rangeFrom 0x10000 8).length = 8 ∧
       (∀ pa ∈ rangeFrom 0x10000 8, s.lineAt pa = none)) := by decide +kernel

/-- The heads of AMO and LD.acq. -/
def amoHead : Head := headLong (.amo g0 0 .add true .acqRel .pkg 3 (rg 1) (rg 2)) g0 0 0x0E 0
def acqHead : Head := headWait (.ldAcq g0 .u64 .cl 3 (rg 1) 8) g0 0x0A 0
theorem witness_AtomicsAndAcquiresIssue :
    (Issues amoHead (issuing (at1 0x1008)) placedKey (at1 0x1008 placedLine) ∧ (issuing (at1 0x1008)).memBusy placedKey (at1 0x1008 placedLine) = false ∧
      translatesTo (issuing (at1 0x1008)) (at1 0x1008 placedLine) .write (effAddr 0x1008 0) 8 = .ok (rangeFrom 0x1008 8, coh 8)) ∧
    (Issues amoHead (issuing (at1 0x1004)) placedKey (at1 0x1004 placedLine) ∧ (effAddr 0x1004 0).toNat % 8 ≠ 0) ∧
    (Issues amoHead (issuing (at1 0x90000)) placedKey (at1 0x90000 placedLine) ∧
      translatesTo (issuing (at1 0x90000)) (at1 0x90000 placedLine) .write (effAddr 0x90000 0) 8 = .error (.translation, 0x90000)) ∧
    (Issues acqHead (issuing (at1 0x1000)) placedKey (at1 0x1000 placedLine) ∧
      translatesTo (issuing (at1 0x1000)) (at1 0x1000 placedLine) .read (effAddr 0x1000 8) 8 = .ok (rangeFrom 0x1008 8, coh 8)) ∧
    (Issues acqHead (issuing (at1 0x90000)) placedKey (at1 0x90000 placedLine) ∧
      translatesTo (issuing (at1 0x90000)) (at1 0x90000 placedLine) .read (effAddr 0x90000 8) 8 = .error (.translation, 0x90008)) ∧
    (Issues acqHead (issuing (at1 0x30000)) placedKey (at1 0x30000 placedLine) ∧
      translatesTo (issuing (at1 0x30000)) (at1 0x30000 placedLine) .read (effAddr 0x30000 8) 8 = .error (.remote 1, 0x30008)) ∧
    (Issues amoHead (issuing (at1 0x30000)) placedKey (at1 0x30000 placedLine) ∧
      translatesTo (issuing (at1 0x30000)) (at1 0x30000 placedLine) .write (effAddr 0x30000 0) 8 = .error (.remote 1, 0x30000)) ∧
    (Issues acqHead (issuing (at1 0x1001)) placedKey (at1 0x1001 placedLine) ∧ (effAddr 0x1001 8).toNat % loadBytes .u64 ≠ 0) :=
  ⟨wit (by decide) (by decide), wit (by decide) (by decide), wit (by decide) (by decide),
    wit (by decide) (by decide), wit (by decide) (by decide), wit (by decide) (by decide), wit (by decide) (by decide), wit (by decide) (by decide)⟩

/-- g1 and g2 hold values. -/
def twoR (x y : Word) : Line → Line := setR 2 y ∘ setR 1 x
/-- The head of TLBINV of a range. -/
def tlbHead : Head := headSuper (.tlbinvRange g0 .pkg (rg 1) (rg 2)) g0 6 0
theorem witness_OrderingsAndRangesIssue :
    (∀ h ∈ [headWait (.fence g0 .none .sys) g0 0 0, headEventWait (.fenceEv g0) g0 0 0, headSuper (.tlbinvAll g0 .pkg) g0 0 0, headWait (.maskclr g0) g0 0 0,
      headOf (.pref g0 true (rg 1) 0) g0 2 0, headWait (.clean g0 .cl 1 2) g0 6 0, headWait (.inv g0 .die 1 2) g0 6 0, headWait (.discard g0 .pkg 1 2) g0 6 0, tlbHead],
      Issues h (issuing id) placedKey placedLine) ∧ (placedLine.c.src (rg 2)).toNat = 0 ∧
    (Issues tlbHead (issuing (twoR 0x1FFFFFFFFFFFFFF 1)) placedKey (twoR 0x1FFFFFFFFFFFFFF 1 placedLine) ∧ 0x1FFFFFFFFFFFFFF + 1 ≤ 2 ^ 57 ∧ (1 : Nat) ≠ 0) ∧
    (Issues tlbHead (issuing (twoR 0x1FFFFFFFFFFFFFF 2)) placedKey (twoR 0x1FFFFFFFFFFFFFF 2 placedLine) ∧ 0x1FFFFFFFFFFFFFF + 2 > 2 ^ 57) ∧
    (Issues (headWait (.discard g0 .pkg 1 2) g0 6 0) (issuing (twoR 0x1000 64)) placedKey (twoR 0x1000 64 placedLine) ∧ 64 % 128 ≠ 0) ∧
    (Issues (headWait (.discard g0 .pkg 1 2) g0 6 0) (issuing (twoR 0x1000 128)) placedKey (twoR 0x1000 128 placedLine) ∧ 0x1000 + 128 ≤ 2 ^ 57) ∧
    (Issues (headWait (.clean g0 .cl 1 2) g0 6 0) (issuing (twoR 1 (-1))) placedKey (twoR 1 (-1) placedLine) ∧ 1 + (-1 : Word).toNat > 2 ^ 57) :=
  ⟨all_issue (by decide), by decide, wit (by decide) (by decide), wit (by decide) (by decide), wit (by decide) (by decide), wit (by decide) (by decide),
    wit (by decide) (by decide)⟩

/-! ### Messages, tasks and the context itself -/

/-- An entry of a send buffer. -/
def anEntry (n : Nat) (w : SendWhat) : SendEntry :=
  { id := n, what := w, line := some placedKey, asid := 0, pc := 0x1000, tags := [], hold := none, merged := [] }
/-- The test machine with entries in the send buffer of cluster 0. -/
def sending (l : List SendEntry) (f : Line → Line) : State := { issuing f with fl := { (issuing f).fl with sends := [(0, l)] } }
/-- The heads of SEND and DEP. -/
def sendHead : Head := headWait (.send g0 3 (rg 1) (tk 4)) g0 0xF2 0xF0
def depHead : Head := headWait (.dep g0 3 (rg 1) (rg 2)) g0 6 0
/-- The head of RECV. -/
def recvHead : Head := headWait (.recv g0 4) g0 (quadMask 4) 0
/-- The heads of QRED and RGET. -/
def qredHead : Head := headLong (.qred g0 0 .i64 6 5) g0 0 0x60 0
def rgetHead : Head := headLong (.rget g0 2 6 2 3 (rg 1) (rg 2)) g0 2 0x0E 0
/-- The head of a request to a bank. -/
def bankHead (i : Instr) (n : BitVec 8) : Head := { headWait i g0 n 0 with profile := .n1 }
/-- The head of EVCFG. -/
def cfgHead (clr : Bool) : Head := bankHead (if clr then .evcfgClr g0 4 (rg 1) (rg 2) else .evcfg g0 4 (rg 1) (rg 2)) 0x16
theorem witness_MessagesIssue_send :
    (Issues sendHead (issuing (setSt fun t => { t with full := 0xF0 })) placedKey (setSt (fun t => { t with full := 0xF0 }) placedLine) ∧
      ((issuing id).sendsOf 0).length < 64) ∧
    (Issues depHead (sending (List.replicate 64 (anEntry 1 (.dep 0 0 0))) id) placedKey placedLine ∧
      ((sending (List.replicate 64 (anEntry 1 (.dep 0 0 0))) id).sendsOf 0).length ≥ 64) ∧
    (issuing (setSt fun t => { t with full := 0xF0 })).orderBusy placedKey (setSt (fun t => { t with full := 0xF0 }) placedLine) = false ∧
    (sending (List.replicate 64 (anEntry 1 (.dep 0 0 0))) id).orderBusy placedKey placedLine = false ∧
    (∀ h ∈ [depHead, recvHead, qredHead, cfgHead true], Issues h (acquiring id) placedKey placedLine) ∧ (acquiring id).orderBusy placedKey placedLine = true :=
  ⟨wit (by decide) (by decide), wit (by decide) (by decide), by decide, by decide, all_issue (by decide), by decide⟩
/-- An inbox at this address with n messages. -/
def inbox (base : BitVec 48) (n : BitVec 5) : Line → Line := Line.onCtx fun c => { c with inboxBase := base, inboxCount := n }
theorem witness_MessagesIssue_recv :
    (Issues recvHead (issuing id) placedKey placedLine ∧ placedLine.c.inboxCount = 0) ∧
    (Issues recvHead (issuing (inbox 0x80 16)) placedKey (inbox 0x80 16 placedLine) ∧
      (issuing (inbox 0x80 16)).transBytes 0 0 3 .engine .read 0x10000 32 = .ok (rangeFrom 0x10000 32, coh 32) ∧
      (issuing (inbox 0x80 16)).poisoned (rangeFrom 0x10000 32) = false ∧
      (issuing (inbox 0x80 16)).orderBusy placedKey (inbox 0x80 16 placedLine) = false) ∧
    (Issues recvHead (issuing (inbox 0x48 1)) placedKey (inbox 0x48 1 placedLine) ∧
      (issuing (inbox 0x48 1)).transBytes 0 0 3 .engine .read 0x90000 32 = .error (.translation, 0x90000)) :=
  ⟨wit (by decide) (by decide), wit (by decide) (by decide), wit (by decide) (by decide)⟩
/-- A reduction of the placed context. -/
def aReduction (n : Nat) : Reduction := { line := placedKey, kind := .i64, acc := 0, cnt := n, dreg := 6, areg := 5, pc := 0x1000, word := 0, seq := 1 }
/-- The test machine with a reduction. -/
def reducing (n : Nat) (f : Line → Line) : State := { issuing f with fl := { (issuing f).fl with reds := [aReduction n] } }
theorem witness_MessagesIssue_reductions : Issues qredHead (issuing id) placedKey placedLine ∧ (issuing id).orderBusy placedKey placedLine = false ∧ (∀ z ∈ (issuing id).fl.reds, z.line ≠ placedKey) ∧
    (Issues qredHead (reducing 1 id) placedKey placedLine ∧ ∃ z ∈ (reducing 1 id).fl.reds, z.line = placedKey) ∧
    Issues rgetHead (issuing id) placedKey placedLine := by
  refine ⟨issues_of (by decide), by decide, by decide, wit (by decide) ⟨_, List.mem_singleton.2 rfl, rfl⟩, issues_of (by decide)⟩

/-- The test machine whose pool of ASID 0 at cluster 0 is in use, its stack at 0x10000, with line number 0x21 on top. -/
def pooled (f : Line → Line) : State :=
  let s := issuing f
  let e := s.poolEntry 0 0
  { s with mem := { s.mem with bytes := [(0x10000, 0x21), (e + 2, 1), (e + 7, 0x80), (e + 24, 1)] } }
/-- The head of SPAWN. -/
def spawnHead : Head := headWait (.spawn g0 5 (rg 1) (rg 2)) g0 (names3 5 (rg 1) (rg 2) ||| 0x0F) 0
theorem witness_TasksIssue_spawn :
    (Issues spawnHead (issuing (twoR 192 0)) placedKey (twoR 192 0 placedLine) ∧ (192 : Word) ≠ BitVec.allOnes 64 ∧ 192 ≤ (192 : Word).toNat) ∧
    (Issues spawnHead (issuing (twoR 191 4)) placedKey (twoR 191 4 placedLine) ∧ (191 : Word).toNat < 192 ∧ (4 : Word).toNat % 8 ≠ 0) ∧
    (Issues spawnHead (issuing id) placedKey placedLine ∧ (issuing id).clusterGone 0 = false ∧ (issuing id).poolPeek 0 0 = none) ∧
    (Issues spawnHead { issuing (twoR 9 8) with mgmt := { (issuing id).mgmt with mapped := [9] } } placedKey (twoR 9 8 placedLine) ∧
      ({ issuing (twoR 9 8) with mgmt := { (issuing id).mgmt with mapped := [9] } } : State).clusterGone 9 = true) :=
  ⟨wit (by decide) (by decide), wit (by decide) (by decide), wit (by decide) (by decide), wit (by decide) (by decide)⟩
theorem witness_TasksIssue_spawn_makes : Issues spawnHead (pooled id) placedKey placedLine ∧ (pooled id).poolPeek 0 0 = some (0x21, 0x21) ∧
    Memory.wf (pooled id).mem.bytes = true ∧ (∀ n < 4, ((pooled id).poolEntry 0 0 + 24 + n) / 128 ≠ 0x21) := wit (by decide +kernel) (by decide +kernel)
/-- The heads of QUIT and MIG. -/
def quitHead (done : Bool) : Head := headWait (if done then .quitDone g0 else .quit g0) g0 0 0
def migHead : Head := headWait (.mig g0 (rg 1)) g0 2 0
theorem witness_TasksIssue_quit :
    (Issues (quitHead true) (issuing (setSt fun t => { t with pend := 1, larem := 1 })) placedKey (setSt (fun t => { t with pend := 1, larem := 1 }) placedLine) ∧
      (1 : BitVec 8) ≠ 0) ∧
    (Issues (quitHead false) (sending [anEntry 1 (.dep 0 0 0)] id) placedKey placedLine ∧ (sending [anEntry 1 (.dep 0 0 0)] id).unacked placedKey = true) ∧
    (Issues (quitHead false) (issuing id) placedKey placedLine ∧ placedLine.c.st.pend = 0 ∧ (issuing id).unacked placedKey = false ∧
      Memory.wf (issuing id).mem.bytes = true ∧ SMap.risingFrom 0 (issuing id).ctx.lines = true ∧
      ((issuing id).readWord ((issuing id).poolEntry 0 0)).getLsbD 63 = false ∧ (∀ n < 8, ((issuing id).poolEntry 0 0 + n) / 128 ≠ placedKey)) :=
  ⟨wit (by decide) (by decide), wit (by decide) (by decide), wit (by decide) (by decide)⟩
theorem witness_TasksIssue_mig :
    (Issues migHead (issuing (at1 192)) placedKey (at1 192 placedLine) ∧ 192 ≤ (192 : Word).toNat) ∧
    (Issues migHead (issuing id) placedKey placedLine ∧ (placedLine.c.src (rg 1)).toNat = placedLine.c.here) ∧
    (Issues migHead { issuing (at1 9) with mgmt := { (issuing id).mgmt with mapped := [9] } } placedKey (at1 9 placedLine) ∧
      ({ issuing (at1 9) with mgmt := { (issuing id).mgmt with mapped := [9] } } : State).clusterGone 9 = true) ∧
    (Issues migHead (issuing (at1 9)) placedKey (at1 9 placedLine) ∧ (issuing (at1 9)).clusterGone 9 = false ∧ (issuing (at1 9)).unacked placedKey = false ∧
      (∀ z ∈ (issuing (at1 9)).fl.reds, z.line ≠ placedKey)) ∧
    (Issues migHead (sending [anEntry 1 (.dep 0 0 0)] (at1 9)) placedKey (at1 9 placedLine) ∧ (sending [anEntry 1 (.dep 0 0 0)] (at1 9)).unacked placedKey = true) :=
  ⟨wit (by decide) (by decide), wit (by decide) (by decide), wit (by decide) (by decide), wit (by decide) (by decide), wit (by decide) (by decide)⟩
theorem witness_OwnFacts : ∀ h ∈ [SelfFact.handle, .ident, .loc, .inbox].map (fun r => headOf (.self g0 r 2) g0 (regMask 2) 0) ++
      [headOf (.fset g0 0x24) g0 0x24 0, headOf (.fclr g0 0x81) g0 0x81 0, headOf (.time g0 6) g0 (regMask 6) 0],
    Issues h (issuing id) placedKey placedLine := all_issue (by decide)

/-! ### Events, engine queues, handle tables -/

/-- The head of EVSND and EVARM. -/
def evHead (i : Instr) : Head := { headOf i g0 0x0E 0 with profile := .n1 }
theorem witness_EventsIssue :
    (∀ h ∈ [evHead (.evsnd g0 true (rg 1) (rg 2) (rg 3)), evHead (.evarm g0 false (rg 1) (rg 2) (rg 3)), bankHead (.evstep g0 4 (rg 1) (rg 2)) 0x16,
      bankHead (.evwr g0 4 (rg 1) (rg 2)) 0x16, bankHead (.evrdMem g0 4 (rg 1)) 0x12, bankHead (.evrdStep g0 4 (rg 1)) 0x12, bankHead (.evrdLate g0 4 (rg 1)) 0x12],
      Issues h (issuing id) placedKey placedLine) ∧ ((issuing id).sendsOf 0).length < 64 ∧
    (Issues (evHead (.evsnd g0 true (rg 1) (rg 2) (rg 3))) (sending (List.replicate 64 (anEntry 1 (.dep 0 0 0))) id) placedKey placedLine ∧
      ((sending (List.replicate 64 (anEntry 1 (.dep 0 0 0))) id).sendsOf 0).length ≥ 64) :=
  ⟨all_issue (by decide), by decide, wit (by decide) (by decide)⟩
theorem witness_EventsIssue_configure :
    (Issues (cfgHead true) (issuing (twoR 0 0x1008)) placedKey (twoR 0 0x1008 placedLine) ∧ 0x1008 % 32 ≠ 0) ∧
    (Issues (cfgHead false) (issuing (twoR 0 0x90000)) placedKey (twoR 0 0x90000 placedLine) ∧
      (issuing (twoR 0 0x90000)).transBytes 0 0 3 .engine .read 0x90000 32 = .error (.translation, 0x90000)) ∧
    (Issues (cfgHead true) (issuing (twoR 0 0x1020)) placedKey (twoR 0 0x1020 placedLine) ∧
      (issuing (twoR 0 0x1020)).transBytes 0 0 3 .engine .read 0x1020 32 = .ok (rangeFrom 0x1020 32, coh 32) ∧
      (issuing (twoR 0 0x1020)).poisonedAt 0 (coh 32) (rangeFrom 0x1020 32) = false ∧
      (issuing (twoR 0 0x1020)).orderBusy placedKey placedLine = false ∧ (rangeFrom 0x1020 32).any (issuing (twoR 0 0x1020)).homeGone = false ∧
      (∀ x ∈ (issuing (twoR 0 0x1020)).mem.stores, x.who ≠ ctxName placedKey placedLine)) ∧
    (let s : State := { issuing (twoR 0 0x1020) with mem := { (issuing id).mem with poison := [0x1020 / 64] } }
     Issues (cfgHead false) s placedKey (twoR 0 0x1020 placedLine) ∧ s.poisonedAt 0 (coh 32) (rangeFrom 0x1020 32) = true) :=
  ⟨wit (by decide) (by decide), wit (by decide) (by decide), wit (by decide) (by decide), wit (by decide) (by decide)⟩

/-- The heads of POST and POSTW, of TALLOC, TFREE and TINFO. -/
def postHead : Head := { headLong (.post g0 2 true 5 (rg 0)) g0 2 0x2F 0 with profile := .e1 }
def postwHead : Head := { headWait (.postw g0 false 6 (rg 0)) g0 0x4F 0 with profile := .e1 }
def tableHead (i : Instr) (n : BitVec 8) : Head := { headWait i g0 n 0 with profile := .e1 }
theorem witness_EngineWordsIssue :
    (∀ h ∈ [postHead, postwHead, tableHead (.talloc g0 3 (rg 1) (rg 2)) 0x0E, tableHead (.tfree g0 3 (rg 1)) 0x0A, tableHead (.tinfo g0 3 (rg 1)) 0x0A],
      Issues h (issuing id) placedKey placedLine) ∧ ((issuing id).sendsOf 0).length < 64 ∧
    (Issues (tableHead (.talloc g0 3 (rg 1) (rg 2)) 0x0E) (issuing (twoR 0 192)) placedKey (twoR 0 192 placedLine) ∧ 192 ≤ (192 : Word).toNat ∧
      (192 : Word) ≠ BitVec.allOnes 64) ∧
    (Issues postwHead (sending (List.replicate 64 (anEntry 1 (.dep 0 0 0))) id) placedKey placedLine ∧
      ((sending (List.replicate 64 (anEntry 1 (.dep 0 0 0))) id).sendsOf 0).length ≥ 64) :=
  ⟨all_issue (by decide), by decide, wit (by decide) (by decide), wit (by decide) (by decide)⟩

/-! ### Control registers and system instructions -/

theorem witness_ControlRegisters : (∀ r ∈ csrTable, csrOf r.1 = some r.2.1 ∧
      Issues (headCsr (.csrr g0 3 r.1) g0 r.1 false (regMask 3) 0) (issuing id) placedKey placedLine ∧
      (r.2.2.2.isSome = true → Issues (headCsr (.csrw g0 3 (rg 1) r.1) g0 r.1 true 0x0A 0) (issuing id) placedKey placedLine ∧
        Issues (headCsr (.csrs g0 3 (rg 1) r.1) g0 r.1 true 0x0A 0) (issuing id) placedKey placedLine ∧
        Issues (headCsr (.csrc g0 3 (rg 1) r.1) g0 r.1 true 0x0A 0) (issuing id) placedKey placedLine)) ∧
    SMap.risingFrom 0 (issuing id).ctx.limits = true := by
  refine ⟨fun r hr => ?_, by decide⟩
  have b : csrTable.all (fun r => csrOf r.1 == some r.2.1 && issuesB (headCsr (.csrr g0 3 r.1) g0 r.1 false (regMask 3) 0) (issuing id) placedLine &&
      (!r.2.2.2.isSome || issuesB (headCsr (.csrw g0 3 (rg 1) r.1) g0 r.1 true 0x0A 0) (issuing id) placedLine &&
        issuesB (headCsr (.csrs g0 3 (rg 1) r.1) g0 r.1 true 0x0A 0) (issuing id) placedLine &&
        issuesB (headCsr (.csrc g0 3 (rg 1) r.1) g0 r.1 true 0x0A 0) (issuing id) placedLine)) = true := by decide +kernel
  have := List.all_eq_true.1 b r hr
  simp only [Bool.and_eq_true, beq_iff_eq, Bool.or_eq_true, Bool.not_eq_true'] at this
  refine ⟨this.1.1, issues_of this.1.2, fun h => ?_⟩
  rcases this.2 with n | y
  · simp [h] at n
  · exact ⟨issues_of y.1.1, issues_of y.1.2, issues_of y.2⟩

/-- A head of supervisor level. -/
def upHead (i : Instr) : Head := { headWait i g0 0x0A 0 with level := 1 }
/-- The handle of the placed context. -/
def ownHandle : Word := 1 * 2 ^ 50 + 0x40
theorem witness_SystemRequests : (∀ h ∈ [upHead (.resume g0 3 (rg 1)), upHead (.evictL2 g0 3 (rg 1)), upHead (.evictMem g0 3 (rg 1)), upHead (.launch g0 3 (rg 1)),
      upHead (.cancelLaunch g0 3 (rg 1)), upHead (.cancelJob g0 3 (rg 1))], Issues h (issuing id) placedKey placedLine) ∧
    (issuing id).isSelf placedKey placedLine 0 = false ∧ (∀ x ∈ (issuing id).mem.stores, x.who ≠ ctxName placedKey placedLine) ∧
    (issuing id).orderBusy placedKey placedLine = false ∧
    (Issues (upHead (.launch g0 3 (rg 1))) (issuing (at1 0x1040)) placedKey (at1 0x1040 placedLine) ∧ 0x1040 % 128 ≠ 0) ∧
    (Issues (upHead (.launch g0 3 (rg 1))) (storing [oneStore false]) placedKey placedLine ∧ ∃ x ∈ (storing [oneStore false]).mem.stores, x.who = ctxName placedKey placedLine) ∧
    (Issues (upHead (.launch g0 3 (rg 1))) (issuing (at1 0x90000)) placedKey (at1 0x90000 placedLine) ∧
      ∃ r, (issuing (at1 0x90000)).nextSeq.launchFate (at1 0x90000 placedLine).c 0x90000 = .trap r) :=
  ⟨all_issue (by decide), by decide, by decide, by decide, wit (by decide) (by decide), wit (by decide) ⟨_, List.mem_singleton.2 rfl, rfl⟩, wit (by decide) ⟨_, rfl⟩⟩
/-- The test machine with a launch request at 0x10000: its maquette is at 0x10100 and has one node, of one instance with no dependence, whose entry is
0x1000 and whose arguments are at 0x10200. The byte x is added to the request's first. -/
def requesting (x : Nat) (f : Line → Line) : State :=
  let s := issuing f
  { s with
    mgmt := { s.mgmt with gtBase := 0x200000 }
    mem := { s.mem with bytes := (if x = 0 then [] else [(0x10000, BitVec.ofNat 8 x)]) ++ [(0x10001, 1), (0x10002, 1), (0x10008, 1), (0x10100, 1), (0x10141, 0x10),
      (0x10149, 2), (0x1014A, 1)] } }
theorem witness_SystemRequests_launch :
    (Issues (upHead (.launch g0 3 (rg 1))) (requesting 1 (at1 0x10000)) placedKey (at1 0x10000 placedLine) ∧
      (requesting 1 (at1 0x10000)).nextSeq.launchFate (at1 0x10000 placedLine).c 0x10000 = .status 1) ∧
    (Issues (upHead (.launch g0 3 (rg 1))) (requesting 0 (at1 0x10000)) placedKey (at1 0x10000 placedLine) ∧
      (match (requesting 0 (at1 0x10000)).nextSeq.launchFate (at1 0x10000 placedLine).c 0x10000 with
        | .plan p => (requesting 0 id).isReady (p.own / 256 / 48) 3 && match (requesting 0 (at1 0x10000)).nextSeq.launchBuild (at1 0x10000 placedLine).c p with
          | .ok _ => true
          | .error _ => false
        | .status _ => false
        | .trap _ => false) = true) := ⟨wit (by decide) (by decide +kernel), wit (by decide) (by decide +kernel)⟩
/-- The same request with an accumulator of its job, at the event address 7. -/
def requestingJob (f : Line → Line) : State :=
  let s := requesting 0 f
  { s with mem := { s.mem with bytes := memSet s.mem.bytes 0x10018 7 } }
theorem witness_SystemRequests_job :
    Issues (upHead (.launch g0 3 (rg 1))) (requestingJob (at1 0x10000)) placedKey (at1 0x10000 placedLine) ∧
      (match (requestingJob (at1 0x10000)).nextSeq.launchFate (at1 0x10000 placedLine).c 0x10000 with
        | .plan p => decide (p.req.jobacc = 7) && match (requestingJob (at1 0x10000)).nextSeq.launchBuild (at1 0x10000 placedLine).c p with
          | .ok _ => true
          | .error _ => false
        | .status _ => false
        | .trap _ => false) = true := wit (by decide) (by decide +kernel)
/-- A LAUNCH of the placed context that waits for its job's event, whose identity is 7. -/
def aLaunchWait : LaunchWait := { line := placedKey, d := 3, cluster := 0, asid := 0, slot := 5, event := 7, time := 0, roots := [] }
theorem witness_SystemRequests_goesOn :
    nth? ({ issuing fun _ => waiter 3 with fl := { (issuing id).fl with launches := [aLaunchWait] } } : State).fl.launches 0 = some aLaunchWait ∧
    SMap.get? (issuing fun _ => waiter 3).ctx.lines placedKey = some (waiter 3) ∧ (waiter 3).lost = 0 ∧ (waiter 3).cancelled = false ∧
    (waiter 3).c.st.state = .waiting ∧ (waiter 3).c.waitKind = 3 ∧ (waiter 3).place = .slot 0 0 0 ∧ (issuing fun _ => waiter 3).fl.sends = [] ∧
    ∃ b ∈ (sending [anEntry 7 (.dep 0 0 0)] id).fl.sends, ∃ e ∈ b.2, e.id = aLaunchWait.event :=
  ⟨rfl, rfl, rfl, rfl, rfl, rfl, rfl, rfl, _, List.mem_singleton.2 rfl, _, List.mem_singleton.2 rfl, rfl⟩
theorem witness_SystemRequests_self :
    let s := issuing (at1 ownHandle)
    Issues (upHead (.evictMem g0 3 (rg 1))) s placedKey (at1 ownHandle placedLine) ∧ s.isSelf placedKey (at1 ownHandle placedLine) ownHandle = true ∧
      s.unacked placedKey = false ∧ (∀ z ∈ s.fl.reds, z.line ≠ placedKey) ∧ s.l2Count 0 < 2048 ∧ placedLine.place = .slot 0 0 0 :=
  wit (by decide +kernel) (by decide +kernel)
/-- A live launch of ASID 0 in slot 5, of job 3. -/
def aLaunch : Launch :=
  { asid := 0, job := 3, jobacc := 0, maq := 0, work := 0, group := 1, groups := [], insts := [], cancelled := false, byJob := false }
/-- The test machine with that launch. -/
def launched (f : Line → Line) : State := { issuing f with launch := { (issuing f).launch with table := [(5, aLaunch)] } }
theorem witness_SystemRequests_cancel :
    (Issues (upHead (.cancelLaunch g0 3 (rg 1))) (launched (at1 5)) placedKey (at1 5 placedLine) ∧ aLaunch.asid = placedLine.c.asid ∧ 5 = (5 : Word).toNat % 2 ^ 12) ∧
    (Issues (upHead (.cancelJob g0 3 (rg 1))) (launched (at1 3)) placedKey (at1 3 placedLine) ∧ aLaunch.job = (3 : Word).toNat % 2 ^ 16) ∧
    SMap.risingFrom 0 (launched id).launch.table = true := ⟨wit (by decide) (by decide), wit (by decide) (by decide), by decide⟩

end Sys2Proof.Tests
end

