-- ==== Sys2Proof/Tests/Witness3.lean ====
section
/-! SUPPORT. Engine commands that start: states that meet the hypotheses of the statements about them, with the status that the spec gives each. -/

set_option Elab.async false

open Sys2Proof Sys2Proof.Machine

namespace Sys2Proof.Tests

/-- A live tile of generation 1. -/
def aTile (fmt rows cols : Nat) : Tile :=
  { live := true, gen := 1, asid := 0, fmt := fmt, block := 0, pitch := 0, cols := cols, rows := rows, granules := [1], data := [], scales := [], bad := [] }
/-- Its scale blocks. -/
def scaled (block : Nat) (t : Tile) : Tile := { t with block := block }
/-- With elements. -/
def holding (l : List (Nat × Nat)) (t : Tile) : Tile := { t with data := l }
/-- With an uncorrectable unit. -/
def spoilt (t : Tile) : Tile := { t with bad := [0] }

/-- The handles of entries 1, 2 and 3 of cluster 0. -/
def hA : Nat := 0x1001
def hB : Nat := 0x2001
def hC : Nat := 0x3001

/-- A command word with CKIND 1. -/
def commandWord (cop ha hb hc ops : Nat) : BitVec 256 :=
  BitVec.ofNat 256 (cop * 2 ^ 248 + 2 ^ 244 + ha * 2 ^ 144 + hb * 2 ^ 112 + hc * 2 ^ 80 + ops)

/-- A case: the command, its tiles A, B and C, and the status with which it runs. -/
structure Case where
  cmd : BitVec 256
  a : Tile
  b : Tile
  d : Tile
  status : Nat

/-- The queue entry of a case. -/
def Case.entry (x : Case) : QEntry :=
  { id := 5, seq := 0, cmd := x.cmd, asid := 0, poster := none, slot := 0xFFF, tag := none, cancelled := false }

/-- The test machine with the case's command at the head of its queue in cluster 0, about to start. Its tiles are there, memory from 0x10000 holds a gang table of
one member, a descriptor at 0x10080 of 8 rows of 16 FP32 elements, owned by cluster 0, and its version record at 0x10100. -/
def Case.state (x : Case) : State :=
  let s := issuing id
  let q := queueOfCop (copOf x.cmd)
  { s with
    sched := { s.sched with cmd := some (0, q) }
    mem := { s.mem with bytes := [(0x10000, 0x01), (0x10001, 0x10), (0x10004, 0x01), (0x10005, 0x20), (0x10008, 0x01), (0x10009, 0x30), (0x10080, 8), (0x10088, 16), (0x1008A, 7),
      (0x1008B, 1), (0x10091, 1), (0x10092, 1), (0x10101, 0x20), (0x10102, 1), (0x10108, 64), (0x10110, 3)] }
    eng := { s.eng with queues := [(q, [x.entry])], tiles := [(1, x.a), (2, x.b), (3, x.d)] } }

/-- The tile that the checks of a case find for a handle. -/
def seenTile (u : HandleUse) (h : BitVec 32) (t : Tile) : Tile :=
  match u with
  | .any => t
  | .home => t
  | .orNone => if h = 0 then Tile.reset else t
  | .unused => Tile.reset
  | .data => Tile.reset

/-- The case starts, its shared checks pass, and it runs with its status. -/
def Case.runs (x : Case) : Bool :=
  let q := queueOfCop (copOf x.cmd)
  let c := cmdArgsOf x.cmd
  let u := usesOf (copOf x.cmd)
  match decodeCommand x.cmd with
  | none => false
  | some i =>
    x.state.mayStart 0 q x.entry && !reservedSet x.entry (copOf x.cmd) c && !opsReserved i &&
      x.state.checkTile 0 u.1 c.ha == .ok (seenTile u.1 c.ha x.a) && x.state.checkTile 0 u.2.1 c.hb == .ok (seenTile u.2.1 c.hb x.b) &&
      x.state.checkTile 0 u.2.2 c.hc == .ok (seenTile u.2.2 c.hc x.d) && !(misplaced 0 u.1 c.ha || misplaced 0 u.2.1 c.hb || misplaced 0 u.2.2 c.hc) &&
      match exec i x.state with
      | .next t => (t.runs 0 q).map (fun r => r.info.status) == [x.status]
      | .fault _ => false
      | .refused _ => false

/-- Such a case meets the hypotheses `Starting` and `Passes`. -/
theorem starts_of {x : Case} (b : x.runs = true) : ∃ i, decodeCommand x.cmd = some i ∧ Starting x.state 0 (queueOfCop (copOf x.cmd)) x.entry [] i ∧
    Passes x.state 0 x.entry i (seenTile (usesOf (copOf x.cmd)).1 (cmdArgsOf x.cmd).ha x.a) (seenTile (usesOf (copOf x.cmd)).2.1 (cmdArgsOf x.cmd).hb x.b)
      (seenTile (usesOf (copOf x.cmd)).2.2 (cmdArgsOf x.cmd).hc x.d) := by
  unfold Case.runs at b
  match hd : decodeCommand x.cmd with
  | none => simp [hd] at b
  | some i =>
    simp only [hd, Bool.and_eq_true, Bool.not_eq_true', beq_iff_eq] at b
    obtain ⟨⟨⟨⟨⟨⟨⟨h1, h2⟩, h3⟩, h4⟩, h5⟩, h6⟩, h7⟩, -⟩ := b
    refine ⟨i, rfl, ⟨rfl, ?_, h1, hd⟩, rfl, h2, h3, h4, h5, h6, h7⟩
    simp [Case.state, State.queue, SMap.getD, SMap.get?]

/-- FP32 and INT32 tiles of two rows. -/
def f22 : Tile := aTile 7 2 2
def i12 : Tile := holding [(0, 1), (1, 5)] (aTile 3 1 2)
/-- 1.0 in the first element. -/
def one22 : Tile := holding [(0, 0x3F800000)] f22

/-- R196: TLOAD and TSTORE: done; a format that is not the tile's, an address and a shape out of place; an address that does not translate. -/
theorem witness_CopyEngineStarts_transfers : ∀ x ∈ [(⟨commandWord 0x01 0x10000 0 hC 8, f22, f22, f22, 0⟩ : Case), ⟨commandWord 0x01 0x10000 0x50000000 hC 8, f22, f22, f22, 4⟩,
      ⟨commandWord 0x01 0x10002 0x70000000 hC 8, f22, f22, f22, 5⟩, ⟨commandWord 0x01 0x10000 0 hC (8 + 2 ^ 64), f22, f22, aTile 7 3 2, 6⟩,
      ⟨commandWord 0x01 0x90000 0 hC 8, f22, f22, f22, 7⟩, ⟨commandWord 0x02 hA 0x10000 0 8, f22, f22, f22, 0⟩, ⟨commandWord 0x02 hA 0x10000 0x50000000 8, f22, f22, f22, 4⟩,
      ⟨commandWord 0x01 0x10000 0 hC (1 + 2 ^ 72), f22, f22, scaled 3 (aTile 9 2 64), 0⟩,
      ⟨commandWord 0x01 0x1FFF8 0 hC (8 + 2 ^ 64), f22, f22, f22, 7⟩, ⟨commandWord 0x02 hA 0x1FFF8 0 (8 + 2 ^ 64), f22, f22, f22, 7⟩],
    x.runs = true := by decide +kernel
/-- The second row of the last two lies in no page; and memory that is not up yet. -/
theorem witness_CopyEngineStarts_later :
    let x : Case := ⟨commandWord 0x01 0x1FFF8 0 hC (8 + 2 ^ 64), f22, f22, f22, 7⟩
    let down : State := { x.state with mgmt := { x.state.mgmt with ready := 0x7C } }
    (match x.state.engRead 0 0 0x1FFF8 8, x.state.engRead 0 0 0x20000 8 with | .ok _, .error (n, _) => n == 7 | _, _ => false) = true ∧
    (match down.engRead 0 0 0x1FFF8 8 with | .error (n, _) => n == notYet | _ => false) = true ∧ down.mayStart 0 0 x.entry = true := by decide +kernel
/-- R197, R198: TCOPY, TGATHER, TSCADD, TFILL, TTRANS and EVSTREAM, done and with wrong formats and shapes; TFILL's pattern that does not fit. -/
theorem witness_CopyEngineStarts_moves : ∀ x ∈ [(⟨commandWord 0x03 hA 0 hC 0, one22, f22, f22, 0⟩ : Case), ⟨commandWord 0x03 hA 0 hC 0, aTile 5 2 2, f22, f22, 4⟩,
      ⟨commandWord 0x03 hA 0 hC 0, aTile 7 2 3, f22, f22, 6⟩, ⟨commandWord 0x04 hA hB hC 0, one22, i12, f22, 0⟩, ⟨commandWord 0x04 hA hB hC 0, one22, f22, f22, 4⟩,
      ⟨commandWord 0x04 hA hB hC 0, one22, aTile 3 1 1, f22, 6⟩, ⟨commandWord 0x05 hA hB hC 0, one22, i12, f22, 0⟩, ⟨commandWord 0x05 hA hB hC 0, aTile 3 2 2, i12, f22, 4⟩,
      ⟨commandWord 0x05 hA hB hC 0, aTile 7 3 2, i12, f22, 6⟩, ⟨commandWord 0x06 0 0 hC 0x3F800000, f22, f22, f22, 0⟩, ⟨commandWord 0x06 0 0 hC (2 ^ 32), f22, f22, f22, 2⟩,
      ⟨commandWord 0x06 0 0 hC (2 ^ 64), f22, f22, f22, 2⟩,
      ⟨commandWord 0x07 hA 0 hC 0, aTile 7 2 3, f22, aTile 7 3 2, 0⟩, ⟨commandWord 0x07 hA 0 hC 0, scaled 3 (aTile 9 2 3), f22, aTile 7 3 2, 4⟩,
      ⟨commandWord 0x07 hA 0 hC 0, f22, f22, aTile 7 3 2, 6⟩, ⟨commandWord 0x0A hA 0 0 0, aTile 3 2 2, f22, f22, 0⟩, ⟨commandWord 0x0A hA 0 0 0, f22, f22, f22, 4⟩,
      ⟨commandWord 0x0A hA 0 0 0, aTile 3 2 3, f22, f22, 6⟩],
    x.runs = true := by decide +kernel

/-- R205 to R210: done, with wrong formats, with wrong shapes, with uncorrectable data. -/
theorem witness_ElementwiseStarts_two : ∀ cop ∈ [0x42, 0x43, 0x44, 0x45], ∀ x ∈ [(⟨commandWord cop hA hB hC 0, one22, one22, f22, 0⟩ : Case),
      ⟨commandWord cop hA hB hC 1, one22, aTile 7 1 2, f22, 0⟩, ⟨commandWord cop hA hB hC 2, one22, aTile 7 2 1, f22, 0⟩, ⟨commandWord cop hA hB hC 0, aTile 4 2 2, one22, f22, 4⟩,
      ⟨commandWord cop hA hB hC 1, one22, one22, f22, 6⟩, ⟨commandWord cop hA hB hC 0, spoilt one22, one22, f22, 8⟩, ⟨commandWord cop hA hB hC 0, one22, spoilt one22, f22, 8⟩],
    x.runs = true := by decide +kernel
theorem witness_ElementwiseStarts_one : ∀ x ∈ [(⟨commandWord 0x46 hA 0 hC 0x3F800000, one22, f22, f22, 0⟩ : Case), ⟨commandWord 0x46 hA 0 hC 0, one22, f22, aTile 8 2 2, 4⟩,
      ⟨commandWord 0x46 hA 0 hC 0, one22, f22, aTile 7 2 3, 6⟩, ⟨commandWord 0x46 hA 0 hC 0, spoilt one22, f22, f22, 8⟩, ⟨commandWord 0x47 hA 0 hC 0, one22, f22, f22, 0⟩,
      ⟨commandWord 0x47 hA 0 hC (1 + 2 ^ 32), one22, f22, f22, 0⟩, ⟨commandWord 0x47 hA 0 hC 0, aTile 8 2 2, f22, f22, 4⟩, ⟨commandWord 0x47 hA 0 hC 0, one22, f22, aTile 7 3 2, 6⟩,
      ⟨commandWord 0x47 hA 0 hC 0, spoilt one22, f22, f22, 8⟩, ⟨commandWord 0x48 hA 0 hC 3, one22, f22, aTile 7 2 1, 0⟩, ⟨commandWord 0x48 hA 0 hC 0, one22, f22, aTile 5 2 1, 4⟩,
      ⟨commandWord 0x48 hA 0 hC 0, one22, f22, f22, 6⟩, ⟨commandWord 0x48 hA 0 hC 0, spoilt one22, f22, aTile 7 2 1, 8⟩, ⟨commandWord 0x49 hA 0 hC 0x3F800000, aTile 7 1 1, f22, aTile 7 1 1, 0⟩,
      ⟨commandWord 0x49 hA 0 hC 0, one22, f22, aTile 3 2 2, 4⟩, ⟨commandWord 0x49 hA 0 hC 0, one22, f22, aTile 7 2 3, 6⟩, ⟨commandWord 0x49 hA 0 hC 0, spoilt one22, f22, f22, 8⟩,
      ⟨commandWord 0x41 hA 0 hC 0, aTile 9 2 2, f22, f22, 0⟩, ⟨commandWord 0x41 hA 0 hC 0, aTile 7 2 2, f22, f22, 4⟩, ⟨commandWord 0x41 hA 0 hC 0, aTile 9 2 3, f22, f22, 6⟩,
      ⟨commandWord 0x41 hA 0 hC 0, spoilt (aTile 9 2 2), f22, f22, 8⟩],
    x.runs = true := by decide +kernel
theorem witness_ElementwiseStarts_quant : ∀ x ∈ [(⟨commandWord 0x40 hA 0 hC 0x7F800000, one22, f22, aTile 9 2 2, 0⟩ : Case),
      ⟨commandWord 0x40 hA hB hC 0x3F000000, one22, aTile 6 2 8, scaled 1 (aTile 9 2 2), 0⟩, ⟨commandWord 0x40 hA 0 hC 0x7F800000, one22, f22, f22, 4⟩,
      ⟨commandWord 0x40 hA 0 hC 0x7F800000, one22, f22, aTile 9 2 3, 6⟩, ⟨commandWord 0x40 hA 0 hC 0x7F800000, spoilt one22, f22, aTile 9 2 2, 8⟩],
    x.runs = true := by decide +kernel

/-- R202, R203: MMA in its three kinds of accumulation, and with wrong formats and shapes; MMAG with its table at 0x10000, at an address that is no multiple
of 16, at one that does not translate, and with a table that breaks its rules. -/
theorem witness_MatrixAndBagStarts_matrix : ∀ x ∈ [(⟨commandWord 0x20 hA hB hC (1 + 2 ^ 7 + 2 ^ 65), aTile 7 2 32, aTile 7 32 2, f22, 0⟩ : Case),
      ⟨commandWord 0x20 hA hB hC (1 + 2 ^ 7 + 2 ^ 14), aTile 1 2 64, aTile 1 64 2, aTile 3 2 2, 0⟩, ⟨commandWord 0x20 hA hB hC (1 + 2 ^ 7 + 2 ^ 14), aTile 9 2 64, aTile 10 64 2, f22, 0⟩,
      ⟨commandWord 0x20 hA hB hC 0, aTile 7 2 32, aTile 5 32 2, f22, 4⟩, ⟨commandWord 0x20 hA hB hC 0, aTile 7 2 31, aTile 7 32 2, f22, 6⟩,
      ⟨commandWord 0x20 hA hB hC 0, aTile 1 2 32, aTile 1 32 2, aTile 3 2 2, 6⟩,
      ⟨commandWord 0x21 0 0 hC (0x10000 + 2 ^ 65 + 2 ^ 72), aTile 7 2 32, aTile 7 32 2, f22, 0⟩, ⟨commandWord 0x21 0 0 hC 0x10008, aTile 7 2 32, aTile 7 32 2, f22, 5⟩,
      ⟨commandWord 0x21 0 0 hC 0x90000, aTile 7 2 32, aTile 7 32 2, f22, 7⟩, ⟨commandWord 0x21 0 0 hC 0x10100, aTile 7 2 32, aTile 7 32 2, f22, 11⟩,
      ⟨commandWord 0x21 0 0 hC 0x10000, aTile 7 2 32, aTile 3 32 2, f22, 4⟩],
    x.runs = true := by decide +kernel
/-- R199, R200: POOL and ROWADD, whose descriptor is at 0x10080 and whose version at 0x10100, and what ends them. -/
theorem witness_MatrixAndBagStarts_bags : ∀ x ∈ [(⟨commandWord 0x08 hA 0 hC (0x10080 / 128 * 2 ^ 7), aTile 3 1 1, f22, aTile 7 1 16, 0⟩ : Case),
      ⟨commandWord 0x08 hA 0 hC (0x10080 / 128 * 2 ^ 7), f22, f22, aTile 7 1 16, 4⟩, ⟨commandWord 0x08 hA 0 hC (0x10080 / 128 * 2 ^ 7 + 2 ^ 57), aTile 3 1 1, f22, aTile 7 1 16, 6⟩,
      ⟨commandWord 0x08 hA 0 hC (0x10080 / 128 * 2 ^ 7), aTile 3 1 1, f22, aTile 7 1 15, 6⟩, ⟨commandWord 0x08 hA 0 hC (0x10000 / 128 * 2 ^ 7), aTile 3 1 1, f22, aTile 7 1 16, 2⟩,
      ⟨commandWord 0x08 hA 0 hC (0x90000 / 128 * 2 ^ 7), aTile 3 1 1, f22, aTile 7 1 16, 7⟩, ⟨commandWord 0x09 hA 7 0 0x10080, aTile 7 1 16, f22, f22, 0⟩,
      ⟨commandWord 0x09 hA 7 0 0x10080, aTile 3 1 16, f22, f22, 4⟩, ⟨commandWord 0x09 hA 7 0 0x10040, aTile 7 1 16, f22, f22, 5⟩, ⟨commandWord 0x09 hA 8 0 0x10080, aTile 7 1 16, f22, f22, 6⟩],
    x.runs = true := by decide +kernel

/-- The shared checks: a discarded command, a field that must be zero, a stale handle, a lost cluster, a tile that is not at the home. -/
theorem witness_CommandChecks :
    (let x : Case := ⟨commandWord 0x42 hA hB hC 0, f22, f22, f22, 0⟩
     x.state.mayStart 0 2 { x.entry with cancelled := true } = true) ∧
    reservedSet (⟨commandWord 0x06 hA 0 hC 0, f22, f22, f22, 0⟩ : Case).entry 0x06 (cmdArgsOf (commandWord 0x06 hA 0 hC 0)) = true ∧
    (⟨commandWord 0x03 0x1002 0 hC 0, f22, f22, f22, 0⟩ : Case).state.checkTile 0 .any 0x1002 = .error 3 ∧
    (let x : Case := ⟨commandWord 0x03 0x09001001 0 hC 0, f22, f22, f22, 0⟩
     { x.state with mgmt := { x.state.mgmt with mapped := [9] } }.checkTile 0 .any 0x09001001 = .error 9) ∧
    misplaced 1 .home 0x1001 = true := by decide +kernel

end Sys2Proof.Tests
end

