-- ==== Sys2Proof/Tests/Witness4.lean ====
section
/-! SUPPORT. Steps of the device: states that meet the hypotheses of the statements about results, messages, owners and schedulers; the outcome that the
statement gives is shown beside them. -/

set_option Elab.async false

open Sys2Proof Sys2Proof.Machine

namespace Sys2Proof.Tests

/-- The step goes on. -/
def goes (i : Instr) (s : State) : Bool :=
  match exec i s with
  | .next _ => true
  | .fault _ => false
  | .refused _ => false

/-- The step does not happen yet. -/
def refuses (i : Instr) (s : State) : Bool :=
  match exec i s with
  | .refused _ => true
  | .next _ => false
  | .fault _ => false

/-- A second line, READY in the context L1 of issue unit 0 of cluster 0. -/
def second : Line :=
  Line.fresh { Ctx.zero with pc := 0x1000, gen := 1, launch := 0xFFF, st := { Status.zero with state := .ready, dies := 1 } } 0x41 (.l1 0 0)

/-- The test machine with both lines, and five tokens of ASID 0 at the port of cluster 0. -/
def scene (f g : Line → Line) : State :=
  let s := issuing f
  { s with
    ctx := { s.ctx with lines := [(64, f placedLine), (65, g second)] }
    fab := { s.fab with ports := [(0, { buckets := [(0, 5)], active := [], last := 4095, filled := 0 })] } }

/-- Nothing is lost, no CANCEL is there, and a waiting line holds its slot. -/
def quietB (l : Line) : Bool := l.lost == 0 && !l.cancelled && (l.c.st.state != .waiting || match l.place with
  | .slot _ _ _ => true
  | .l1 _ _ => false
  | .l2 _ => false
  | .arrival _ => false
  | .transit _ => false
  | .memory => false
  | .toSlot _ _ _ => false
  | .toL1 _ _ _ => false)

theorem quiet_of {l : Line} (b : quietB l = true) : Quiet l := by
  unfold quietB at b
  simp only [Bool.and_eq_true, beq_iff_eq, Bool.not_eq_true', Bool.or_eq_true, bne_iff_ne] at b
  refine ⟨b.1.1, b.1.2, fun h => ?_⟩
  rcases b.2 with n | y
  · exact absurd h n
  · match hp : l.place with
    | .slot c u s => exact ⟨c, u, s, rfl⟩
    | .l1 _ _ => simp [hp] at y
    | .l2 _ => simp [hp] at y
    | .arrival _ => simp [hp] at y
    | .transit _ => simp [hp] at y
    | .memory => simp [hp] at y
    | .toSlot _ _ _ => simp [hp] at y
    | .toL1 _ _ _ => simp [hp] at y

/-- The placed line WAITING with a kind in its slot. -/
def waits (k : BitVec 4) : Line → Line := setSt (fun t => { t with state := .waiting }) ∘ Line.onCtx fun c => { c with waitKind := k }

/-! ### Results -/

/-- A state with something in flight. -/
def inAir (s : State) (f : Flight → Flight) : State := { s with fl := f s.fl }
/-- A value on its way to g3 of the placed context. -/
def aValue : Pending := { line := 64, clear := 8, what := .value [(3, 7, BitVec.allOnes 64)] none, wake := false, tag := none, seq := 1 }
theorem witness_ResultsLand_value : quietB placedLine = true ∧ goes (.lineWrite 0) (inAir (scene id id) fun x => { x with pend := [aValue] }) = true ∧
    SMap.get? (scene id id).ctx.lines 64 = some placedLine := by decide +kernel
/-- A quotient on its way to g4. -/
def aQuotient : DivReq := { line := 64, d := 4, value := 7, cluster := 0, unit := 0, seq := 1 }
/-- An SFU queue with one request, a freed entry held since cycle 1, and unit 2 refused. -/
def sfuQueue : Sfu := { queue := [{ line := 64, writes := [(3, 7, BitVec.allOnes 64)], clear := 8, seq := 1 }], held := [(1, 1)], refused := [2] }
theorem witness_ResultsLand_units : goes (.divideComplete 0) (inAir (scene id id) fun x => { x with divs := [aQuotient] }) = true ∧
    goes (.sfuComplete 0) (inAir (scene id id) fun x => { x with sfu := [(0, sfuQueue)] }) = true ∧ 2 ∈ sfuQueue.refused ∧ 
    refuses (.sfuHoldExpire 0 0) (inAir (scene id id) fun x => { x with sfu := [(0, sfuQueue)] }) = true ∧
    goes (.sfuHoldExpire 0 0) { inAir (scene id id) (fun x => { x with sfu := [(0, sfuQueue)] }) with sched := { (scene id id).sched with cycle := 10 } } = true := by
  decide +kernel
/-- A reduction of the placed context with this count. -/
def aRed (n : Nat) : Reduction := { line := 64, kind := .i64, acc := 3, cnt := n, dreg := 6, areg := 5, pc := 0x1000, word := 0, seq := 1 }
/-- An inbox of n messages at 0x10000. -/
def boxed (n : BitVec 5) : Line → Line := Line.onCtx fun c => { c with inboxBase := 0x80, inboxCount := n }
theorem witness_ResultsLand_reducer : goes (.reducerPop 0) (inAir (scene id id) fun x => { x with reds := [aRed 0] }) = true ∧
    refuses (.reducerPop 0) (inAir (scene id id) fun x => { x with reds := [aRed 1] }) = true ∧
    goes (.reducerPop 0) (inAir (scene (boxed 1) id) fun x => { x with reds := [aRed 1] }) = true ∧
    (scene (boxed 1) id).transBytes 0 0 3 .engine .read 0x10000 32 = .ok (rangeFrom 0x10000 32, coh 32) ∧ (scene (boxed 1) id).poisoned (rangeFrom 0x10000 32) = false ∧
    quietB (boxed 1 placedLine) = true := by decide +kernel

/-- An access of the placed context in flight. -/
def anAccess (k : AccessKind) (va : VAddr) (pas : Option (List Nat)) : Access :=
  { kind := k, va := va, pc := 0x1000, word := 0, asid := 0, priv := 3, cluster := 0, acq := false, rel := false, scope := .ctx, pas := pas, swc := [], tags := []
    merged := [] }
/-- Its entry. -/
def held (n : Nat) (a : Access) : Pending := { line := 64, clear := 8, what := .access a, wake := false, tag := none, seq := n }
/-- The scene with accesses in flight. -/
def air (l : List Access) : State :=
  inAir (scene id id) fun x => { x with pend := ((List.range l.length).zip l).map fun y => held (y.1 + 1) y.2 }
/-- D3 is lost, and addresses from 2^40 are homed there. -/
def withoutD3 (s : State) : State :=
  { s with
    fab := { s.fab with dies := Vector.ofFn fun d => { s.fab.dies[d] with lost := decide (d.val = 3) } }
    mem := { s.mem with homes := [(2 ^ 40, 2 ^ 41, 3)] } }
theorem witness_AccessesThatStop :
    (let s := air [anAccess (.ld .u64) 0x90000 none]
     (s.seenBy 1).transAccess (anAccess (.ld .u64) 0x90000 none) .read = .error (.translation, 0x90000) ∧ goes (.deferredFault 0) s = true) ∧
    (let s := withoutD3 (air [anAccess (.ld .u64) 0x90000 (some [2 ^ 40])])
     (s.seenBy 1).homeGone (2 ^ 40) = true ∧ goes (.deferredFault 0) s = true) ∧
    (let s := withoutD3 (air [anAccess (.amo .add true 1 0) 0x90000 (some (rangeFrom (2 ^ 40) 8))])
     goes (.deferredFault 0) s = true) ∧
    (let s := air [anAccess (.ld .u64) 0x30000 none]
     (s.seenBy 1).transAccess (anAccess (.ld .u64) 0x30000 none) .read = .error (.remote 1, 0x30000) ∧ s.unacked 64 = false ∧ goes (.loadRemoteHome 0) s = true) ∧
    (let s := air [anAccess (.ld .u8) 0x10000 (some [0x10000])]
     let t := { s with mem := { s.mem with poison := [0x10000 / 64] } }
     t.badByteAt 0 false 0x10000 = true ∧ s.badByteAt 0 false 0x10000 = false ∧ goes (.poisonedData 0) t = true ∧ s.poisoned [0x10000] = false ∧ refuses (.poisonedData 0) s = true ∧
       refuses (.deferredFault 0) s = true ∧ refuses (.loadRemoteHome 0) s = true) := by decide +kernel
theorem witness_AccessesThatStop_merge :
    let a := anAccess (.amo .add true 1 0) 0x10000 (some (rangeFrom 0x10000 8))
    let b := anAccess (.amo .add true 2 0) 0x10000 (some (rangeFrom 0x10000 8))
    let q := { held 2 b with line := 65 }
    let s := inAir (scene id id) fun x => { x with pend := [held 1 a, q] }
    goes (.amoMerge 0 1) s = true ∧ s.isMerged 1 = false ∧ s.isMerged 2 = false ∧ s.mustWait (s.nameOf 64) 1 (rangeFrom 0x10000 8) true = false ∧
      s.mustWait (s.nameOf 65) 2 (rangeFrom 0x10000 8) true = false ∧ s.tagsReady b.tags = true ∧
      (let m := { a with merged := [(2, 2)] }
       let t := inAir s fun x => { x with pend := [held 1 m, { held 2 { b with merged := [] } with line := 65 }] }
       t.canPerform (held 1 m) m = true ∧ goes (.lineWrite 0) t = true) := by decide +kernel
theorem witness_AccessesThatStop_fetch :
    (let s := scene (Line.onCtx fun c => { c with pc := 0x90000 }) id
     s.transBytes 0 0 3 .fetch .exec 0x90000 8 = .error (.translation, 0x90000) ∧ goes .fetchFault s = true) ∧
    (let s := scene (Line.onCtx fun c => { c with pc := 0x50000 }) id
     s.transBytes 0 0 3 .fetch .exec 0x50000 8 = .error (.permission, 0x50000) ∧ goes .fetchFault s = true) ∧
    (let s := scene id id
     let t := { s with mem := { s.mem with poison := [0x1000 / 64] } }
     t.poisonedAt 0 (coh 8) (rangeFrom 0x1000 8) = true ∧ goes .fetchFault t = true ∧ refuses .fetchFault s = true) ∧
    (let s := scene (Line.onCtx fun c => { c with pc := 0x70000 }) id
     let t := { s with mem := { s.mem with pages := { placedPage with va := 0x70000, pa := 2 ^ 51, attr := .swc } :: s.mem.pages } }
     t.transBytes 0 0 3 .fetch .exec 0x70000 8 = .error (.attrFault, 0x70000) ∧ goes .fetchFault t = true) := by decide +kernel

/-! ### Orderings and restarts -/

/-- An ordering of the placed context. -/
def anOrder (k : OrderKind) : OrderReq := { line := 64, kind := k, pc := 0x1000, asid := 0, cluster := 0, seq := 5 }
/-- It is in flight. -/
def ordering (k : OrderKind) : State := inAir (scene (waits (if k = .fenceEv then 3 else 10)) id) fun x => { x with orders := [anOrder k] }
theorem witness_OrderingsAndRestartsEnd_orders : ∀ k ∈ [OrderKind.fence .none .sys, .fence .acquire .pkg, .fenceEv, .tlbinv .pkg 0 (2 ^ 57), .maskclr],
    quietB (waits (if k = .fenceEv then 3 else 10) placedLine) = true ∧ (ordering k).readsDone 64 5 = true ∧ (ordering k).writesDone 64 5 = true ∧
      (ordering k).unacked 64 = false ∧ goes (.orderingComplete 0) (ordering k) = true := by decide +kernel
theorem witness_OrderingsAndRestartsEnd_waits :
    let s := inAir (ordering (.fence .acquire .pkg)) fun x => { x with pend := [held 1 (anAccess (.ld .u64) 0x10000 (some (rangeFrom 0x10000 8)))] }
    s.readsDone 64 5 = false ∧ refuses (.orderingComplete 0) s = true := by decide +kernel
/-- A replay marker for the word at 0x1000, and a stopped reduction. -/
def marked : Line → Line := Line.onCtx fun c => { c with waitKind := 15, waitObj := 0x1001 }
def stopped : Line → Line := setSt fun t => { t with qkind := 1, qacc := 6, qcnt := 5 }
theorem witness_OrderingsAndRestartsEnd_restarts : (scene marked id).atIssue = some (64, marked placedLine) ∧ goes .replayReissue (scene marked id) = true ∧
    refuses .replayReissue (scene id id) = true ∧ goes .qredRestart (scene stopped id) = true ∧ refuses .qredRestart (scene id id) = true ∧
    (stopped placedLine).c.st.qkind ≠ 0 := by decide +kernel
/-- A range operation of the placed context: g1 and g2 give its range. -/
def aRange (k : RangeKind) (sc : Scope) : RangeReq := { line := 64, kind := k, scope := sc, areg := 1, breg := 2, cluster := 0, pc := 0x1000, word := 0, seq := 5 }
/-- It is in flight over n bytes from an address, with a die copy of the line at 0x10000. -/
def ranging (k : RangeKind) (sc : Scope) (a n : Word) : State :=
  let s := inAir (scene (setR 2 n ∘ setR 1 a ∘ waits 10) id) fun x => { x with ranges := [aRange k sc] }
  { s with mem := { s.mem with copies := [(0x10000 / 128, { data := 0, dirty := 0, bad := 0, tags := [] })] } }
theorem witness_OrderingsAndRestartsEnd_ranges : (∀ k ∈ [RangeKind.clean, .inv, .discard],
      goes (.rangeOperationEnd 0) (ranging k .pkg 0x10000 128) = true ∧ (ranging k .pkg 0x10000 128).openBefore ((ranging k .pkg 0x10000 128).nameOf 64) 5 = false ∧
      ((ranging k .pkg 0x10000 128).openPages k).translate 0 0 3 .engine (if k = .discard then .write else .read) 0x10000 =
        .ok (0x10000, { placedPage with va := 0x10000, pa := 0x10000 })) ∧
    SMap.risingFrom 0 (ranging .clean .die 0x10000 128).mem.copies = true ∧
    (((ranging .clean .cl 0x90000 1).openPages .clean).translate 0 0 3 .engine .read 0x90000) = .error .translation ∧
    goes (.rangeOperationEnd 0) (ranging .clean .cl 0x90000 1) = true := by decide +kernel

/-- The range is one page's part, and one that ends where nothing translates. -/
theorem witness_OrderingsAndRestartsEnd_parts :
    let found := fun (s : State) => (s.openPages .clean).translate 0 0 3 .engine .read
    InPages (found (ranging .clean .pkg 0x10000 128)) 0x10080 0x10000 [(0x10000, 128)] 0x10080 ∧
    InPages (found (ranging .clean .pkg 0x10000 0x10001)) 0x20001 0x10000 [(0x10000, 0x10000)] 0x20000 ∧
    found (ranging .clean .pkg 0x10000 0x10001) 0x20000 = .error .translation ∧ goes (.rangeOperationEnd 0) (ranging .clean .pkg 0x10000 0x10001) = true := by
  refine ⟨⟨by decide, { placedPage with va := 0x10000, pa := 0x10000 }, by decide +kernel, by decide, rfl⟩,
    ⟨by decide, { placedPage with va := 0x10000, pa := 0x10000 }, by decide +kernel, by decide, rfl⟩, by decide +kernel⟩

/-! ### Messages and deposits at their target's owner -/

/-- An entry of the placed context's send buffer. -/
def entryOf (n : Nat) (w : SendWhat) : SendEntry := { id := n, what := w, line := some 64, asid := 0, pc := 0x1000, tags := [], hold := none, merged := [] }
/-- The handle of the second line. -/
def handle2 : Word := 1 * 2 ^ 50 + 0x41
/-- The scene with entries in the send buffer of cluster 0. -/
def buffered (l : List SendEntry) (f g : Line → Line) : State := inAir (scene f g) fun x => { x with sends := [(0, l)] }
/-- A message and a deposit to the second line, or to no line. -/
def toSecond (h : Word) : SendEntry := entryOf 3 (.msg h 1 2 3 4 4 .context)
def depSecond (h : Word) : SendEntry := entryOf 3 (.dep h 2 9)
/-- A TRAPPED second line in the context L1. -/
def trapped : Line → Line := setSt fun t => { t with state := .trapped, trapcode := 0x30 }
/-- An inbox in no page. -/
def unboxed : Line → Line := Line.onCtx fun c => { c with inboxBase := 0x480 }
/-- The hypotheses `MayGo` of the first entry. -/
theorem mayGo_first (e : SendEntry) (f g : Line → Line) (h : e.hold = none) (t : e.tags = []) : MayGo (buffered [e] f g) 0 0 e := by
  refine ⟨rfl, by decide, h, rfl, by omega, ?_⟩
  rw [t]
  rfl
/-- A way to find the second line. -/
theorem reaches_second (e : SendEntry) (g : Line → Line) (a : (g second).c.asid = 0) (n : (g second).c.gen = 1) (p : (g second).place = .l1 0 0)
    (f : (g second).c.st.state ≠ .free) (r : (g second).c.st.state ≠ .retired) (u : ((buffered [e] id g).seenBy 3).homeGone 0x2080 = false)
    (v : ((buffered [e] id g).seenBy 3).dieGone 0 = false) : Reaches (buffered [e] id g) 0 3 0 handle2 65 (g second) := by
  refine ⟨0x2080, placedPage, by rfl, by decide, by rfl, u, ?_, .inl rfl, a, by rw [n]; decide, f, r⟩
  intro d h
  rw [p] at h
  obtain rfl : d = 0 := by simpa [Place.ownerDie, Place.cluster?, dieOf] using h.symm
  exact v
theorem witness_DeliveriesAtOwners_reached : MayGo (buffered [toSecond handle2] id (boxed 16)) 0 0 (toSecond handle2) ∧
    Reaches (buffered [toSecond handle2] id (boxed 15)) 0 3 0 handle2 65 (boxed 15 second) ∧ Quiet (boxed 15 second) :=
  ⟨mayGo_first _ _ _ rfl rfl, reaches_second _ _ rfl rfl rfl (by decide) (by decide) (by decide +kernel) (by decide +kernel), quiet_of (by decide)⟩
theorem witness_DeliveriesAtOwners_message : (16 ≤ (boxed 16 second).c.inboxCount.toNat ∧ goes (.messageDelivery 0 0) (buffered [toSecond handle2] id (boxed 16)) = true) ∧
    (nextSlotPas (buffered [toSecond handle2] id (boxed 15)) (boxed 15 second) = some (rangeFrom 0x101E0 32) ∧ (rangeFrom 0x101E0 32).Nodup ∧
      (∀ a ∈ rangeFrom 0x101E0 32, (buffered [toSecond handle2] id (boxed 15)).lineAt a = none) ∧
      goes (.messageDelivery 0 0) (buffered [toSecond handle2] id (boxed 15)) = true) ∧
    (nextSlotPas (buffered [toSecond handle2] id unboxed) (unboxed second) = none ∧ goes (.messageDelivery 0 0) (buffered [toSecond handle2] id unboxed) = true) ∧
    ((buffered [toSecond 0x1200] id id).handlePage 0 0 0x1200 = none ∧ goes (.messageDelivery 0 0) (buffered [toSecond 0x1200] id id) = true) := by decide +kernel
/-- A register that is full. -/
def full2 : Line → Line := setSt fun t => { t with full := 4 }
theorem witness_DeliveriesAtOwners_deposit : MayGo (buffered [depSecond handle2] id full2) 0 0 (depSecond handle2) ∧
    Reaches (buffered [depSecond handle2] id full2) 0 3 0 handle2 65 (full2 second) ∧ (full2 second).c.st.full.getLsbD 2 = true ∧
    second.c.st.full.getLsbD 2 = false ∧ goes (.depositDelivery 0 0) (buffered [depSecond handle2] id full2) = true ∧
    goes (.depositDelivery 0 0) (buffered [depSecond handle2] id id) = true ∧ goes (.depositDelivery 0 0) (buffered [depSecond 0x1200] id id) = true :=
  ⟨mayGo_first _ _ _ rfl rfl, reaches_second _ _ rfl rfl rfl (by decide) (by decide) (by decide +kernel) (by decide +kernel), by decide +kernel⟩
theorem noneWaits_scene (e : SendEntry) (g : Line → Line) (h : (g second).goTo = none) (w : (g second).c.st.state ≠ .waiting) : NoneWaits (buffered [e] id g) := by
  intro k l m
  have : SMap.get? [(64, placedLine), (65, g second)] k = some l := m
  simp only [SMap.get?] at this
  split at this
  · cases this
    exact ⟨rfl, by decide⟩
  · split at this
    · cases this
      exact ⟨h, fun x => absurd x w⟩
    · cases this
/-- A notice for the placed context itself, and an entry that a NACK holds back. -/
def aNotice : SendEntry := entryOf 3 (.notice 0 1 2 3)
def nacked (w : SendWhat) (n : Nat) : SendEntry := { entryOf 3 w with hold := some n }
theorem witness_DeliveriesAtOwners_notices : goes (.messageDelivery 0 0) (buffered [aNotice] (boxed 16) id) = true ∧ goes (.messageDelivery 0 0) (buffered [aNotice] (boxed 0) id) = true ∧
    nextSlotPas (buffered [aNotice] (boxed 0) id) (boxed 0 placedLine) = some (rangeFrom 0x10000 32) ∧ nextSlotPas (buffered [aNotice] unboxed id) (unboxed placedLine) = none ∧
    goes (.messageDelivery 0 0) (buffered [aNotice] unboxed id) = true ∧
    refuses (.messageDelivery 0 0) (buffered [nacked (.msg 0 0 0 0 0 1 .context) 0] id id) = true ∧ goes (.sendRetry 0 0) (buffered [nacked (.msg 0 0 0 0 0 1 .context) 0] id id) = true ∧
    goes (.postRetry 0 0) (buffered [nacked (.post 0 0 false) 0] id id) = true ∧ refuses (.postRetry 0 0) (buffered [nacked (.post 0 0 false) 1] id id) = true := by
  decide +kernel
/-- A notice of a DIE_LOST trap to the second line, which is TRAPPED. -/
def lossNotice : SendEntry := entryOf 3 (.msg handle2 0 0 0x20 1 3 .trapNotice)
theorem witness_DeliveriesAtOwners_handler : MayGo (buffered [lossNotice] id trapped) 0 0 lossNotice ∧
    Reaches (buffered [lossNotice] id trapped) 0 3 0 handle2 65 (trapped second) ∧ Quiet (trapped second) ∧ (trapped second).c.st.state = .trapped ∧
    NoneWaits (buffered [lossNotice] id trapped) ∧ goes (.messageDelivery 0 0) (buffered [lossNotice] id trapped) = true :=
  ⟨mayGo_first _ _ _ rfl rfl, reaches_second _ _ rfl rfl rfl (by decide) (by decide) (by decide +kernel) (by decide +kernel), quiet_of (by decide), rfl,
    noneWaits_scene _ _ rfl (by decide), by decide +kernel⟩
theorem witness_DeliveriesAtOwners_refill : goes (.tokenRefill 3 47) (scene id id) = true ∧ goes (.tokenRefill 0 63) (scene id id) = true ∧
    refuses (.tokenRefill 0 0) { scene id id with sched := { (scene id id).sched with cycle := 1 } } = true ∧ refuses (.tokenRefill 0 64) (scene id id) = true := by decide +kernel

/-! ### Requests at a line's owner -/

/-- A request of the placed context to the second line. -/
def asking (w : OwnerWhat) (h : Word) (f g : Line → Line) : State :=
  inAir (scene f g) fun x => { x with owners := [{ what := w, until_ := none, asid := 0, handle := h, d := 3, line := 64, die := 0, seq := 5 }] }
/-- An RGET that has waited at its target's owner since before this time. -/
def overdue (w : OwnerWhat) (h : Word) (g : Line → Line) : State :=
  inAir (scene id g) fun x => { x with owners := [{ what := w, until_ := some 0, asid := 0, handle := h, d := 3, line := 64, die := 0, seq := 5 }] }
theorem witness_RequestsAtOwners_rget : goes (.requestAtLineOwner 0) (asking (.rget 2 1 9) handle2 id id) = true ∧ second.c.st.state = .ready ∧
    refuses (.rgetTimeout 0) (asking (.rget 2 1 9) handle2 id id) = true ∧ goes (.requestAtLineOwner 0) (asking (.rget 2 1 9) handle2 id trapped) = true ∧
    refuses (.requestAtLineOwner 0) (overdue (.rget 2 1 9) handle2 trapped) = true ∧ goes (.rgetTimeout 0) (overdue (.rget 2 1 9) handle2 trapped) = true ∧
    (asking (.rget 2 1 9) 0x1200 id id).handlePage 0 0 0x1200 = none ∧ goes (.requestAtLineOwner 0) (asking (.rget 2 1 9) 0x1200 id id) = true ∧
    refuses (.rgetTimeout 0) (asking (.rget 2 1 9) handle2 id trapped) = true ∧ quietB placedLine = true := by
  decide +kernel
theorem witness_RequestsAtOwners_resume : quietB (waits 3 placedLine) = true ∧ (asking .resume handle2 (waits 3) trapped).writesDone 64 5 = true ∧
    goes (.requestAtLineOwner 0) (asking .resume handle2 (waits 3) trapped) = true ∧ goes (.requestAtLineOwner 0) (asking .resume handle2 (waits 3) id) = true ∧
    goes (.requestAtLineOwner 0) (asking .resume 0x1200 (waits 3) id) = true := by decide +kernel
theorem witness_RequestsAtOwners_evict : goes (.requestAtLineOwner 0) (asking (.evict true) handle2 (waits 3) id) = true ∧
    goes (.requestAtLineOwner 0) (asking (.evict false) handle2 (waits 3) id) = true ∧ (asking (.evict false) handle2 (waits 3) id).unacked 65 = false ∧
    (asking (.evict false) handle2 (waits 3) id).l2Count 0 < 2048 ∧ second.waitOver = false ∧
    goes (.requestAtLineOwner 0) (asking (.evict true) handle2 (waits 3) fun l => { l with place := .memory }) = true ∧
    goes (.requestAtLineOwner 0) (asking (.evict true) handle2 (waits 3) fun l => { (setSt (fun t => { t with state := .inTransit }) l) with place := .transit 9 }) = true ∧
    goes (.requestAtLineOwner 0) (asking (.evict true) 0x1200 (waits 3) id) = true := by decide +kernel
theorem witness_RequestsAtOwners_waits : goes (.timeWaitExpire 64) (scene (waits 9) id) = true ∧ (act .idle (scene (waits 9) id) matches .refused _) = true ∧
    refuses (.timeWaitExpire 64) (scene (Line.onCtx (fun c => { c with waitObj := 1 }) ∘ waits 9) id) = true ∧ goes (.fetchArrive 64) (scene (waits 7) id) = true ∧
    refuses (.fetchArrive 64) (scene (waits 8) id) = true := by decide +kernel

/-! ### The scheduler -/

/-- The second line stands on a run list of cluster 0, since turn 0. -/
def listed (g : Line → Line) : State := { scene id g with ctx := { (scene id g).ctx with run := [(0, [{ line := 65, age := 0, from_ := 0 }])] } }
/-- An empty slot of unit 3 at its issue cycle. -/
theorem empty_slot : EmptySlot (listed id) 0 3 0 := ⟨by decide, by decide, by decide +kernel, rfl, rfl, rfl, rfl, rfl, by decide, by decide⟩
theorem witness_SchedulerSteps_select : EmptySlot (listed id) 0 3 0 ∧ (listed id).runList 0 0 = [{ line := 65, age := 0, from_ := 0 }] ∧ (listed id).runList 0 3 = [] ∧
    Claimable (listed id) 65 second 0 ∧ goes (.slotSelect 0 3 0) (listed id) = true ∧ goes (.slotSelect 0 3 0) (listed (setSt fun t => { t with state := .trapped })) = true ∧
    goes (.slotSelect 0 3 0) (scene id id) = true ∧ (scene id id).ringCount 0 = 0 ∧ (scene id id).roamCandidate 0 = none :=
  ⟨empty_slot, by decide +kernel, by decide +kernel, ⟨⟨rfl, by decide +kernel⟩, by decide, rfl, rfl, rfl, rfl, by decide⟩, by decide +kernel⟩
/-- Slot 0 of unit 3 has sent its claim for the second line. -/
def asked (g : Line → Line) : State := (listed g).setSlot 0 3 0 { SlotRec.empty with asking := some 65 }
theorem witness_SchedulerSteps_claim : SMap.get? (asked id).ctx.lines 65 = some second ∧ (asked id).canIssue 0 = true ∧ goes (.claim 65 0 3 0) (asked id) = true ∧
    goes (.claim 65 0 3 0) (asked (setSt fun t => { t with state := .trapped })) = true ∧ refuses (.claim 65 0 3 0) (listed id) = true ∧
    refuses (.slotSelect 0 0 0) (listed id) = true ∧ refuses (.slotSelect 0 3 1) (listed id) = true := by decide +kernel
/-- Slot 0 of a unit of cluster 0 awaits the second line, the swap to it begun in a cycle. -/
def awaiting (f g : Line → Line) (u : Nat) (swap : Option Nat) (cycle : Nat) : State :=
  let s := scene f g
  { s with sched := { s.sched with cycle := cycle } }.setSlot 0 u 0 { SlotRec.empty with line := (s.slot 0 u 0).line, coming := some 65, swap := swap }
theorem witness_SchedulerSteps_swap :
    (let s := awaiting id (fun l => { l with place := .toSlot 0 1 0 }) 1 none 0
     (s.slot 0 1 0).coming = some 65 ∧ s.l1Count 0 1 < 64 ∧ (s.slot 0 1 0).line = none ∧ goes (.contextL1Fill 0 1 0) s = true ∧ refuses (.swapLoad 0 1 0) s = true ∧
       s.maySelect 0 1 0 = true ∧ goes (.slotSelect 0 1 0) s = true) ∧
    (let s := awaiting id (fun l => { l with place := .l1 0 1 }) 1 none 0
     refuses (.contextL1Fill 0 1 0) s = true ∧ s.maySelect 0 1 0 = true ∧ goes (.slotSelect 0 1 0) s = true ∧ refuses (.swapLoad 0 1 0) s = true) ∧
    (let s := awaiting id (fun l => { l with place := .l1 0 1 }) 1 (some 0) 8
     (s.slot 0 1 0).swap = some 0 ∧ s.sched.cycle = 0 + 8 ∧ goes (.swapLoad 0 1 0) s = true) ∧
    (∀ m ∈ [waits 3, setSt fun t => { t with state := .ready }], let s := awaiting m id 0 (some 0) 8
     (s.slot 0 0 0).line = some 64 ∧ (m placedLine).waitOver = false ∧ (m placedLine).mayRetire = false ∧ goes (.swapLoad 0 0 0) s = true) := by decide +kernel
theorem witness_SchedulerSteps_rotate : (act (.issue 0 0 1) (scene id id) matches .refused _) = true ∧ (act .idle (scene id id) matches .refused _) = true ∧
    SMap.get? (scene id id).ctx.slots 0 = some { SlotRec.empty with line := some 64 } ∧ (scene id id).canIssue 0 = true ∧ State.reset.due = [] ∧
    (act .idle State.reset matches .next _) = true := by decide +kernel
/-- The backlog ring of cluster 0, at 0x300000, of 8 entries, holds the second line's handle, which was put there as this line's. -/
def ringed1 (g : Line → Line) (h : Word) (key : Nat) : State :=
  let s := scene id g
  let r := s.clusterRecord 0
  { s with
    ctx := { s.ctx with rings := [(0, [key])] }
    mem := { s.mem with bytes := [(0x300000, h.setWidth 8), (0x300006, 4), (r + 2, 0x30), (r + 8, 8), (r + 24, 1)] } }
/-- A READY line in memory that a ring names. -/
def inMemory : Line → Line := fun l => setSt (fun t => { t with queued := true }) { l with place := .memory }
theorem witness_SchedulerSteps_fill :
    (let s := ringed1 inMemory handle2 65
     s.canIssue 0 = true ∧ s.ringCount 0 = 1 ∧ SMap.getD s.ctx.heldAppends 0 [] = [] ∧ Memory.wf s.mem.bytes = true ∧ s.ringLine 0 = some 65 ∧ s.l2Count 0 < 2048 ∧
       (∀ n < 32, s.lineAt (s.clusterRecord 0 + n) = none) ∧ (inMemory second).c.here = 0 ∧ goes (.backlogFill 0) s = true) ∧
    (let s := ringed1 inMemory 0x42 66
     s.ringCount 0 ≠ 0 ∧ s.ringLine 0 = none ∧ goes (.backlogFill 0) s = true) := by decide +kernel
theorem witness_SchedulerSteps_rings :
    refuses (.backlogFill 0) (scene id id) = true ∧
    (let s := scene id fun l => { (setSt (fun t => { t with state := .inTransit }) l) with place := .transit 5 }
     s.clusterGone 5 = false ∧ s.arrivals 5 < SMap.getD s.ctx.limits 5 64 ∧ goes (.arrivalAccept 65) s = true ∧
       (let t := { s with ctx := { s.ctx with limits := [(5, 0)] } }
        SMap.getD t.ctx.limits 5 64 ≤ t.arrivals 5 ∧ t.l2Count 5 < 2048 ∧ goes (.arrivalAccept 65) t = true) ∧
       (let t := { s with mgmt := { s.mgmt with mapped := [5] } }
        t.clusterGone 5 = true ∧ refuses (.arrivalAccept 65) t = true)) := by decide +kernel
/-- The second line's entry after 4,096 turns. -/
def aged (g : Line → Line) : State := { listed g with sched := { (listed g).sched with cycle := 32768 } }
theorem witness_SchedulerSteps_age : nth? ((aged id).runList 0 0) 0 = some { line := 65, age := 0, from_ := 0 } ∧ SMap.risingFrom 0 (aged id).ctx.run = true ∧
    min 3 (second.c.st.cls.toNat + 4096 / 4096) = 1 ∧ goes (.agingStep 0 0 0) (aged id) = true ∧ (act .idle (aged id) matches .refused _) = true ∧
    (∀ x ∈ (aged id).runList 0 1, x.line ≠ 65) ∧ refuses (.agingStep 0 0 0) (listed id) = true := by decide +kernel

end Sys2Proof.Tests
end

