-- ==== Sys2Proof/Tests/Witness5.lean ====
section
/-! SUPPORT. Steps of the device, continued: the Churn, queues, handle tables, gangs, spawn requests, the host, the fabric and the management of the package. -/

set_option Elab.async false

open Sys2Proof Sys2Proof.Machine

namespace Sys2Proof.Tests

/-! ### The Churn -/

/-- The scene whose group 10 of cluster 0 belongs to ASID 0, in its table at 0x2000000 and in its bank, configured, at this step. -/
def churn (cfg : BitVec 256) (S : BitVec 32) (l : List SendEntry) : State :=
  let s := buffered l id id
  { s with
    mgmt := { s.mgmt with gtBase := 0x2000000 }
    mem := { s.mem with bytes := [(0x10060, 3), (0x10088, 3), (0x1008B, 5), (0x1008C, 1), (0x10188, 3), (0x10189, 11), (0x10190, 7), (0x1028F, 1), (0x2000057, 0x80),
      (0x200005F, 0x80)] }
    groups := [(10, { Group.reset with owner := some 0, cfg := cfg, S := S }), (11, { Group.reset with owner := some 0, cfg := 2 ^ 63 })] }
/-- The bits of a configuration: EN, IMMEDIATE, the action on a fire, the threshold, ARG0 and ARG1. -/
def cfgOf (en imm : Bool) (action thresh arg0 arg1 : Nat) : BitVec 256 :=
  BitVec.ofNat 256 ((if en then 2 ^ 63 else 0) + (if imm then 2 ^ 35 else 0) + action * 2 ^ 57 + thresh + arg0 * 2 ^ 128 + arg1 * 2 ^ 192)
/-- One event to a member of group 10, or to another address. -/
def toMember (addr : BitVec 32) (v : BitVec 48) (step : BitVec 32) : Ev :=
  { addr := addr, value := v, step := step, asid := 0, arm := false, rel := false, count := 1, time := 0 }
/-- Its entry. -/
def evEntry (n : Nat) (e : Ev) : SendEntry := entryOf n (.event e .context)
/-- A churn scene with one event. -/
def oneEvent (cfg : BitVec 256) (S : BitVec 32) (e : Ev) : State := churn cfg S [evEntry 3 e]
/-- Address 0x0000_0A03: D0, local cluster 0, group 10, member 3. -/
def m3 : BitVec 32 := 0xA03

/-- The hypotheses `Served` of the address, as a test. -/
def servedB (s : State) (seq : Nat) (a : BitVec 32) (asid : BitVec 12) (gk : Nat) : Bool :=
  let die := a.toNat / 2 ^ 30
  let c := die * 48 + a.toNat / 2 ^ 24 % 64
  !(s.seenBy seq).dieGone die && s.isReady die 3 && a.toNat / 2 ^ 16 % 256 == 0 && decide (a.toNat / 2 ^ 24 % 64 < 48) && !(s.seenBy seq).clusterGone c &&
    gk == c * 256 + a.toNat / 2 ^ 8 % 256 && s.groupOwner gk == some asid && (s.group gk).owner == some asid && SMap.risingFrom 0 (s.group gk).members && s.chain c == []
theorem served_of {s : State} {seq : Nat} {a : BitVec 32} {asid : BitVec 12} {gk : Nat} (b : servedB s seq a asid gk = true) : Served s seq a asid gk := by
  simp only [servedB, Bool.and_eq_true, Bool.not_eq_true', beq_iff_eq, decide_eq_true_eq] at b
  obtain ⟨⟨⟨⟨⟨⟨⟨⟨⟨h1, h2⟩, h3⟩, h4⟩, h5⟩, h6⟩, h7⟩, h8⟩, h9⟩, h10⟩ := b
  exact ⟨h1, h2, h3, h4, h5, h6, h7, h8, h9, h10⟩

theorem witness_EventsAtBanks_served : Served (oneEvent (cfgOf true false 0 5 0 0) 7 (toMember m3 1 0xFFFFFFFF)) 3 m3 0 10 := served_of (by decide +kernel)
theorem witness_EventsAtBanks_at : nth? ((oneEvent (cfgOf true false 0 5 0 0) 7 (toMember m3 1 9)).sendsOf 0) 0 = some (evEntry 3 (toMember m3 1 9)) ∧
    (oneEvent (cfgOf true false 0 5 0 0) 7 (toMember m3 1 9)).eventMerged 0 3 = false ∧ 3 < (oneEvent 0 7 (toMember m3 1 9)).sched.seq := by decide +kernel
/-- What becomes of one event: EV_REFUSED, the member's sum and value, and the calendar. -/
def eventOut (cfg : BitVec 256) (S : BitVec 32) (e : Ev) : List Nat :=
  match exec (.eventAccept 0 0) (oneEvent cfg S e) with
  | .next t => [(t.asidRegs 0).refused.toNat, ((t.group 10).member 3).sum.toNat, ((t.group 10).member 3).v.toNat, (t.group 10).cal.length]
  | .fault _ => []
  | .refused _ => []
/-- R316: now, the current step, the next 63 steps, beyond the horizon, late. -/
theorem witness_EventsAtBanks_accept :
    [0xFFFFFFFF, 7, 70, 71, 6].map (fun n => eventOut (cfgOf true false 0 5 0 0) 7 (toMember m3 1 n)) =
      [[0, 1, 0, 0], [0, 1, 0, 0], [0, 0, 0, 1], [1, 0, 0, 0], [0, 1, 0, 0]] := by decide +kernel
/-- EN 0, no group, and IMMEDIATE below and at its threshold. -/
theorem witness_EventsAtBanks_enables :
    [eventOut (cfgOf false false 0 5 0 0) 7 (toMember m3 1 7), eventOut (cfgOf true false 0 5 0 0) 7 (toMember 0xC03 1 7),
      eventOut (cfgOf true true 0 5 0 0) 7 (toMember m3 4 7), eventOut (cfgOf true true 0 5 0 0) 7 (toMember m3 5 7)] =
      [[1, 0, 0, 0], [1, 0, 0, 0], [0, 0, 4, 0], [0, 0, 0, 0]] := by decide +kernel
theorem witness_EventsAtBanks_unserved : NotServed (oneEvent (cfgOf true false 0 5 0 0) 7 (toMember 0xC03 1 7)) 3 0xC03 0 3 ∧
    NotServed (oneEvent (cfgOf true false 0 5 0 0) 7 (toMember 0x30000A03 1 7)) 3 0x30000A03 0 3 := by
  unfold NotServed
  decide +kernel
/-- The hypotheses of a fire: the launch tables know nothing of the group, and the test of R320 holds. -/
theorem witness_EventsAtBanks_fires : (∀ a ∈ [1, 2, 3, 4], let s := oneEvent (cfgOf true true a 5 0x10000 1) 7 (toMember m3 5 0xFFFFFFFF)
      s.launchOf 10 = none ∧ s.launchDone 10 = none ∧ tests (s.group 10) 5 false = true ∧ ((s.group 10).cfg.extractLsb' 57 3).toNat = a ∧
        goes (.eventAccept 0 0) s = true) := by decide +kernel
/-- An EMIT fire of member 3 with its one fan-out entry at ARG0 + 48. -/
def emitting (arg : Nat) : State := oneEvent (cfgOf true true 1 5 arg 1) 7 (toMember m3 5 0xFFFFFFFF)
/-- The fan-out entry that the bank reads, where it reads one. -/
def entryRead (arg : Nat) : Option (Nat × Nat) :=
  let s := emitting arg
  match s.transBytes 0 0 0 .engine .read ((arg + 48) % 2 ^ 57) 16 with
  | .ok (pas, swc) =>
    let l := s.seenBytes 0 swc pas
    if s.poisonedAt 0 swc pas || pas.any (s.seenBy 3).homeGone then none else some (leNat (l.take 8), leNat (l.drop 8))
  | .error _ => none
/-- Toward another bank, toward group 11 of the same bank, and one with a reserved bit set. -/
theorem witness_EventsAtBanks_emit : [0x10058, 0x10158, 0x10258].map entryRead = [some (3 + 5 * 2 ^ 24 + 2 ^ 32, 0), some (0xB03, 7), some (2 ^ 56, 0)] ∧
    goodFanOut (3 + 5 * 2 ^ 24 + 2 ^ 32, 0) = true ∧ fanOutCluster (3 + 5 * 2 ^ 24 + 2 ^ 32, 0) = 5 ∧ goodFanOut (0xB03, 7) = true ∧ fanOutCluster (0xB03, 7) = 0 ∧
    goodFanOut (2 ^ 56, 0) = false ∧ (∀ x ∈ [0x10058, 0x10158, 0x10258], goes (.eventAccept 0 0) (emitting x) = true) ∧
    (let g := (emitting 0x10158).group 11
     g.owner = (emitting 0x10158).groupOwner 11 ∧ (emitting 0x10158).groupOwner 11 = some 0 ∧ g.cfg.getLsbD 63 = true ∧ g.cfg.getLsbD 35 = false) := by
  decide +kernel
theorem witness_EventsAtBanks_log : let s := oneEvent (cfgOf true true 4 5 0x10000 1) 7 (toMember m3 5 0xFFFFFFFF)
    s.transBytes 0 0 0 .engine .write 0x10000 16 = .ok (rangeFrom 0x10000 16, coh 16) ∧ s.poisoned (rangeFrom 0x10000 16) = false ∧
      (∀ a ∈ rangeFrom 0x10000 16, (s.seenBy 3).homeGone a = false ∧ s.lineAt a = none ∧ a < s.mgmt.ptBase ∧ a < s.mgmt.gtBase) ∧
      (rangeFrom 0x10000 16).Nodup ∧ Memory.wf s.mem.bytes = true := by decide +kernel
theorem witness_EventsAtBanks_spawn : let s := oneEvent (cfgOf true true 3 5 0x10000 1) 7 (toMember m3 5 0xFFFFFFFF)
    let n := nodeOf (s.seenBytes 0 (coh 64) (rangeFrom 0x10000 64))
    s.transBytes 0 0 0 .engine .read 0x10000 64 = .ok (rangeFrom 0x10000 64, coh 64) ∧ s.poisonedAt 0 (coh 64) (rangeFrom 0x10000 64) = false ∧ s.nodeBad n = false ∧
      (match s.transBytes 0 0 0 .engine .read ((n.bits 1 0 57 + n.bits 2 0 32 * ((3 + n.bits 4 32 32) % 2 ^ 32)) % 2 ^ 57) 32 with
       | .ok (pas, swc) => !s.poisonedAt 0 swc pas && !pas.any (s.seenBy 3).homeGone
       | .error _ => false) = true := by
  decide +kernel
/-- A bank with an action at hand takes no event and goes on with it. -/
theorem witness_EventsAtBanks_chain :
    let s : State := { oneEvent 0 7 (toMember m3 1 7) with chains := [(0, [.advance 10])] }
    s.chain (evBank m3) ≠ [] ∧ refuses (.eventAccept 0 0) s = true ∧ (act (.bankGoOn 0) s matches .next _) = true := by decide +kernel

/-- A request of the placed context to group 10. -/
def bankAsk (cfg : BitVec 256) (w : BankWhat) (addr : BitVec 32) : State :=
  inAir (churn cfg 7 []) fun x => { x with banks := [{ what := w, addr := addr, asid := 0, d := 3, line := 64, seq := 5 }] }
theorem witness_GroupsAtBanks_requests : (∀ w ∈ [BankWhat.rdMem, .rdStep, .rdLate, .wr 5, .cfg 0 false, .cfg (cfgOf true true 1 0 0 0) false, .cfg 0 true],
      goes (.groupRequestAtBank 0) (bankAsk (cfgOf true false 0 5 0 0) w m3) = true) ∧ servedB (bankAsk 0 .rdMem m3) 5 m3 0 10 = true ∧ quietB placedLine = true ∧
    cfgBad ((bankAsk 0 .rdMem m3).group 10) 0 false = false ∧ cfgBad ((bankAsk 0 .rdMem m3).group 10) (7 <<< 57) false = true := by decide +kernel
theorem witness_GroupsAtBanks_step : goes (.stepClose 0) (bankAsk (cfgOf true false 0 5 0 0) (.step 7) m3) = true ∧
    goes (.stepClose 0) (bankAsk (cfgOf true false 0 5 0 0) (.step 8) m3) = true ∧ goes (.stepClose 0) (bankAsk (cfgOf true true 0 5 0 0) (.step 7) m3) = true ∧
    goes (.stepClose 0) (bankAsk 0 (.step 7) 0xB03) = true ∧ (bankAsk (cfgOf true false 0 5 0 0) (.step 7) m3).launchDone 10 = none ∧
    (let s := inAir (bankAsk (cfgOf true false 0 5 0 0) (.step 7) m3) fun x => { x with sends := [(0, [evEntry 3 (toMember m3 1 7)])] }
     refuses (.stepClose 0) s = true) := by decide +kernel
theorem witness_GroupsAtBanks_clear : (let s := { churn 0 7 [] with groups := [(10, { Group.reset with owner := some 1 })] }
     s.groupOwner 10 ≠ (s.group 10).owner ∧ goes (.groupClear 10) s = true) ∧ refuses (.groupClear 10) (churn 0 7 []) = true ∧
    goes (.eventMerge 0 0 0 1) (churn 0 7 [evEntry 3 (toMember m3 1 9), evEntry 4 (toMember m3 2 9)]) = true ∧
    refuses (.eventMerge 0 0 0 1) (churn 0 7 [evEntry 3 (toMember m3 1 9), evEntry 4 (toMember m3 2 8)]) = true := by decide +kernel

/-! ### Queues, tables, gangs -/

/-- A tile, and TFILL of its handle. -/
def tileX : Tile := { live := true, gen := 1, asid := 0, fmt := 7, block := 0, pitch := 0, cols := 2, rows := 2, granules := [1], data := [], scales := [], bad := [] }
def fillWord (ck : Nat) : BitVec 256 := BitVec.ofNat 256 (0x06 * 2 ^ 248 + ck * 2 ^ 244 + 0x1001 * 2 ^ 80)
/-- The scene with that tile, and a command posted by the placed context. -/
def posting (wait : Bool) (w : BitVec 256) (f : Line → Line) : State :=
  let s := buffered [entryOf 3 (.post w 3 wait)] f id
  { s with eng := { s.eng with tiles := [(1, tileX)] } }
/-- A queue entry. -/
def aCommand (n : Nat) : QEntry := { id := n, seq := 0, cmd := fillWord 0, asid := 0, poster := none, slot := 0xFFF, tag := none, cancelled := false }
theorem witness_CommandsInQueues_accept : (posting false (fillWord 0) id).homeOf (fillWord 0) = .ok (0, 1) ∧ ((posting false (fillWord 0) id).seenBy 3).homeOf (fillWord 0) = .ok (0, 1) ∧
    (fillWord 0).getLsbD 247 = false ∧ goes (.commandAccept 0 0) (posting false (fillWord 0) id) = true ∧ goes (.commandAccept 0 0) (posting true (fillWord 0) (waits 3)) = true ∧
    (let s := posting false (fillWord 0) id
     let t := { s with eng := { s.eng with queues := [(1, List.replicate 32 (aCommand 1))] } }
     (t.queue 0 1).length = 32 ∧ goes (.commandAccept 0 0) t = true) ∧
    (let s := inAir (posting false (fillWord 0) id) fun x => { x with sends := [(0, [entryOf 2 (.post (fillWord 0) 3 false), entryOf 3 (.post (fillWord 0) 3 false)])] }
     refuses (.commandAccept 0 1) s = true) := by decide +kernel
/-- A command whose home is no tile's. -/
def lostWord : BitVec 256 := BitVec.ofNat 256 (0x06 * 2 ^ 248 + 0x09001001 * 2 ^ 80)
theorem witness_CommandsInQueues_away : (let s := posting false lostWord id
     let t := { s with mgmt := { s.mgmt with mapped := [9] } }
     (match (t.seenBy 3).homeOf lostWord with
       | .error _ => true
       | .ok _ => false) = true ∧ goes (.commandAccept 0 0) t = true) ∧
    (let s := posting true lostWord (waits 3)
     goes (.commandAccept 0 0) { s with mgmt := { s.mgmt with mapped := [9] } } = true) := by decide +kernel
/-- A command that runs, with a completion kind and what it writes. -/
def aRun (n ck : Nat) (l : List Effect) : Run :=
  { e := aCommand n, start := n, info := infoOf { aCommand n with cmd := fillWord ck } 0 0 0 0 0 1, reads := [], writes := [], effects := l, made := 0, waiting := 0, good := 0, refused := 0
    gang := none, bag := none, ended := false }
/-- Commands run in the copy queue of cluster 0. -/
def running (l : List Run) : State :=
  let s := scene (waits 3) id
  { s with eng := { s.eng with tiles := [(1, tileX)], running := [(1, l)] } }
theorem witness_CommandsInQueues_ends : (∀ ck ∈ [0, 1, 2], goes (.engineCommandEnd 0 1 0) (running [aRun 3 ck []]) = true) ∧
    goes (.engineCommandEnd 0 1 1) (running [aRun 2 0 [], aRun 3 0 []]) = true ∧
    refuses (.engineCommandEnd 0 1 0) (running [{ aRun 3 0 [] with waiting := 1 }]) = true ∧
    goes (.engineCommandEnd 0 1 0) (running [{ aRun 3 0 [] with e := { aCommand 3 with poster := some (64, 3) } }]) = true ∧
    goes (.engineCommandEnd 0 1 0) (running [aRun 3 0 [.elems (1, 1) [(0, 5)]]]) = true ∧ (running []).entry 1 = tileX ∧
    goes (.engineCommandEnd 0 1 0) (running [aRun 3 0 [.mem (coh 1) [0x10000] [7]]]) = true ∧
    (let s := running [aRun 3 0 [.elems (9 * 4096 + 1, 1) [(0, 5)]]]
     goes (.engineCommandEnd 0 1 0) { s with mgmt := { s.mgmt with mapped := [9] } } = true) := by decide +kernel

/-- A request at a handle table. -/
def tableAsk (w : HandleWhat) (f : State → State) : State :=
  f (inAir (scene (waits 3) id) fun x => { x with handles := [{ what := w, asid := 0, d := 3, line := 64, seq := 5 }] })
/-- The shape of an FP32 tile of 2 rows and 2 columns. -/
def shapeX : Word := BitVec.ofNat 64 (7 * 2 ^ 60 + 2 * 2 ^ 16 + 2)
theorem witness_TablesAndGangs_tables : goes (.handleTableRequest 0 0) (tableAsk (.alloc shapeX 0) id) = true ∧ (tileOfShape shapeX).isSome = true ∧
    nth? ((tableAsk (.alloc shapeX 0) id).freeEntries 0) 0 = some 0 ∧ goes (.handleTableRequest 0 0) (tableAsk (.alloc 0 0) id) = true ∧ tileOfShape 0 = none ∧
    goes (.handleTableRequest 0 0) (tableAsk (.alloc shapeX 9) fun s => { s with mgmt := { s.mgmt with mapped := [9] } }) = true ∧
    goes (.handleTableRequest 0 0) (tableAsk (.alloc shapeX 0) fun s => { s with eng := { s.eng with tiles := [(1, { tileX with granules := List.range 1024 })] } }) = true ∧
    goes (.handleTableRequest 0 0) (tableAsk (.release 0x1001) fun s => { s with eng := { s.eng with tiles := [(1, tileX)] } }) = true ∧
    goes (.handleTableRequest 0 0) (tableAsk (.release 0x1002) id) = true ∧
    goes (.handleTableRequest 0 0) (tableAsk (.info 0x1001) fun s => { s with eng := { s.eng with tiles := [(1, tileX)] } }) = true ∧
    goes (.handleTableRequest 0 0) (tableAsk (.info 0x1001) id) = true ∧ quietB (waits 3 placedLine) = true := by decide +kernel
/-- A slice and a gang of one member. -/
def aSlice (p : SlicePhase) : Slice := { cluster := 0, a := (1, 1), b := (2, 1), c := (3, 1), phase := p, status := 0, w0 := 0, flags := 0 }
def aGang (t : Option Nat) (p : SlicePhase) (cast : List (Nat × Tile)) : Gang :=
  { ticket := t, rows := 1, cols := 1, m := 1, n := 1, k := 32, zero := true, slices := [aSlice p], aCast := cast, bCast := cast }
/-- The scene in which it runs at cluster 0. -/
def ganged (g : Gang) (req : List (Nat × Nat × Nat)) (lane : List LaneEntry) (f : Run → Run) : State :=
  let s := scene (waits 3) id
  let r : Run := f { aRun 3 1 [] with e := { aCommand 3 with cmd := BitVec.ofNat 256 (0x21 * 2 ^ 248 + 2 ^ 244 + 0x3001 * 2 ^ 80) }, gang := some g }
  { s with
    sched := { s.sched with cycle := 5 }
    eng := { s.eng with
      tiles := [(1, { tileX with cols := 32 }), (2, { tileX with rows := 32 }), (3, tileX)], running := [(0, [r])]
      seqs := s.eng.seqs.set 0 { next := 4, requests := req }, lanes := [(0, lane)] } }
/-- The gang's slice in the lane of cluster 0. -/
def inLane : LaneEntry := { ticket := 4, home := 0, cmd := 3, index := 0, arrival := some 1 }
theorem witness_TablesAndGangs_gangs : goes (.gangTicketGrant 0 0) (ganged (aGang none .waits []) [(1, 0, 3)] [] id) = true ∧
    (ganged (aGang none .waits []) [(1, 0, 3)] [] id).gangOf 0 3 = some (aGang none .waits []) ∧
    refuses (.gangTicketGrant 0 0) (ganged (aGang none .waits []) [(1, 0, 3)] (List.replicate 8 inLane) id) = true ∧
    goes (.gangSliceStart 0 0) (ganged (aGang (some 4) .waits []) [] [inLane] id) = true ∧ refuses (.gangSliceEnd 0 0) (ganged (aGang (some 4) .waits []) [] [inLane] id) = true ∧
    (ganged (aGang (some 4) .waits []) [] [inLane] id).memberBusy 0 inLane (aSlice .waits) = false ∧
    goes (.gangSliceEnd 0 0) (ganged (aGang (some 4) .started [(0, { tileX with rows := 32, cols := 32 })]) [] [inLane] id) = true ∧
    refuses (.gangSliceStart 0 1) (ganged (aGang (some 4) .waits []) [] [inLane, inLane] id) = true ∧
    refuses (.engineCommandEnd 0 0 0) (ganged (aGang (some 4) .waits []) [] [] id) = true ∧ goes (.engineCommandEnd 0 0 0) (ganged (aGang (some 4) .ended []) [] [] id) = true := by
  decide +kernel
theorem witness_TablesAndGangs_cache : refuses (.rowCacheHalving 0) (scene id id) = true ∧
    (let s := scene id id
     goes (.rowCacheHalving 3) { s with eng := { s.eng with rowCaches := s.eng.rowCaches.set 3 { RowCache.reset with due := true } } } = true) := by decide +kernel

/-! ### Spawn requests, submissions -/

/-- A spawn request of ASID 0 at cluster 0. -/
def aSpawn (home : Option Nat) (o : SpawnOrigin) : SpawnReq :=
  { asid := 0, home := home, issuer := 0, entry := 0x1000, regs := [1, 2], cls := 1, priv := 0, roam := false, launch := 0xFFF, floor := 0, dies := 1, addr := 0, v := 0, step := 0
    acct := none, origin := o, id := 2 }
/-- It is on its way; the pool of cluster 0 has line 0x21 on top, or is not in use. -/
def spawning (pool : Bool) (r : SpawnReq) : State :=
  let s := inAir (scene id id) fun x => { x with spawns := [r] }
  let e := s.poolEntry 0 0
  { s with mem := { s.mem with bytes := if pool then [(0x10000, 0x21), (e + 2, 1), (e + 7, 0x80), (e + 24, 1)] else [] } }
theorem witness_SpawnsAndSubmissions_spawns : (spawning true (aSpawn (some 0) .fire)).poolPeek 0 0 = some (0x21, 0x21) ∧
    goes (.spawnRequest 0) (spawning true (aSpawn (some 0) .fire)) = true ∧ (spawning false (aSpawn (some 0) .fire)).poolPeek 0 0 = none ∧
    goes (.spawnRequest 0) (spawning false (aSpawn (some 0) .fire)) = true ∧ (spawning true (aSpawn (some 0) .fire)).spawnCancelled (aSpawn (some 0) .fire) = false ∧
    (let s := spawning false (aSpawn (some 9) .fire)
     goes (.spawnRequest 0) { s with mgmt := { s.mgmt with mapped := [9] } } = true) := by decide +kernel
/-- A submission of eight words. -/
def submission (l : List Nat) : BitVec 512 := BitVec.ofNat 512 (((List.range l.length).zip l).map fun x => x.2 * 2 ^ (64 * x.1)).sum
theorem witness_SpawnsAndSubmissions_host : goes (.submissionWrite 1 0 (submission [5, 1, 2, 3, 4])) (scene id id) = true ∧
    goes (.submissionWrite 1 0 (submission [5, 1, 2, 3, 4, 1])) (scene id id) = true ∧ refuses (.submissionWrite 2 0 (submission [5])) (scene id id) = true ∧
    goes (.startRequest 0 0 (submission [0, 0x1000, 0])) (spawning true (aSpawn none .host)) = true ∧ goes (.startRequest 0 0 (submission [0, 0x1004, 0])) (scene id id) = true ∧
    (scene id id).mgmt.ready.getLsbD 33 = true := by decide +kernel
/-- The test machine with a launch in slot 5 and the placed context of it. -/
theorem witness_SpawnsAndSubmissions_done : let f := Line.onCtx fun c => { c with launch := 5 }
    let q : Launch := { asid := 0, job := 3, jobacc := 0, maq := 0, work := 0, group := 10, groups := [], insts := [], cancelled := false, byJob := false }
    let s := { issuing f with launch := { (issuing f).launch with table := [(5, q)] } }
    issuesB (headWait (.quitDone g0) g0 0 0) s (f placedLine) = true ∧ (f placedLine).c.st.pend = 0 ∧ s.unacked 64 = false ∧ SMap.get? s.launch.table 5 = some q ∧
      goes (.quitDone g0) s = true ∧ SMap.get? (issuing f).launch.table 5 = none ∧ goes (.quitDone g0) (issuing f) = true := by decide +kernel

/-! ### The fabric and the loss of a die -/

/-- The scene at fabric cycle n. -/
def atCycle (n : Nat) : State := { scene id id with sched := { (scene id id).sched with cycle := n } }
/-- The scene with a switch or a lane in a power state. -/
def switched (sw : Nat) (p : PowerState) (n : Nat) : State := { atCycle n with fab := { (scene id id).fab with switches := [(sw, p)] } }
def laned (ln : Nat) (x : Lane) (n : Nat) : State := { atCycle n with fab := { (scene id id).fab with lanes := [(ln, x)] } }
theorem witness_SwitchesLanesAndLinks_switches : (scene id id).live 3 = true ∧ goes (.switchPowerDown 1535) (switched 1535 (.up 0 0) 512) = true ∧
    refuses (.switchPowerDown 1535) (switched 1535 (.up 1 0) 512) = true ∧ goes (.switchWake 1535) (switched 1535 (.down 3) 9) = true ∧
    goes (.switchPowerUp 1535) (switched 1535 (.waking 24) 24) = true ∧ refuses (.switchPowerUp 1535) (switched 1535 (.waking 25) 24) = true ∧
    refuses (.switchWake 1536) (switched 1536 (.down 3) 9) = true := by decide +kernel
/-- R384: a wake in the cycle in which a switch would power down keeps it up; one cycle later it comes up 24 cycles on. -/
theorem witness_SwitchesLanesAndLinks_wakes : let sw (n : Nat) (s : State) : Option PowerState := match exec (.switchWake 7) s with
      | .next t => some (t.switch n)
      | .fault _ => none
      | .refused _ => none
    sw 7 (switched 7 (.down 512) 512) = some (.up 512 513) ∧ sw 7 (switched 7 (.down 512) 513) = some (.waking 537) ∧
    sw 7 (switched 7 (.waking 537) 520) = some (.waking 537) ∧ sw 7 (switched 7 (.up 0 0) 40) = some (.up 40 41) := by decide +kernel
/-- A lane that has seen no error. -/
def aLane (p : PowerState) : Lane := { power := p, errors := 0, retired := false }
theorem witness_SwitchesLanesAndLinks_lanes : (scene id id).laneUp 65536 = true ∧ goes (.bulkLanePowerDown 65536) (laned 65536 (aLane (.up 0 0)) 4096) = true ∧
    refuses (.bulkLanePowerDown 65536) (laned 65536 (aLane (.up 1 0)) 4096) = true ∧ goes (.bulkLaneWake 65536) (laned 65536 (aLane (.down 3)) 9) = true ∧
    goes (.bulkLanePowerUp 65536) (laned 65536 (aLane (.waking 24)) 24) = true ∧ refuses (.bulkLanePowerDown 0) (laned 0 (aLane (.up 0 0)) 4096) = true ∧
    (let s := laned 65536 (aLane (.up 0 0)) 4096
     refuses (.bulkLanePowerDown 65536) { s with fab := { s.fab with carried := [(0, 9)] } } = true) := by decide +kernel
theorem witness_SwitchesLanesAndLinks_links : goes (.linkCrcError 0) (scene id id) = true ∧ goes (.laneRetire 0) (laned 0 { aLane (.up 0 0) with errors := 2 } 0) = true ∧
    refuses (.laneRetire 0) (laned 0 { aLane (.up 0 0) with errors := 1 } 0) = true ∧ goes (.linkPlaneDown 3 1) (scene id id) = true ∧ (scene id id).planeUp 7 = true ∧
    (scene id id).planeUp 6 = true ∧ (scene id id).planeUp 0 = true ∧
    refuses (.linkPlaneDown 3 2) (scene id id) = true ∧ goes (.dusetLinkLoss 3 3) (scene id id) = true ∧ refuses (.dusetLinkLoss 3 4) (scene id id) = true ∧
    refuses (.linkCrcError 0) (laned 0 { aLane (.up 0 0) with retired := true } 0) = true := by decide +kernel
/-- Opposite dies: through D1 while it is live, through D3 when it is lost or being quiesced. -/
theorem witness_SwitchesLanesAndLinks_paths : (scene id id).way 0 2 = [0, 1, 2] ∧ (scene id id).way 2 0 = [2, 3, 0] ∧ (withoutD3 (scene id id)).way 2 0 = [2, 1, 0] ∧
    omegaPath 5 63 = [(0, 5, 0), (1, 11, 0), (2, 23, 0), (3, 15, 1), (4, 31, 0), (5, 31, 1)] := by decide +kernel
/-- The command of the placed context, as a request. -/
def theRequest : Option Request := (posting false (fillWord 0) id).requestOf (.event (.commandAccept 0 0))
/-- It has left its port, or has come to its destination's. -/
def sentOut (b : Bool) : State :=
  let s := posting false (fillWord 0) id
  { s with fab := { s.fab with sent := [(9, { left := 0, way := [0], arrived := b })], left := 1 } }
/-- What a choice of the fabric answers. -/
def chooses (x : Choice) (s : State) : Bool := act x s matches .next _
/-- The command still waits at its port, which has no token of ASID 0. -/
def noTokens : State :=
  let s := posting false (fillWord 0) id
  { s with fab := { s.fab with ports := [(0, { buckets := [], active := [], last := 4095, filled := 0 })] } }
theorem witness_SwitchesLanesAndLinks_request :
    theRequest.map (fun r => (r.id, r.src, r.dst, r.plane, r.ready, r.asid)) = some (9, 0, 0, 0, true, 0) ∧
    ((posting false (fillWord 0) id).requests.find? fun q => q.id == 9).map (fun r => r.order) = theRequest.map (fun r => r.order) := by decide +kernel
theorem witness_SwitchesLanesAndLinks_injects : chooses (.inject 9) (posting false (fillWord 0) id) = true ∧ chooses (.inject 9) (sentOut false) = false ∧
    chooses (.inject 9) noTokens = false ∧
    chooses (.arrive 9) (sentOut false) = true ∧ chooses (.arrive 9) (sentOut true) = false ∧ chooses (.arrive 9) noTokens = false ∧
    chooses (.event (.commandAccept 0 0)) { sentOut true with sched := { (sentOut true).sched with cycle := 4 } } = true ∧ chooses (.event (.commandAccept 0 0)) (sentOut false) = false := by decide +kernel
/-- The scene in which a die drains to a deadline. -/
def draining (d : Fin 4) (at_ : Nat) : State :=
  let s := scene id id
  { s with fab := { s.fab with dies := s.fab.dies.set d { s.fab.dies[d] with drain := some (at_, 9) } } }
theorem witness_DieLoss_loses : SMap.risingFrom 0 (scene id id).ctx.lines = true ∧ goes (.allLinksDown 3) (scene id id) = true ∧
    refuses (.allLinksDown 3) (withoutD3 (scene id id)) = true ∧ (draining 3 9).drained 3 = true ∧ goes (.dieDrainEnd 3) (draining 3 9) = true ∧ refuses (.dieDrainEnd 3) (draining 3 0) = true ∧ chooses .idle (draining 3 0) = false ∧
    refuses (.dieDrainEnd 3) (scene id id) = true ∧ goes (.dieDrainDeadline 3) (draining 3 0) = true ∧ refuses (.dieDrainDeadline 3) (draining 3 1) = true ∧
    refuses (.dieDrainDeadline 3) (scene id id) = true := by decide +kernel
/-- R385: the last plane toward D3 goes down, and D3 with it. -/
theorem witness_DieLoss_last : let s : State := { scene id id with fab := { (scene id id).fab with planesDown := [4, 5, 6] } }
    s.planeUp 7 = true ∧ s.planeUp 0 = true ∧ (s.planeDown 7).cutOff 3 = true ∧ (s.planeDown 7).cutOff 0 = false ∧ goes (.linkPlaneDown 3 1) s = true := by decide +kernel
/-- The placed context has touched D3 and a load from there is in flight. -/
theorem witness_DieLoss_loads : let f := setSt fun t => { t with dies := 9, pend := 8 }
    let a := anAccess (.ld .u64) 0x90000 (some (rangeFrom (2 ^ 40) 8))
    let s0 := inAir (issuing f) fun x => { x with pend := [held 3 a] }
    let s := { s0 with
      mem := { s0.mem with homes := [(2 ^ 40, 2 ^ 41, 3)] }
      mgmt := { s0.mgmt with based := false } }
    s.ctx.lines = [(64, f placedLine)] ∧ s.pendOn 3 (held 3 a) = true ∧ quietB (f placedLine) = true ∧ (f placedLine).place.ownerDie = some 0 ∧
      (f placedLine).c.st.dies.getLsbD 3 = true ∧ s.fab.sent = [] ∧ (s.asidRegs 0).ringSize = 0 ∧ s.live 3 = true ∧ s.live 0 = true ∧
      goes (.allLinksDown 3) s = true := by decide +kernel

/-! ### Neriup, errors, the host, power, time and boot -/

/-- The code with which Neriup refuses, where it does. -/
def refusedBy (i : Instr) (s : State) : Bool :=
  match exec i s with
  | .next t => (t.mgmt.replies.getLast? matches some (.refused _))
  | .fault _ => false
  | .refused _ => false
/-- The scene of a package that has booted. -/
def booted : State := { scene id id with mgmt := { (scene id id).mgmt with bootStage := 2 } }
theorem witness_ResetsAndDegradation : (scene id id).mgmt.ready.getLsbD 35 = true ∧ goes (.dieReset 3 1000) (scene id id) = true ∧ (scene id id).live 3 = true ∧
    ((scene id id).die 3).drain = none ∧ goes (.dieReset 3 999) (scene id id) = true ∧ goes (.dieReset 3 1000) (withoutD3 (scene id id)) = true ∧
    goes (.dieReset 3 0) (scene id id) = true ∧ goes (.dieRejoin 3 5) (withoutD3 booted) = true ∧ refuses (.dieRejoin 3 1) (withoutD3 (scene id id)) = true ∧
    refuses (.dieRejoin 3 0) (withoutD3 booted) = true ∧ refuses (.dieRejoin 3 1) booted = true ∧
    refuses (.dieRejoin 3 5) (withoutD3 { booted with mgmt := { booted.mgmt with based := false } }) = true ∧ goes (.mapOutCluster 191) (scene id id) = true ∧
    goes (.mapOutCluster 192) (scene id id) = true ∧ goes (.retireHbmChannel 3 63) (scene id id) = true ∧ goes (.retireHbmChannel 3 64) (scene id id) = true ∧
    goes (.mapOutCluster 191) (withoutD3 (scene id id)) = true ∧ refuses (.mapOutCluster 0) State.reset = true := by decide +kernel
theorem witness_ResetsAndDegradation_refused : refusedBy (.dieReset 3 999) (scene id id) = true ∧ refusedBy (.dieReset 3 1000) (scene id id) = false ∧
    refusedBy (.mapOutCluster 192) (scene id id) = true ∧ refusedBy (.retireHbmChannel 3 64) (scene id id) = true ∧
    refusedBy (.retireHbmChannel 3 63) (withoutD3 (scene id id)) = false := by decide +kernel
/-- A key pair, and an object that names one and verifies. -/
def aPair : KeyPair := { rsa := 5, slh := 6 }
def byPair (p : KeyPair) : Signed := ⟨p, true, true⟩
/-- The scene in which pairs are enrolled. -/
def enrolled (l : List KeyPair) : State := { scene id id with mgmt := { (scene id id).mgmt with keys := l } }
theorem witness_NeriupAnswers : (∀ i ∈ [Instr.readCounters 0, .readErrorRecords, .readBringupParameters, .attest 0, .setPowerLimit 1200, .setPowerLimit 2401,
      .enrolKeyPair aPair (byPair ⟨0, 0⟩), .enrolKeyPair aPair (byPair aPair), .withdrawKeyPair aPair (byPair ⟨0, 0⟩)], goes i (scene id id) = true ∧ refuses i State.reset = true) ∧
    aPair ∉ (scene id id).mgmt.keys ∧ aPair ∈ (enrolled [aPair]).mgmt.keys ∧ (byPair ⟨0, 0⟩).pair = (scene id id).mgmt.rootKeys ∧
    [Instr.setPowerLimit 1199, .setPowerLimit 1200, .setPowerLimit 2400, .setPowerLimit 2401, .enrolKeyPair aPair (byPair ⟨0, 0⟩), .enrolKeyPair aPair (byPair aPair),
      .enrolKeyPair aPair ⟨⟨0, 0⟩, true, false⟩, .withdrawKeyPair aPair (byPair ⟨0, 0⟩)].map (fun i => refusedBy i (scene id id)) =
      [true, false, false, true, false, true, true, true] ∧
    refusedBy (.withdrawKeyPair aPair (byPair ⟨0, 0⟩)) (enrolled [aPair]) = false ∧ refusedBy (.enrolKeyPair aPair (byPair ⟨0, 0⟩)) (enrolled (List.replicate 8 ⟨1, 1⟩)) = true := by
  decide +kernel
/-- The scene with the alarm risen, quiet since a cycle, at cycle n. -/
def alarmed (since : Option Nat) (n : Nat) : State :=
  { atCycle n with mgmt := { (scene id id).mgmt with alarm := true, calm := since } }
theorem witness_ErrorsHostPowerAndTime : goes (.correctedError 3 6 0) (scene id id) = true ∧ refuses (.correctedError 3 7 0) (scene id id) = true ∧
    (let s := { scene id id with mgmt := { (scene id id).mgmt with corrected := [(0, 8)] } }
     goes (.recurringCorrectedError 0 0 0) s = true) ∧ refuses (.recurringCorrectedError 0 0 0) (scene id id) = true ∧ goes (.scrubUncorrectable 0x10000) (scene id id) = true ∧
    (scene id id).homeDie 0x10000 = some 0 ∧ (scene id id).homeDie (2 ^ 51) = none ∧ refuses (.scrubUncorrectable (2 ^ 51)) (scene id id) = true ∧
    goes (.hostHdmAccess 0x10000 none) (scene id id) = true ∧ goes (.hostHdmAccess 0x10000 (some [7])) (scene id id) = true ∧ refuses (.hostHdmAccess (2 ^ 51) none) (scene id id) = true ∧
    refuses (.hostHdmAccess 0x1003F (some [7, 7])) (scene id id) = true ∧ refuses (.hostHdmAccess 0x40000 (some [7])) (scene id id) = true ∧
    goes (.hostHdmAccess (2 ^ 40) (some [7])) (withoutD3 (scene id id)) = true ∧ chooses (.hostWrite (2 ^ 51) [7]) (scene id id) = true ∧
    chooses (.hostWrite 0x10000 [7]) (scene id id) = false := by decide +kernel
theorem witness_ErrorsHostPowerAndTime_alarm : goes (.powerAlarmRise 2401) (scene id id) = true ∧ refuses (.powerAlarmRise 2400) (scene id id) = true ∧
    (scene id id).mgmt.limit = 2400 ∧ (scene id id).mgmt.power = 0 ∧ goes (.powerAlarmClear 0) (alarmed (some 5) 2000005) = true ∧
    refuses (.powerAlarmClear 0) (alarmed (some 5) 2000004) = true ∧ refuses (.powerAlarmClear 0) (alarmed none 2000005) = true ∧
    refuses (.powerAlarmClear 1) (alarmed (some 5) 2000005) = true ∧ chooses .idle (alarmed (some 5) 2000005) = false ∧ chooses (.powerReading 2279) (scene id id) = true := by
  decide +kernel
/-- The scene with the next tick at a cycle. -/
def tickAt (n : Nat) : State := { scene id id with sched := { (scene id id).sched with tickAt := n } }
theorem witness_ErrorsHostPowerAndTime_tick : goes .timeBaseTick (tickAt 0) = true ∧ refuses .timeBaseTick (tickAt 1) = true ∧ chooses .idle (tickAt 0) = false ∧
    chooses .idle (tickAt 2) = false ∧
    chooses .idle { tickAt 2 with sched := { (tickAt 2).sched with cycle := 1 } } = true := by decide +kernel
/-- An object that is sound, of a version, with its signature block behind its header. -/
def anImage (n : Byte) : Image :=
  { size := 0x80 + 16704, bytes := [(0, 0x50), (1, 0x46), (2, 0x4F), (4, 1), (8, n), (0x40, 0x80)], rsaOk := true, slhOk := true }
theorem anImage_byte (n : Byte) (a : Nat) (h : a ≠ 0 ∧ a ≠ 1 ∧ a ≠ 2 ∧ a ≠ 4 ∧ a ≠ 8 ∧ a ≠ 0x40) : (anImage n).byteAt a = 0 := by
  obtain ⟨h0, h1, h2, h3, h4, h5⟩ := h
  simp only [Image.byteAt, anImage, SMap.getD, SMap.get?]
  simp [Ne.symm h0, Ne.symm h1, Ne.symm h2, Ne.symm h3, Ne.symm h4, Ne.symm h5]
theorem anImage_fields : ∀ n ∈ [(0 : Byte), 1], (anImage n).field 0 4 = 0x004F4650 ∧ (anImage n).field 4 2 = 1 ∧ (anImage n).profiles = ⟨0, 0, 8⟩ ∧
    (anImage n).sections = ⟨0, 0, 32⟩ ∧ (anImage n).symbols = ⟨0, 0, 32⟩ ∧ (anImage n).relocations = ⟨0, 0, 24⟩ := by decide +kernel
theorem anImage_sound (n : Byte) (m : n ∈ [(0 : Byte), 1]) : ObjectSound (anImage n) := by
  obtain ⟨magic, fver, p, s, y, r⟩ := anImage_fields n m
  simp only [ObjectSound, magic, fver, p, s, y, r]
  refine ⟨Nat.le_add_right _ _, trivial, trivial, fun x h => ?_, fun a h => anImage_byte n a (by omega), fun _ h => absurd h (Nat.not_lt_zero _),
    fun _ h => absurd h (Nat.not_lt_zero _), fun _ h => absurd h (Nat.not_lt_zero _)⟩
  simp only [List.mem_cons, List.not_mem_nil, or_false] at h
  rcases h with rfl | rfl | rfl | rfl <;> exact Nat.zero_le _
/-- Reset, with a boot stage and a version fuse. -/
def booting (n : Nat) (v : BitVec 32) : State := { State.reset with mgmt := { State.reset.mgmt with bootStage := n, secver := v } }
/-- Bring-up parameters, and nothing to map out. -/
def someParams : BringUp := { gtBase := 1, ptBase := 2, errBase := 3, subBase := 4, areas := [(0x100, 0x80)] }
def nothingOut : MapOut := ⟨[], []⟩
/-- R400: an enrolled pair signs objects, and no firmware image. -/
theorem witness_BootAndColdReset_loads : let s := enrolled [aPair]
    [anImage 1, { anImage 1 with bytes := (anImage 1).bytes ++ [(0x80, 5), (0x80 + 432, 6)] }].map (fun i => (imageStatus s.mgmt i, loadStatus s.mgmt i)) =
      [(0, 0), (2, 0)] := by decide +kernel
theorem witness_BootAndColdReset_status : ImageStatus (booting 0 1) (anImage 1) 0 ∧ ImageStatus (booting 0 1) (anImage 0) 3 ∧
    ImageStatus (booting 0 1) { anImage 1 with slhOk := false } 2 ∧ ¬ ObjectSound { anImage 1 with size := 0x7F } := by
  refine ⟨⟨fun n => absurd (anImage_sound 1 (by decide)) n, fun _ n => absurd (by decide +kernel) n, fun _ _ => by decide +kernel⟩,
    ⟨fun n => absurd (anImage_sound 0 (by decide)) n, fun _ n => absurd (by decide +kernel) n, fun _ _ => by decide +kernel⟩,
    ⟨fun n => absurd (anImage_sound 1 (by decide)) n, fun _ _ => rfl, fun _ g => absurd g (by decide +kernel)⟩, fun h => absurd h.1 (by decide)⟩
theorem witness_BootAndColdReset : goes (.bootStage0 (anImage 1)) (booting 0 1) = true ∧
    goes (.bootStage0 (anImage 0)) (booting 0 1) = true ∧ refuses (.bootStage0 (anImage 1)) (booting 1 0) = true ∧
    goes (.bootStage1 (List.replicate 4 (anImage 1)) 3) (booting 1 0) = true ∧ goes (.bootStage1 [anImage 1, anImage 0, anImage 1, anImage 1] 3) (booting 1 1) = true ∧
    goes (.bootStage1 [] 3) (booting 2 0) = true ∧
    refuses (.bootStage1 [anImage 1] 3) (booting 1 0) = true ∧ goes (.bootStage2 3 0x7F ⟨someParams, nothingOut⟩ true) (booting 2 0) = true ∧
    goes (.bootStage2 3 0x7F ⟨someParams, ⟨[150], [63]⟩⟩ true) (booting 2 0) = true ∧ refuses (.bootStage2 3 0x7F ⟨someParams, ⟨[1], []⟩⟩ true) (booting 2 0) = true ∧
    refuses (.bootStage2 3 0x7F ⟨someParams, nothingOut⟩ true) (booting 0 0) = true ∧ ((booting 2 0).die 3).drain = none ∧ (booting 2 0).live 3 = true := by
  decide +kernel

/-! ### What every step keeps -/

theorem witness_StepKeepsSound : State.reset.sound ∧ ∃ t, step State.reset = .next t := by
  unfold State.sound
  exact ⟨by decide, _, rfl⟩

theorem witness_StepKeepsOrdered : Ordered State.reset ∧ ∃ t, step State.reset = .next t :=
  ⟨⟨rfl, rfl, rfl, rfl, rfl, rfl, rfl, ⟨fun _ h => (nomatch h), fun _ h => (nomatch h)⟩, rfl, rfl, rfl, rfl, fun _ h => (nomatch h), rfl⟩, _, rfl⟩

end Sys2Proof.Tests
end

