-- ==== Sys2Proof/Tests/Witness6.lean ====
section
/-! SUPPORT. More states that meet the hypotheses of the statements: planes that are down, copies that come home, bags that deliver, other traffic, dies
that are lost together. -/

set_option Elab.async false

open Sys2Proof Sys2Proof.Machine

namespace Sys2Proof.Tests

/-! ### Words whose reads lie behind a plane that is down -/

/-- Memory from 0x10000 is homed on D1, and a plane toward it is down: 1 the bulk plane, 0 the narrow one. -/
def farther (plane : Nat) (s : State) : State :=
  { s with
    mem := { s.mem with homes := [(0x10000, 0x20000, 1)] }
    fab := { s.fab with planesDown := [plane] } }
theorem witness_MessagesIssue_reach : let s := farther 1 (issuing (boxed 1))
    (Issues recvHead s placedKey (boxed 1 placedLine) ∧ s.orderBusy placedKey (boxed 1 placedLine) = false ∧ (boxed 1 placedLine).c.inboxCount ≠ 0 ∧
      s.inReach (boxed 1 placedLine).c 0x10000 32 = false) ∧ (issuing (boxed 1)).inReach (boxed 1 placedLine).c 0x10000 32 = true ∧
    (Issues rgetHead (acquiring id) placedKey placedLine ∧ (acquiring id).orderBusy placedKey placedLine = true ∧ (issuing id).orderBusy placedKey placedLine = false) ∧
    refuses (.reducerPop 0) (inAir (farther 1 (scene (boxed 1) id)) fun x => { x with reds := [aRed 1] }) = true :=
  ⟨wit (by decide) (by decide), by decide, wit (by decide) (by decide), by decide +kernel⟩
theorem witness_EventsIssue_reach : let s := farther 1 (issuing (twoR 0 0x10020))
    Issues (cfgHead true) s placedKey (twoR 0 0x10020 placedLine) ∧ s.orderBusy placedKey (twoR 0 0x10020 placedLine) = false ∧
      s.inReach placedLine.c 0x10020 32 = false ∧ (issuing id).inReach placedLine.c 0x1020 32 = true := wit (by decide) (by decide)
theorem witness_SystemRequests_reach : let s := farther 1 (issuing (at1 0x10000))
    (Issues (upHead (.launch g0 3 (rg 1))) s placedKey (at1 0x10000 placedLine) ∧ s.launchReach placedLine.c 0x10000 = false) ∧
    (requesting 0 (at1 0x10000)).launchReach placedLine.c 0x10000 = true ∧ (requesting 0 (at1 0x10000)).chains = [] :=
  ⟨wit (by decide) (by decide), by decide +kernel, by decide⟩
theorem witness_TasksIssue_reach : let s := farther 0 (issuing (twoR 48 8))
    Issues spawnHead s placedKey (twoR 48 8 placedLine) ∧ s.clusterGone 48 = false ∧ s.reaches narrow 0 1 = false ∧ s.reaches narrow 0 0 = true :=
  wit (by decide) (by decide)
/-- A CANCEL of launch 5, a context of which has posted a command that no queue has taken. -/
theorem witness_SystemRequests_void : let f := at1 5 ∘ Line.onCtx fun c => { c with launch := 5 }
    let e := anEntry 1 (.post (fillWord 0) 3 false)
    let s := { launched f with fl := { (launched f).fl with sends := [(0, [e])] } }
    Issues (upHead (.cancelLaunch g0 3 (rg 1))) s placedKey (f placedLine) ∧ e ∈ s.sendsOf 0 ∧ e.asid = (f placedLine).c.asid ∧
      SMap.get? s.ctx.lines placedKey = some (f placedLine) ∧ (f placedLine).ofLaunch 0 5 = true := wit (by decide) (by decide +kernel)
/-- TRAP whose word a replay marker names. -/
theorem witness_TrapsOnPurpose_again : Issues (headWait (.trap g0 3 (rg 2)) g0 4 0) (issuing again) placedKey (again placedLine) ∧
    (again placedLine).reissue ≠ none := wit (by decide) (by decide)

/-! ### Copies and orderings -/

/-- D1's copy of the line at 0x10000 with 7 in its first byte, dirty; b says whether its first unit is uncorrectable. -/
def dirtyCopy (b : Bool) : DieCopy := { data := 7, dirty := 1, bad := if b then 1 else 0, tags := [] }
/-- It is there, and bring-up has set nothing. -/
def copied (b : Bool) (s : State) : State :=
  { s with
    mem := { s.mem with copies := [(copyKey 1 0x200, dirtyCopy b)] }
    mgmt := { s.mgmt with based := false } }
theorem witness_AccessesThatStop_copies : (∀ b, let s := copied b (scene id id)
      SMap.get? s.mem.copies (copyKey 1 0x200) = some (dirtyCopy b) ∧ SMap.risingFrom 0 s.mem.copies = true ∧ Memory.wf s.mem.bytes = true ∧
        s.lineAt (128 * 0x200) = none ∧ s.mgmt.based = false) ∧
    SMap.get? (copied true (scene id id)).mem.copies (copyKey 0 0x200) = none := by decide +kernel
/-- The placed context, now on D2, loads the byte that it has stored through D1's copy. -/
def homeward : State :=
  let a := { anAccess (.ld .u8) 0x10000 (some [0x10000]) with cluster := 96, swc := [true] }
  let s := copied false (air [a])
  { s with mem := { s.mem with wrote := [(0x200, [(s.nameOf 64, 1)])] } }
theorem witness_AccessesThatStop_home : homeward.homeDie 0x10000 = some 0 ∧ dieOf 96 = 2 ∧
    ((SMap.getD homeward.mem.wrote 0x200 []).filter fun x => x.1 == homeward.nameOf 64 && x.2 != 2) = [(homeward.nameOf 64, 1)] ∧
    SMap.get? homeward.mem.copies (copyKey 2 0x200) = none ∧ homeward.lineAt (128 * 0x200) = none ∧ (∀ x ∈ homeward.mem.stores, x.who ≠ homeward.nameOf 64) ∧
    (match exec (.lineWrite 0) homeward with
      | .next t => (SMap.get? t.ctx.lines 64).map fun l => l.c.reg 3
      | _ => none) = some 7 := by decide +kernel
/-- A CANCEL has marked the context that waits for its fence. -/
theorem witness_OrderingsAndRestartsEnd_cancelled : let f := fun l => { waits 10 l with cancelled := true }
    let s := inAir (scene f id) fun x => { x with orders := [anOrder (.fence .none .sys)] }
    (f placedLine).lost = 0 ∧ (f placedLine).c.st.pend = 0 ∧ s.readsDone 64 5 = true ∧ s.writesDone 64 5 = true ∧ goes (.orderingComplete 0) s = true := by
  decide +kernel

/-! ### Offers, claims, swaps, groups -/

/-- Two messages of one context to one handle; and a target whose slot's die is lost. -/
theorem witness_DeliveriesAtOwners_behind : SameWay { toSecond handle2 with id := 4 } (toSecond handle2) ∧
    refuses (.messageDelivery 0 1) (buffered [toSecond handle2, { toSecond handle2 with id := 4 }] id id) = true := ⟨⟨rfl, rfl, .inr rfl⟩, by decide +kernel⟩
theorem witness_DeliveriesAtOwners_lost : let s := withoutD3 (buffered [toSecond handle2] id fun l => { l with place := .l1 144 0 })
    s.handlePage 0 0 handle2 = some (0x2080, placedPage) ∧ (s.seenBy 3).homeGone 0x2080 = false ∧ (Place.l1 144 0).ownerDie = some 3 ∧
      (s.seenBy 3).dieGone 3 = true ∧ goes (.messageDelivery 0 0) s = true := by decide +kernel
/-- The second line roams, and stands in cluster 1. -/
def roamer : Line → Line := fun l => setSt (fun t => { t with roam := true, cluster := 1 }) { l with place := .l1 1 0 }
theorem witness_SchedulerSteps_roams : (asked roamer).upperNeighbour 0 = some (roamer second).c.here ∧ (asked roamer).unacked 65 = false ∧
    (asked roamer).poisoned (rangeFrom (128 * 65) 128) = false ∧ goes (.claim 65 0 3 0) (asked roamer) = true := by decide +kernel
theorem witness_SchedulerSteps_near : let s := awaiting id (fun l => { l with place := .toL1 0 1 0 }) 1 none 0
    (s.slot 0 1 0).coming = some 65 ∧ s.poisoned (rangeFrom (128 * 65) 128) = false ∧ s.l1Count 0 1 < 64 ∧ goes (.contextL1Fill 0 1 0) s = true := by decide +kernel
/-- A group whose table entry has changed in the middle of an action of its bank. -/
theorem witness_GroupsAtBanks_held : let s := { churn 0 7 [] with groups := [(10, { Group.reset with owner := some 1 })], chains := [(0, [.advance 10])] }
    s.groupOwner 10 ≠ (s.group 10).owner ∧ s.chain 0 ≠ [] ∧ refuses (.groupClear 10) s = true := by decide +kernel

/-! ### Commands -/

/-- A command that CANCEL has found on its way. -/
theorem witness_CommandsInQueues_void : let s := inAir (posting false (fillWord 0) id) fun x =>
      { x with sends := [(0, [{ entryOf 3 (.post (fillWord 0) 3 false) with void := true }])] }
    ReleasesDone s { entryOf 3 (.post (fillWord 0) 3 false) with void := true } ∧ goes (.commandAccept 0 0) s = true :=
  ⟨fun _ h => (nomatch h), by decide +kernel⟩
/-- TFILL of this handle; POOL of this owner. -/
def fillOf (h : Nat) : BitVec 256 := BitVec.ofNat 256 (0x06 * 2 ^ 248 + h * 2 ^ 80)
def poolOf (owner : Nat) : BitVec 256 := BitVec.ofNat 256 (0x08 * 2 ^ 248 + owner * 2 ^ 72)
/-- Cluster 9 is mapped out. -/
def mapped9 (s : State) : State := { s with mgmt := { s.mgmt with mapped := [9], based := false } }
/-- This command on its way, with these gone. -/
def turned (wait : Bool) (w : BitVec 256) : State := mapped9 (withoutD3 (posting wait w (if wait then waits 3 else id)))
/-- `NoCommand` and `TurnedAway` as tests. -/
def noB (w : BitVec 256) : Bool :=
  let cop : Nat := (w.extractLsb' 248 8).toNat
  (cop == 0 || (decide (10 < cop) && decide (cop < 32)) || (decide (33 < cop) && decide (cop < 64)) || decide (73 < cop)) || w.extractLsb' 244 2 == 3 ||
    decide (4 < (w.extractLsb' 241 3).toNat) || w.getLsbD 240
def turnedB (seen : State) (w : BitVec 256) (status : Nat) : Bool :=
  let cop : Nat := (w.extractLsb' 248 8).toNat
  let h : Nat := (if cop = 0x02 ∨ cop = 0x0A then w.extractLsb' 144 32 else w.extractLsb' 80 32).toNat
  let owner : Nat := (w.extractLsb' 72 8).toNat
  let gone := seen.dieGone (h / 2 ^ 30)
  let c := h / 2 ^ 24 % 64
  (noB w && status == 1) ||
  (!noB w && (cop == 8 || cop == 9) && ((decide (192 ≤ owner) && status == 3) || (decide (owner < 192) && seen.clusterGone owner && status == 9))) ||
  (!noB w && cop != 8 && cop != 9 && ((gone && status == 9) || (!gone && decide (48 ≤ c) && status == 3) ||
    (!gone && decide (c < 48) && seen.clusterGone (h / 2 ^ 30 * 48 + c) && status == 9)))
theorem noB_iff (w : BitVec 256) : noB w = true ↔ NoCommand w := by
  simp only [noB, NoCommand, Bool.or_eq_true, Bool.and_eq_true, beq_iff_eq, decide_eq_true_eq, or_assoc]
theorem turned_of {seen : State} {w : BitVec 256} {n : Nat} (b : turnedB seen w n = true) : TurnedAway seen w n := by
  simp only [TurnedAway, ← noB_iff]
  simpa only [turnedB, Bool.or_eq_true, Bool.and_eq_true, Bool.not_eq_true', beq_iff_eq, bne_iff_ne, decide_eq_true_eq, or_assoc, and_assoc,
    Bool.not_eq_true] using b
/-- R80, R181: no command; a home on D3, which is lost; a cluster field of 48; a cluster that is gone; owners 192 and 9. -/
theorem witness_CommandsInQueues_turned : ∀ x ∈ [((0 : BitVec 256), 1), (fillOf 0xF0001001, 9), (fillOf 0x30001001, 3), (fillOf 0x09001001, 9), (poolOf 192, 3), (poolOf 9, 9)],
    ∀ wait : Bool, turnedB ((turned wait x.1).seenBy 3) x.1 x.2 = true ∧ goes (.commandAccept 0 0) (turned wait x.1) = true ∧
      quietB ((if wait then waits 3 else id) placedLine) = true := by decide +kernel
theorem witness_CommandsInQueues_here (x : BitVec 256) : ErrorsClear (mapped9 (posting false x id)) ∧ ReleasesDone (posting false x id) (entryOf 3 (.post x 3 false)) :=
  ⟨.inl rfl, fun _ h => (nomatch h)⟩
/-- R272, R273: the next generation of the first FREE entry is one that a command still holds; another entry's is not. -/
theorem witness_TablesAndGangs_held : let s := tableAsk (.alloc shapeX 0) fun s => { s with eng := { s.eng with held := [{ ref := (5, 1), tile := tileX }] } }
    nth? (s.freeEntries 0) 0 = some 0 ∧ (∀ h ∈ s.eng.held, h.ref ≠ (0 * 4096 + 0, 1)) ∧ goes (.handleTableRequest 0 0) s = true := by decide +kernel
/-- A slice ends with its block of C. -/
theorem witness_TablesAndGangs_block : let x : Tile := { tileX with rows := 32, cols := 32, data := [(0, 0x3F800000)] }
    let s := ganged (aGang (some 4) .started [(0, x)]) [] [inLane] id
    x.bad = [] ∧ (s.heldTile (3, 1)).bad = [] ∧ SMap.risingFrom 0 (s.heldTile (3, 1)).data = true ∧ (s.entry 3).live = true ∧ (s.entry 3).gen = 1 ∧
      (match exec (.gangSliceEnd 0 0) s with
        | .next t => some (SMap.getD (t.heldTile (3, 1)).data 0 0)
        | _ => none) = some 0x3F800000 := by decide +kernel
/-- R209: the least c with 1 ≤ 64 × 2^c is −6. -/
theorem witness_ElementwiseStarts_scale : IsScale 9 [.fin false 1 0] (-6) ∧ IsScale 9 [.inf true] 127 ∧ IsScale 9 [.nan] 0 := by
  refine ⟨⟨fun ⟨x, m, h⟩ => ?_, fun _ n => ?_, fun _ _ => ⟨-6, by decide, ?_, _, List.mem_singleton.2 rfl, by decide⟩⟩, ⟨fun _ => rfl, fun n => ?_, fun n => ?_⟩,
    ⟨fun ⟨x, m, h⟩ => ?_, fun _ _ => rfl, fun _ ⟨x, m, b, k, e, h, _⟩ => ?_⟩⟩
  · obtain rfl := List.mem_singleton.1 m
    exact absurd h (by decide)
  · exact absurd ⟨_, List.mem_singleton.2 rfl, false, 1, 0, rfl, by decide⟩ n
  · intro x m
    obtain rfl := List.mem_singleton.1 m
    decide
  · exact absurd ⟨_, List.mem_singleton.2 rfl, .inr rfl⟩ n
  · exact absurd ⟨_, List.mem_singleton.2 rfl, .inr rfl⟩ n
  · obtain rfl := List.mem_singleton.1 m
    exact absurd h (by decide)
  · obtain rfl := List.mem_singleton.1 m
    exact absurd h (by simp)

/-- POOL with the index tile hA, into hC or into the result word; ROWADD of hA to row 7. -/
def poolCase (h : Nat) : Case := ⟨commandWord 0x08 hA 0 h (0x10080 / 128 * 2 ^ 7), aTile 3 1 1, f22, aTile 7 1 16, 0⟩
def rowaddCase : Case := ⟨commandWord 0x09 hA 7 0 0x10080, aTile 7 1 16, f22, f22, 0⟩
/-- The bytes of a range as the case's engine reads them. -/
def Case.read (x : Case) (a n : Nat) : List Byte := match x.state.engRead 0 0 a n with
  | .ok l => l
  | .error _ => []
/-- Its run, whose bag is in this phase. -/
def Case.bag (x : Case) (p : BagPhase) (l : List Nat) : Bag :=
  { phase := p, desc := x.read 0x10080 128, record := x.read 0x10100 128, a := l, b := [], aFmt := 7, floor := 0 }
def Case.bagRun (x : Case) (p : BagPhase) (l : List Nat) : Run :=
  { aRun 3 1 [] with e := { aCommand 3 with cmd := x.cmd }, bag := some (x.bag p l) }
def Case.inBag (x : Case) (p : BagPhase) (l : List Nat) : State :=
  let s := x.state
  { s with eng := { s.eng with queues := [], running := [(1, [x.bagRun p l])] } }
/-- It ends with one or two messages more, with its status, flags and w0. -/
def Case.endsBag (x : Case) (p : BagPhase) (l : List Nat) (sends status flags : Nat) : Bool := match exec (.engineCommandEnd 0 1 0) (x.inBag p l) with
  | .next t => t.runs 0 1 == [] && (t.sendsOf 0).length == sends && ((t.sendsOf 0).getLast?.any fun y => match y.what with
      | .msg _ _ _ _ _ _ (.completion i) => i.status == status && i.flags == BitVec.ofNat 8 flags
      | _ => false)
  | .fault _ => false
  | .refused _ => false
theorem witness_MatrixAndBagStarts_ends : (∀ x ∈ [poolCase 0, poolCase hC, rowaddCase], ∀ p ∈ [BagPhase.pinned 0x10100, .stopped 7 5 none, .stopped 7 5 (some 0x10100)],
      let s := x.inBag p [7, 9]
      s.runs 0 1 = [x.bagRun p [7, 9]] ∧ SMap.risingFrom 0 s.eng.running = true ∧ s.chains = [] ∧ s.fl.cancels = [] ∧
        (match tableOf (x.bag p []).desc with
          | some t => t.rows == 8 && t.width == 16 && t.owners == [0] && (match versionOf t (x.bag p []).record with
            | some v => v.moves == 0 && v.shards == 0x12000 && v.pitch == 64
            | none => false)
          | none => false) = true ∧
        x.read 0x12000 8 = List.replicate 8 0 ∧ x.read 448 64 = List.replicate 64 0 ∧ (s.entry 3).live = true ∧ (s.entry 3).gen = 1 ∧
        (s.seenBy 3).clusterGone (tileCluster hC) = false ∧ SMap.risingFrom 0 (s.entry 3).data = true ∧ Memory.wf s.mem.bytes = true ∧ notYet ≠ 7) ∧
    (poolCase 0).endsBag (.pinned 0x10100) [7, 9] 2 0 4 = true ∧ (poolCase hC).endsBag (.pinned 0x10100) [7] 2 0 0 = true ∧
    rowaddCase.endsBag (.pinned 0x10100) [0x3F800000] 2 0 0 = true ∧ (poolCase hC).endsBag (.stopped 7 5 none) [7] 1 7 0 = true ∧
    (poolCase hC).endsBag (.stopped 7 5 (some 0x10100)) [7] 2 7 0 = true := by decide +kernel
/-- The bytes of the row that ROWADD rewrites are neither a context line's nor a pool's. -/
theorem witness_MatrixAndBagStarts_row : let s := rowaddCase.inBag (.pinned 0x10100) [0x3F800000]
    PlainBytes s (s.seenBy 3) (rangeFrom 448 64) ∧ (rangeFrom 448 64).Nodup ∧
      ((s.seenBy 3).engWrite 0 0 448 (List.replicate 64 0) matches .ok (.mem _ _ _)) = true := by
  refine ⟨⟨by decide +kernel, .inr (by decide +kernel)⟩, by decide +kernel, by decide +kernel⟩

/-! ### The Armature and the loss of a die -/

/-- A command of cluster 0 ends with an element in a tile of cluster 1, one port on; with no token it waits. -/
def farElem (tokens : Nat) : State :=
  let s := running [aRun 3 0 [.elems (4096 + 1, 1) [(0, 5)]]]
  { s with
    sched := { s.sched with cycle := 4 }
    fab := { s.fab with ports := [(0, { buckets := [(0, tokens)], active := [], last := 4095, filled := 0 })] } }
theorem witness_SwitchesLanesAndLinks_traffic : let x := Choice.event (.engineCommandEnd 0 1 0)
    (∀ n, (farElem n).requestOf x = none ∧ (farElem n).mergePair x = none) ∧ (farElem 5).crossings x ≠ [] ∧ (farElem 5).requests = [] ∧
      ((farElem 5).crossings x).all (farElem 5).crossable = true ∧ ((farElem 0).crossings x).all (farElem 0).crossable = false ∧
      chooses x (farElem 5) = true ∧ chooses x (farElem 0) = false := by
  refine ⟨fun _ => ⟨rfl, rfl⟩, ?_⟩
  decide +kernel
/-- Only D3 is lost when all planes toward it go down. -/
theorem witness_DieLoss_alone : let s := scene id id
    LostBy s (Toward · 3) (some 3) 3 ∧ ∀ d, d ≠ 3 → ¬ LostBy s (Toward · 3) (some 3) d := by
  have live : ∀ d < 4, (scene id id).live d = true := by decide +kernel
  have up : ∀ q < 8, (scene id id).planeUp q = true := by decide +kernel
  have others : ∀ d, d ≠ 3 → ¬ CutOff (scene id id) (Toward · 3) d := by
    rintro d n ⟨h, -, -, e⟩
    have a := e (2 * d) (.inl (by omega)) (up _ (by omega))
    have b := e (2 * ((d + 3) % 4)) (.inr (by omega)) (up _ (by omega))
    unfold Toward at a b
    omega
  refine ⟨⟨⟨by decide, live 3 (by decide), ⟨6, by decide, .inl rfl, .inl rfl⟩, fun _ h _ => h⟩, fun h => others 0 (by decide) (h.1 0 (by decide) (live 0 (by decide)))⟩,
    fun d n h => others d n h.1⟩

/-- A host write to the group table, of which the bank it reaches is in the middle of an action; and to another bank's part. -/
theorem witness_ErrorsHostPowerAndTime_table : let s := scene id id
    let t := { s with chains := [(0, [.advance 10])], mgmt := { s.mgmt with gtBase := 0x20000 } }
    t.tableHeld (rangeFrom 0x20000 1) = true ∧ refuses (.hostHdmAccess 0x20000 (some [7])) t = true ∧ t.tableHeld (rangeFrom 0x20800 1) = false ∧
      goes (.hostHdmAccess 0x20800 (some [7])) t = true := by decide +kernel

end Sys2Proof.Tests
end

