-- ==== Sys2Proof/Proofs/Advance.lean ====
section
/-! What issuing does to the context: the fields that `Line.advance` changes, how `nextRem` counts a lookahead window, and obligation O7. -/

namespace Sys2Proof.Machine

/-! ### The line past the instruction (R54, R62, R153, R245) -/

@[simp] theorem Line.advance_reissue (l : Line) (h : Head) (m : BitVec 8) (n : Nat) : (l.advance h m n).reissue = none := rfl
@[simp] theorem Line.advance_c_waitKind (l : Line) (h : Head) (m : BitVec 8) (n : Nat) : (l.advance h m n).c.waitKind = 0 := rfl
@[simp] theorem Line.advance_c_waitObj (l : Line) (h : Head) (m : BitVec 8) (n : Nat) : (l.advance h m n).c.waitObj = 0 := rfl
@[simp] theorem Line.advance_inboxWord (l : Line) (h : Head) (m : BitVec 8) (n : Nat) : (l.advance h m n).c.inboxWord = l.c.inboxWord := rfl
@[simp] theorem Line.advance_larem (l : Line) (h : Head) (m : BitVec 8) (n : Nat) :
    (l.advance h m n).c.st.larem = nextRem h l.reissue.isSome l.c.st.larem := rfl

/-- Of the status word only the full bits and what remains of the window change. -/
theorem Line.advance_c_st (l : Line) (h : Head) (m : BitVec 8) (n : Nat) :
    (l.advance h m n).c.st = { l.c.st with full := (l.advance h m n).c.st.full, larem := (l.advance h m n).c.st.larem } := rfl

theorem Line.advance_c_pc (l : Line) (h : Head) (m : BitVec 8) (n : Nat) :
    (l.advance h m n).c.pc = if l.reissue.isSome then l.c.pc else l.c.pc + 8 := rfl

theorem Line.advance_full (l : Line) (h : Head) (m : BitVec 8) (n : Nat) :
    (l.advance h m n).c.st.full = if l.reissue.isSome then l.c.st.full else l.c.st.full &&& ~~~m := rfl

theorem Line.advance_c_floor {l : Line} (e : l.onIssue = none) (h : Head) (m : BitVec 8) (n : Nat) : (l.advance h m n).c.floor = l.c.floor := by
  simp only [Line.advance, e]

/-- A full bit stays set unless its register is taken, which a re-issued word does not do (R62, R153). -/
theorem Line.advance_full_getLsbD (l : Line) (h : Head) (n : Nat) {r : Nat} (hr : r < 8) :
    (l.advance h (h.takesNow l) n).c.st.full.getLsbD r = (l.c.st.full.getLsbD r && !(l.reissue.isNone && h.takes.getLsbD r)) := by
  rw [Line.advance_full, Head.takesNow]
  cases l.reissue with
  | none => simp [hr]
  | some a => simp

/-! ### The lookahead window (R65, R66, R67) -/

theorem toNat_rem_sub_one {rem : BitVec 4} (h : rem ≠ 0) : (rem - 1).toNat = rem.toNat - 1 := by bv_omega

/-- R66 for the classes that open no window; a closed one stays closed, as truncated subtraction says. -/
theorem nextRem_of_not_long {h : Head} (hc : h.cls ≠ .long) (again : Bool) (rem : BitVec 4) :
    (nextRem h again rem).toNat = rem.toNat - 1 := by
  have e : nextRem h again rem = if rem = 0 then 0 else rem - 1 := by
    cases k : h.cls with
    | long => exact absurd k hc
    | short => simp only [nextRem, k]
    | wait => simp only [nextRem, k]
  rw [e]
  split
  case isTrue z => simp [z]
  case isFalse z => exact toNat_rem_sub_one z

/-- R65 outside an open window. -/
theorem nextRem_long_closed {h : Head} (hc : h.cls = .long) : nextRem h false 0 = h.la := by simp [nextRem, hc]

/-- R65 inside an open window. -/
theorem nextRem_long_open {h : Head} (hc : h.cls = .long) {rem : BitVec 4} (z : rem ≠ 0) :
    (nextRem h false rem).toNat = min (rem.toNat - 1) h.la.toNat := by
  have e : nextRem h false rem = if (rem - 1).ult h.la then rem - 1 else h.la := by
    simp only [nextRem, hc, if_neg z, Bool.false_eq_true, if_false]
  rw [e, ← toNat_rem_sub_one z]
  split
  case isTrue lt => rw [BitVec.ult_iff_toNat_lt] at lt; omega
  case isFalse ge => rw [BitVec.ult_iff_toNat_lt] at ge; omega

/-- The count does not depend on the registers taken, so it serves the suppressed word, which takes none, as well (R126). -/
theorem Line.advance_countsWord (l : Line) (h : Head) (m : BitVec 8) (n : Nat) : CountsWord h l (l.advance h m n).c.st.larem.toNat := by
  rw [Line.advance_larem]
  refine ⟨fun hc hr z => ?_, fun hc hr z => ?_, fun hc => nextRem_of_not_long hc _ _⟩
  · have closed : l.c.st.larem = 0 := BitVec.eq_of_toNat_eq z
    rw [hr, closed]
    exact congrArg BitVec.toNat (nextRem_long_closed hc)
  · have opened : l.c.st.larem ≠ 0 := fun e => z (by rw [e]; rfl)
    rw [hr]
    exact nextRem_long_open hc opened

/-! ### O7 -/

theorem issueAdvancesContext_holds : issueAdvancesContext := by
  intro h s key l _
  refine ⟨fun hr => ?_, fun hr => ?_, Line.advance_reissue .., Line.advance_reg _ _ _ _,
    Line.advance_pred _ _ _ _, fun r hr => Line.advance_full_getLsbD l h _ hr,
    Line.advance_c_waitKind .., Line.advance_c_waitObj .., Line.advance_c_st .., Line.advance_c_gen .., Line.advance_c_asid ..,
    Line.advance_c_launch .., Line.advance_inboxWord .., fun e => Line.advance_c_floor e ..⟩
  · rw [State.past, Line.advance_c_pc, hr]
    rfl
  · rw [State.past, Line.advance_c_pc, if_pos (Option.isSome_iff_ne_none.mpr hr)]

theorem windowCountsWords_holds : windowCountsWords := by
  intro h s key l
  refine ⟨fun _ => Line.advance_countsWord .., fun f hi hb hc ha => ?_⟩
  exact ⟨_, l.advance h 0 s.sched.seq, issue_of_suppressed hi hb hc ha f, State.get?_setLine_self .., Line.advance_pend ..,
    Line.advance_countsWord ..⟩

/-- Settles O7: the line past a word is its line advanced, whose fields and window count are read off `Line.advance`. -/
theorem contextAdvances : Obligations.ContextAdvances := ⟨issueAdvancesContext_holds, windowCountsWords_holds⟩

end Sys2Proof.Machine
end

