-- ==== Sys2Proof/Proofs/NopTime.lean ====
section
/-! The two words that only advance or read the clock: a word of an opcode is fixed by its guard and its low 47 bits (R53), what TIME returns
(R232), and obligation O12. -/

namespace Sys2Proof

/-! ### A word is its guard and its low 47 bits (R53) -/

theorem toNat_append_add {m n : Nat} (x : BitVec m) (y : BitVec n) : (x ++ y).toNat = x.toNat * 2 ^ n + y.toNat := by
  rw [BitVec.toNat_append, ← Nat.shiftLeft_add_eq_or_of_lt y.isLt, Nat.shiftLeft_eq]

theorem toNat_bitsAt (w : Word) (lo n : Nat) : (bitsAt w lo n).toNat = w.toNat / 2 ^ lo % 2 ^ n := by
  rw [bitsAt, BitVec.extractLsb'_toNat, Nat.shiftRight_eq_div_pow]

theorem val_regAt (w : Word) (lo : Nat) : (regAt w lo).val = w.toNat / 2 ^ lo % 8 := toNat_bitsAt w lo 3

theorem word_eq_of_guardAt_of_low {v w : Word} (hg : guardAt v = guardAt w) (hl : v.toNat % 2 ^ 47 = w.toNat % 2 ^ 47) : v = w := by
  have tt := congrArg (fun g : Guard => g.tt.toNat) hg
  have ga := congrArg (fun g : Guard => g.ga.val) hg
  have gb := congrArg (fun g : Guard => g.gb.val) hg
  have gc := congrArg (fun g : Guard => g.gc.val) hg
  simp only [guardAt, toNat_bitsAt, val_regAt] at tt ga gb gc
  apply BitVec.eq_of_toNat_eq
  omega

/-- The low bits of a word of format R with no field but D. -/
theorem encR_low (g : Guard) (opc : BitVec 8) (d : Reg) :
    (encR g 0 opc d Src.zero Src.zero Src.zero 0 0 0).toNat % 2 ^ 47 = opc.toNat * 2 ^ 35 + d.val * 2 ^ 32 := by
  have hd : (regBits d).toNat = d.val := rfl
  have hz : Src.zero.bits.toNat = 0 := rfl
  have := d.isLt
  simp only [encR, headBits, toNat_append_add, hd, hz, BitVec.ofNat_eq_ofNat, BitVec.toNat_ofNat]
  omega

theorem eq_encR_of_low {w : Word} {opc : BitVec 8} {d : Reg} (h : w.toNat % 2 ^ 47 = opc.toNat * 2 ^ 35 + d.val * 2 ^ 32) :
    encR (guardAt w) 0 opc d Src.zero Src.zero Src.zero 0 0 0 = w :=
  word_eq_of_guardAt_of_low (encR_g ..) ((encR_low ..).trans h.symm)

/-! ### Decoding (R70, R71) -/

theorem decodeWord_nop {w : Word} (h : w.toNat % 2 ^ 47 = 0x02B8_0000_0000) : decodeWord w = .nop (guardAt w) :=
  (Laws.RoundTrip.nop _ rfl).1 w (congrArg some (eq_encR_of_low h))

theorem decodeWord_time {w : Word} {d : Reg} (h : w.toNat % 2 ^ 47 = 0xF8 * 2 ^ 35 + d.val * 2 ^ 32) :
    decodeWord w = .time (guardAt w) d :=
  (Laws.RoundTrip.time _ d rfl).1 w (congrArg some (eq_encR_of_low h))

/-- A word that is not the encoding of the instruction that its fields form is no instruction. -/
theorem decodeWord_illegal_of_ne {w v : Word} {i : Instr} (hd : decodeFields (opcAt w).toNat (Fields.ofWord w) = .ok i)
    (he : encodeWord i = some v) (ne : v ≠ w) : ∃ c, decodeWord w = .illegalOpcode w c := by
  simp only [decodeWord, hd, he, Option.getD_some, if_pos ne]
  split
  · exact ⟨2, rfl⟩
  · split
    · exact ⟨3, rfl⟩
    · exact ⟨4, rfl⟩

theorem decodeFields_nop {w : Word} (h : (opcAt w).toNat = 0x57) :
    decodeFields (opcAt w).toNat (Fields.ofWord w) = .ok (.nop (guardAt w)) := by
  rw [h]
  rfl

theorem decodeWord_nop_illegal {w : Word} (ho : (opcAt w).toNat = 0x57) (h : w.toNat % 2 ^ 47 ≠ 0x02B8_0000_0000) :
    ∃ c, decodeWord w = .illegalOpcode w c := by
  refine decodeWord_illegal_of_ne (decodeFields_nop ho) rfl fun e => h ?_
  rw [← e]
  exact encR_low ..

end Sys2Proof

namespace Sys2Proof.Machine

section
variable {g : Guard} {d : Reg} {s : State} {key : Nat} {l : Line}

/-! ### NOP and a word that is no instruction (R71, R124) -/

/-- A short word counts toward an open window (R66). -/
theorem State.past_larem_of_short (s : State) (i : Instr) (g : Guard) (names takes : BitVec 8) (l : Line) :
    (s.past (headOf i g names takes) l).c.st.larem.toNat = l.c.st.larem.toNat - 1 := by
  rw [State.past, Line.advance_larem]
  exact nextRem_of_not_long (show Latency.short ≠ .long from nofun) _ _

theorem Issues.completesNop (I : Issues (headOf (.nop g) g 0 0) s key l) : Completes (.nop g) s (headOf (.nop g) g 0 0) key l id :=
  I.completesReg (fun _ c => c) rfl

theorem exec_illegalOpcode {w : Word} {c : BitVec 3} (hi : s.issuing = some (key, l)) (hb : boundary s key l = none) :
    exec (.illegalOpcode w c) s = .next (issueTrap s key l w 0x01 c.toNat 0) :=
  issue_of_checks hi hb rfl _

/-! ### TIME (R14, R232) -/

theorem toNat_maxTime (a b : Word) : (maxTime a b).toNat = max a.toNat b.toNat := by
  simp only [maxTime, BitVec.ult_iff_toNat_lt]
  split <;> omega

theorem State.toNat_timeOf_past (s : State) (h : Head) (l : Line) :
    (s.timeOf (s.past h l).c).toNat = max (s.timeAt l.c.dieNum).toNat (s.past h l).c.floor.toNat :=
  toNat_maxTime ..

theorem Issues.completesTime (I : Issues (headOf (.time g d) g (regMask d) 0) s key l) :
    let h := headOf (.time g d) g (regMask d) 0
    let T := s.timeOf (s.past h l).c
    Completes (.time g d) s h key l (Line.onCtx fun c => { c.setReg d T with floor := T }) :=
  I.completes _ _ rfl rfl

end

/-! ### O12 -/

/-- Settles O12: NOP and TIME are one completion each, and the encodings are read off a word's guard and low 47 bits. -/
theorem nopAndTime : Obligations.NopAndTime := by
  intro g d w s key l nop time T
  refine ⟨fun I => ?_, decodeWord_nop, fun ho hw => ?_, decodeWord_time, s.toNat_timeOf_past time l, Issues.completesTime⟩
  · obtain ⟨pc, -⟩ := issueAdvancesContext_holds nop s key l I
    exact ⟨I.completesNop, s.past_larem_of_short .., pc⟩
  · obtain ⟨c, e⟩ := decodeWord_nop_illegal ho hw
    exact ⟨c, e, exec_illegalOpcode⟩

end Sys2Proof.Machine
end
